-- ==== Sys2Proof/Word.lean ====
section
/-! DEFINITION. Word types of the module and the two plain containers the state is written in. -/

namespace Sys2Proof

/-- One byte of a record (R9: every record is little-endian). -/
abbrev Byte := BitVec 8
/-- A 16-bit record field. -/
abbrev U16 := BitVec 16
/-- A 32-bit lane of a token, or a 32-bit record word. -/
abbrev U32 := BitVec 32
/-- A 64-bit record value. -/
abbrev U64 := BitVec 64
/-- A 12-character ASCII serial (R5). -/
abbrev Serial := BitVec 96
/-- A SHA-384 digest. -/
abbrev Digest := BitVec 384

/-- A finite table by number: pairs in strictly rising key order. What an unlisted key holds is the default
its reader names. -/
abbrev Tab (α : Type) := List (Nat × α)

/-- Bytes by address, in the canonical form of `Mem.wf`: rising addresses and no zero byte. An unlisted
address reads as zero (R76 zero fill, R217 and R222 unwritten granules, R76 scratchpad zero fill). -/
abbrev Mem := List (Nat × Byte)

end Sys2Proof
end

