-- ==== Sys2Proof/Syntax.lean ====
section
/-! DEFINITION. The commands of the module: one constructor per row of the table of operations and events, with
the operands each carries. An operand is what comes from outside the package (a host's bytes, a pin, a frame from a
partner), which part of the machine an internal event names, or what only physics or a cryptographic primitive
can decide (does a tag pass, does a spare pass its check, did a word decode): log entry 1. -/

namespace Sys2Proof

/-! ## Words of HBM -/

/-- What is wrong with a 64-byte word when it is read (R215, R216, R220): lanes of its pseudo-channel that have failed entirely, the other wrong
symbols that its first read and up to two more find, the words of its archive block whose CRC fails with the number of wrong symbols in each, and wrong symbols in the block's
other words and its parity. -/
structure WordErrors where
  lanes : Nat := 0
  symbols : List Nat := []
  badWords : Tab Nat := []
  unknown : Nat := 0
  deriving DecidableEq, Repr, Inhabited

/-! ## Mailbox requests -/

/-- A request record's header (R306) after R308: mailbox, `SESSION_ID`, `SEQ`, `PAYLOAD_LEN`, and whether its
AES-256-GCM tag passed. -/
structure Hdr where
  mailbox : Nat
  session : Nat
  seq : Nat
  len : Nat
  tagOk : Bool
  deriving DecidableEq, Repr

/-- A bulk descriptor (R309). -/
structure Bulk where
  addr : U64
  len : U32
  deriving DecidableEq, Repr

/-- What the gatehouse finds in a signed firmware image, whose own layout the spec does not give (R370): its version and build, whether the Daxaund signature
verifies, whether an endorsement is appended, and the SHA-384 of the key under which that verifies (none: no key). -/
structure FwView where
  securityVersion : Nat
  build : Nat
  daxaundOk : Bool
  endorsed : Bool
  endorseKey : Option Digest
  deriving DecidableEq, Repr

/-- A firmware image in a slot (R370): its version, build, digest, whether the Daxaund signature verifies, and its endorsement. -/
structure FwImage where
  securityVersion : Nat
  build : Nat
  digest : Digest
  daxaundOk : Bool
  endorsed : Bool
  endorseVersion : Nat
  endorseSerial : Serial
  endorseDigest : Digest
  endorseKey : Option Digest
  deriving DecidableEq, Repr

/-- One pattern of a pack (R444). -/
structure Pattern where
  patId : Nat
  unit : Nat
  use : Nat
  weight : Nat
  sigClass : Nat
  runUs : Nat
  bodyOffset : Nat
  bodySize : Nat
  deriving DecidableEq, Repr

/-- A pattern pack as its bytes lay it out (R443), and whether `PACK_SIG` verifies. -/
structure Pack where
  magic : Nat
  format : Nat
  version : Nat
  retraction : Bool
  stepping : Nat
  minSeries : Nat
  retracts : Nat
  count : Nat
  bodyLen : Nat
  bodyDigest : Digest
  patterns : List Pattern
  bytes : List Byte
  sigOk : Bool
  deriving DecidableEq, Repr

/-- What the gatehouse's primitives answer for one request, the choices the spec leaves to the module, and what the copy of a retirement finds in the words that it
reads. `sigOk`: the signature that the request carries or names verifies under the key that its rule gives (`SIG_P`, `CLAIM_SIG`, the signature of a release record or
an unlock token, `PACK_SIG`); `credSigOk`: the `OWNER_SIG` of a credential does; `pointOk`: a public key is a point of the curve. -/
structure Ext where
  sigOk : Bool
  credSigOk : Bool
  pointOk : Bool
  readbackOk : Bool
  pathFails : Bool
  fw : Option FwView
  picks : List Nat
  copy : Tab WordErrors
  deriving DecidableEq, Repr, Inhabited

/-- HELLO of `session.open` (R360). `rsv` are its reserved bytes in order, 0x03 to 0x07 and 0x89 to 0x8F, which TH1 covers (R10). -/
structure Hello where
  role : Nat
  mailbox : Nat
  nonce : BitVec 256
  eph : BitVec 776
  rsv : Nat
  deriving DecidableEq, Repr

/-- FINISH of `session.open` (R362): `PUBKEY_P`, `SIG_P`, `CONFIRM_H`, and the bytes of the credential record, none for kind 0. `rsv` are its reserved bytes in
order, 0x004 to 0x007 and 0x069 to 0x06F, which TH2 covers (R10). -/
structure Finish where
  credKind : Nat
  handshake : Nat
  key : BitVec 776
  sig : BitVec 768
  confirm : Digest
  cred : List Byte
  rsv : Nat
  deriving DecidableEq, Repr

/-- The record of `owner.claim` (R356), its signature judged by the primitives. -/
structure ClaimRecord where
  key : BitVec 776
  sig : BitVec 768
  deriving DecidableEq, Repr

/-- A release record (R378) or an unlock token (R379). -/
structure Token where
  serial : Serial
  count : Nat
  value : Nat
  scope : U32
  deriving DecidableEq, Repr

/-- Four 64-bit words: a region record (R208) or a window record (R290). -/
structure Rec4 where
  w0 : U64
  w1 : U64
  w2 : U64
  w3 : U64
  deriving DecidableEq, Repr

/-! ## Links and mesh -/

/-- A flit (R247), on the lane that carries it. `rsv` are its reserved bits in order, 0x00 [7:6], 0x02, 0x04 [31:20] and 0x0C [31:6]: the check covers them,
and nothing else reads them (R10). -/
structure Flit where
  lane : Nat
  ftype : Nat
  cls : Nat
  first : Bool
  last : Bool
  payLen : Nat
  seq : Nat
  dest : U16
  src : U16
  hops : Nat
  rsv : Nat
  payload : List Byte
  crc : U32
  deriving DecidableEq, Repr

/-- A control word as received (R250), with the 16-bit check it carries. `rsv` are its reserved bits, 0x00 [23:21] and 0x0A [15:1] (R10). -/
structure CtrlWord where
  ackSeq : Nat
  nak : Bool
  laneMask : BitVec 8
  creditData : Nat
  creditMsg : Nat
  creditCtrl : Nat
  creditHost : Nat
  changeFrame : Nat
  changeValid : Bool
  rsv : Nat
  crc : U16
  deriving DecidableEq, Repr

/-- The fields of an alignment block before `TRAIN_INFO` and `FILL` (R246). -/
structure AlignBlock where
  marker : U64
  lane : Nat
  port : Nat
  senderMesh : U16
  frameNo : Nat
  senderSerial : Serial
  activeLanes : BitVec 8
  linkState : Nat
  deriving DecidableEq, Repr

/-- What the saved settings of a port hold for one lane (R259): the fibre that carries it (0: none does), deskew, transmit taps, equaliser, precoding, laser
bias set-point. -/
structure LaneSettings where
  fibre : Nat
  deskew : Nat
  taps : Nat
  equaliser : Nat
  precoding : Bool
  bias : Nat
  deriving DecidableEq, Repr

/-- What training meets on one lane (R256 steps 2 to 6): the settings that it reaches, receive power in 0.01 dBm, whether clock recovery and FEC lock, and the
corrected bits and uncorrectable codewords of step 6. -/
structure LaneTrain where
  settings : LaneSettings
  rxPower : Int
  locked : Bool
  corrected : Nat
  uncorrectable : Nat
  deriving DecidableEq, Repr

/-- What the training of a port meets (R256 to R261): its lanes, by the `LANE` of their blocks, and the partner's qualified mask, in full training and with
saved settings; and the partner. -/
structure TrainResult where
  lanes : List LaneTrain
  partnerMask : BitVec 8
  quick : List LaneTrain
  quickMask : BitVec 8
  partnerSerial : Serial
  partnerMesh : Option U16
  hostAdapter : Bool
  deriving DecidableEq, Repr

/-- What a port finds on a lane in service (R266): no signal or clock lock, a laser fault, uncorrectable codewords, bits corrected over 100 ms. -/
inductive LaneFault where
  | signal
  | laser
  | codewords (n : Nat)
  | bits (n : Nat)
  deriving DecidableEq, Repr

/-- A packet (R274) with the mesh addresses of its flits. `rsv` are the reserved bits of its header in order, 0x01 [7:2], 0x04 [15:12] and 0x08 [63:53],
which its authentication covers (R10, R293). `key`: none where `body` stands as on the wire, as in every packet that arrives; else `body` is in the clear, and is
sealed with that key as the packet goes out. -/
structure Pkt where
  ptype : Nat
  cls : Nat
  poison : Bool
  failed : Bool
  window : Nat
  reqTag : Nat
  address : Nat
  atomicOp : Nat
  w8 : Bool
  nonce : Nat
  src : U16
  dest : U16
  hops : Nat
  rsv : Nat
  key : Option (BitVec 256)
  body : List Byte
  deriving DecidableEq, Repr

/-- A packet, and the port that it arrives on. -/
structure Arrival where
  port : Nat
  pkt : Pkt
  deriving DecidableEq, Repr

/-- Who writes a register (R305, R476): host software at a local address, or the controller of the management bus, which addresses a target with 7 bits. -/
inductive Writer where
  | host (addr : Nat)
  | bus (target : Nat)
  deriving DecidableEq, Repr

/-! ## Surroundings and physical outcomes -/

/-- What the sideband bus answers to the reads of the identity memories (R386, R389), by segment × 128 + address, segment 0 the auxiliary mezzanine
and 1 + p that of port p: one answer for each try, none where nothing answers. -/
abbrev IdAnswers := Tab (List (Option (List Byte)))

/-- What a start meets (R393): answers, damaged storage, and what fails its test or training. `areaBad`: the header of the signed record area fails
in both copies; `badA`, `badB`: the kinds whose record is not valid in copy A, in copy B (R399); `hbmBad`, `softBad`: the stacks and fields whose own
record of kind 5, of kind 3 is valid in neither; `badKeySlots`: the copies of the residency store, 0 or 1, with the slots whose record fails there (R351). -/
structure BootEnv where
  ids : IdAnswers
  slotBad : List Nat
  areaBad : Bool
  badA : List Nat
  badB : List Nat
  hbmBad : List Nat
  softBad : List Nat
  coreFails : List (Nat × Nat × Nat)
  fieldDead : List (Nat × Nat)
  bridgeFails : List Nat
  selfRefresh : List Nat
  digestOk : Bool
  badKeySlots : List (Nat × Nat)
  deriving DecidableEq, Repr

/-- A location that a test judges (R409). -/
structure SoftLoc where
  field : Nat
  kind : Nat
  col : Nat
  row : Nat
  bank : Nat
  sramCol : Nat
  deriving DecidableEq, Repr

/-- What the shut-down test finds (R405 to R411): failed locations, fields that could not complete, physical words that do not decode after their copy back, rows of HBM that fail
a march, the outcome of each queued repair that is not done, by its place in the queue (1 no spare row, 2 row test failed). -/
structure TestEnv where
  failed : List SoftLoc
  fieldsFailed : List Nat
  marked : List Nat
  rowFails : List U64
  ppr : Tab Nat
  burnOk : Bool
  deriving DecidableEq, Repr

/-- What SECDED finds in the memories of slices that move (R153, R413, R423), each by plot, slice and number. Double-bit errors: scratchpad words,
accumulator entries (bank × 16,384 + entry), queue words by channel (ring position × 5 + word of the 40-byte entry). Single-bit errors that no
read has met yet: accumulator words and words of the control state, by how many, and queue words. -/
structure ScanEnv where
  ueWords : List (Nat × Nat × Nat)
  accUe : List (Nat × Nat × Nat)
  queueUe : List (Nat × Nat)
  accCe : List (Nat × Nat × Nat)
  controlCe : List (Nat × Nat × Nat)
  queueCe : List (Nat × Nat)
  deriving DecidableEq, Repr

/-- What a core fence meets (R421 to R423): whether the spare passes its entry check, whether the fenced core's memories can be read, what SECDED finds on
the way, and the pause. -/
structure SlideEnv where
  spareOk : Bool
  readable : Bool
  scan : ScanEnv
  pauseUs : Nat
  deriving DecidableEq, Repr

/-- What a re-placement meets (R424 to R426, R153): targets and cores that fail the entry check, a double-bit error in steps 2 to 4 of the
scan, what else SECDED finds in it, and the scan time. -/
structure ReplaceEnv where
  badTargets : List Nat
  badCores : List (Nat × Nat)
  controlUe : Bool
  scan : ScanEnv
  scanUs : Nat
  deriving DecidableEq, Repr

/-- A location as R324 sends it, and what the copy of a retirement finds in the words that it reads, by physical word number (R234). -/
structure RetireArgs where
  loc : U64
  errors : Tab WordErrors
  deriving DecidableEq, Repr

/-- A local address and the slice for which an atomic of this module's job reaches its controller. -/
structure AtomicAddr where
  addr : Nat
  plot : Nat
  slice : Nat
  deriving DecidableEq, Repr

/-- The bytes of a host access, and what the read of each 64-byte word that it touches finds. -/
structure HostData where
  bytes : List Byte
  errors : List WordErrors
  deriving DecidableEq, Repr

/-- What strikes a tile issue: accumulator entries changed by a defective position, the entry read with a double-bit error,
single-bit errors corrected there (R41, R46). -/
structure TileUpset where
  entries : List (Nat × U32)
  accDouble : Option Nat
  corrected : Nat
  deriving DecidableEq, Repr

/-- What the reader's queue interface meets in a message's entries, by ring position × 5 + word of the 40-byte entry: words with a single-bit error and
words with a double-bit error (R159). -/
structure QueueUpset where
  corrected : List Nat
  doubleBit : List Nat
  deriving DecidableEq, Repr

/-- A node of a plot's array (R112, R124), and the tag that its firing takes. -/
structure NodeRef where
  plot : Nat
  slice : Nat
  pos : Nat
  node : Nat
  tag : BitVec 16
  deriving DecidableEq, Repr

/-- How the residue checker judges a firing and its retries (R52, R417): `misses` mismatches, then a match. -/
structure Residue where
  misses : Nat
  deriving DecidableEq, Repr

/-- Margins that one probe of a stack measures (R448, R449). -/
structure ProbeResult where
  readPs : Nat
  writePs : Nat
  readCh : Nat
  readPc : Nat
  writeCh : Nat
  writePc : Nat
  deriving DecidableEq, Repr

/-- The module's commands, one constructor per row of the table of operations and events. -/
inductive Instr where
  -- module, session, attestation, owner
  | moduleIdentify (h : Hdr)
  | moduleState (h : Hdr)
  | moduleWake (h : Hdr)
  | moduleShutdown (h : Hdr) (retain : U64)
  | moduleShutdownTest (h : Hdr) (level retain : U64)
  | moduleRestart (h : Hdr)
  | moduleFirmwareInstall (h : Hdr) (b : Bulk) (x : Ext)
  | sessionOpenHello (h : Hdr) (m : Hello) (x : Ext)
  | sessionOpenFinish (h : Hdr) (m : Finish) (x : Ext)
  | sessionClose (h : Hdr)
  | attestReport (h : Hdr) (nonce : Digest)
  | ownerClaim (h : Hdr) (r : ClaimRecord) (x : Ext)
  | ownerViolationsRead (h : Hdr) (v : U64)
  | ownerSeal (h : Hdr)
  | ownerUnseal (h : Hdr) (t : Token) (x : Ext)
  -- jobs and plots
  | jobLoad (h : Hdr) (b : Bulk) (x : Ext)
  | jobStart (h : Hdr)
  | jobDrain (h : Hdr)
  | jobUnload (h : Hdr)
  | jobStatus (h : Hdr) (v : U64)
  | plotStatus (h : Hdr)
  | plotPolicySet (h : Hdr) (policy : U64)
  | plotPin (h : Hdr) (plot : U64)
  | plotUnpin (h : Hdr) (plot : U64)
  | plotFence (h : Hdr) (plot : U64)
  -- memory commands
  | memoryRegionDefine (h : Hdr) (r : Rec4) (x : Ext)
  | memoryRegionClear (h : Hdr) (region : U64)
  | memoryRegionRelease (h : Hdr) (region : U64)
  | memoryRegionList (h : Hdr) (start : U64)
  | memoryRetirePage (h : Hdr) (a : RetireArgs)
  | memoryRetireBank (h : Hdr) (a : RetireArgs)
  | memoryRepairRequest (h : Hdr) (loc kind : U64)
  | memoryScrubSet (h : Hdr) (strong page : U64)
  | memoryStagingMark (h : Hdr) (region : U64)
  | memoryStagingUnmark (h : Hdr) (region : U64)
  -- links, mesh, windows
  | linkStatus (h : Hdr)
  | linkWidthPolicy (h : Hdr) (mask policy : U64)
  | meshAssign (h : Hdr) (group : U64)
  | meshStatus (h : Hdr)
  | meshRouteWrite (h : Hdr) (target : U16) (entries : List (Nat × U16)) (x : Ext)
  | meshTimeRead (h : Hdr)
  | windowOpen (h : Hdr) (r : Rec4) (key : BitVec 256) (x : Ext)
  | windowClose (h : Hdr) (window : U64)
  | windowFree (h : Hdr) (window : U64)
  | windowList (h : Hdr) (start : U64)
  -- test, health, OTP, power, debug commands
  | testPackInstall (h : Hdr) (b : Bulk) (x : Ext)
  | testCadenceSet (h : Hdr) (cadence : U64)
  | testStatus (h : Hdr)
  | healthMargins (h : Hdr) (v : U64)
  | healthLogRead (h : Hdr) (field start count : U64)
  | healthEventsRead (h : Hdr) (start max : U64)
  | healthSummaryRead (h : Hdr) (v : U64)
  | healthWarnings (h : Hdr)
  | otpRead (h : Hdr) (v : U64)
  | otpGenerationWrite (h : Hdr) (setting value : U64) (x : Ext)
  | ownerKeyChange (h : Hdr) (value : U64) (x : Ext)
  | powerLimitSet (h : Hdr) (limit : U64)
  | powerClockSet (h : Hdr) (mode pin : U64)
  | powerStatus (h : Hdr)
  | debugQueueView (h : Hdr) (v : U64)
  | debugCountersRead (h : Hdr) (v : U64)
  | debugUnlock (h : Hdr) (t : Token) (x : Ext)
  | debugUartEnable (h : Hdr) (v : U64)
  -- mailbox rings, host, pins, debug port
  | reqTailDoorbell (mb : Nat) (tail : U16) (x : List Ext)
  | rspHeadWrite (mb : Nat) (head : U16) (x : List Ext)
  | registerWrite (w : Writer) (bytes : List Byte) (x : List Ext)
  | hostDmaAccess (write : Bool) (addr : Nat) (data : HostData)
  | jtagInstruction (ir : Byte)
  | auxRailApplied (ids : IdAnswers)
  | auxRailRemoved
  | powerGoodRise
  | powerGoodLoss
  | resetAssert
  | resetRelease
  | cableMated (port : Nat)
  -- start, training, addressing, shut-down
  | bootSequence (env : BootEnv)
  | portTrainingDone (port : Nat) (r : TrainResult)
  | noPartnerTimeout (port : Nat)
  | trainTimeout (port : Nat)
  | latePartnerTraining (port : Nat) (r : TrainResult)
  | trainToReady
  | meshAssignWaitExpiry
  | claimWaitExpiry
  | shutdownTestComplete (env : TestEnv)
  | entropyHealthFail
  | keyStoreFail
  | handshakeExpiry (handshake : Nat)
  | sessionTeardown (session : Nat)
  -- link layer
  | flitReceive (port : Nat) (f : Flit)
  | controlWordReceive (port : Nat) (w : CtrlWord)
  | ackTimeout (port : Nat)
  | alignmentBlockReceive (port : Nat) (b : AlignBlock)
  | laneFailure (port : Nat) (lanes : BitVec 8) (f : LaneFault)
  | widthChange (port : Nat)
  | lossOfSignalAllLanes (port : Nat)
  | bridgeReplayFail (bridge : Nat)
  | timeProbeSend (port : Nat)
  | timeProbe (port : Nat) (sent : Nat)
  | timeReply (port : Nat) (probeSent partnerReceived partnerSent : Nat)
  | hostHello (port : Nat) (serial : Serial)
  | hostHelloTimeout (port : Nat)
  -- enumeration and routing
  | claim (port : Nat) (offered claimant : U16) (claimantPort : Nat)
  | claimAck (member port : Nat) (accepted : U16)
  | claimRefuse (member port : Nat) (partner : U16) (addressed : Bool)
  | enum (path : List Nat) (port offered : Nat)
  | memberTableWrite (masks : List U16)
  | mgmtRouteWrite (entries : List (Nat × U16))
  | portStateReport (member port : Nat) (up : Bool) (partner : U16) (addressed : Bool)
  | memberTableRecompute
  | packetForward (a : Arrival)
  | mailboxRelay (p : Pkt) (x : List Ext)
  | packRelay (bytes : List Byte) (sigOk : Bool)
  | packRelayAnswer (member status : Nat)
  | packRelayRetry (member : Nat)
  -- windows and remote channels
  | windowReadReq (p : Pkt)
  | windowWriteReq (p : Pkt)
  | windowAtomicReq (p : Pkt) (o : WordErrors)
  | readResp (p : Pkt)
  | writeAck (p : Pkt)
  | atomicResp (p : Pkt)
  | remoteRequestTimeout (reqTag : Nat)
  | channelMsg (p : Pkt)
  | channelReport (p : Pkt)
  | headReport (channel : Nat)
  -- DMA and stack controllers
  | dmaRequestIssue (field transfer : Nat)
  | hbmRead (field request : Nat) (errors : List WordErrors)
  | hbmWrite (field request : Nat) (errors : List WordErrors)
  | fetchAdd (a : AtomicAddr) (w8 : Bool) (v : U64) (o : WordErrors)
  | swap (a : AtomicAddr) (w8 : Bool) (v : U64) (o : WordErrors)
  | compareSwap (a : AtomicAddr) (v compare : U64) (o : WordErrors)
  | fetchMax (a : AtomicAddr) (w8 : Bool) (v : U64) (o : WordErrors)
  | fetchOr (a : AtomicAddr) (w8 : Bool) (v : U64) (o : WordErrors)
  | granuleFillComplete (granule : Nat)
  | dramReadReturn (stack entry : Nat) (o : WordErrors)
  | mergeEntryClose (stack entry : Nat)
  | patrolScrubRead (word : Nat) (o : WordErrors) (late : Bool)
  | marginProbe (stack : Nat) (r : ProbeResult)
  | coreSlackReport (plot : Nat) (slackPs : Int)
  | foresightWarning (kind object : Nat) (value : Int)
  -- plot sequencer, tiles, ledger
  | runOpen (plot chain : Nat)
  | workCounterFetch (plot slice desc : Nat)
  | fillIssue (plot slice desc operand : Nat)
  | dmaTransferComplete (field transfer : Nat)
  | tileIssue (plot slice desc : Nat)
  | tileDrainCheck (plot slice : Nat) (u : TileUpset)
  | confirmationCheckDone (plot slice : Nat) (pass : Bool)
  | commitArrival (field commit : Nat)
  | ledgerWriteAck (field commit : Nat)
  | commitAnswer (field commit : Nat)
  | runClose (field run : Nat)
  | slotWaitTimeout (plot slice slot : Nat) (producer : Bool)
  | drainComplete
  -- vector ALU
  | pass (n : NodeRef)
  | fadd (n : NodeRef) (q : Residue)
  | fsub (n : NodeRef) (q : Residue)
  | fmul (n : NodeRef) (q : Residue)
  | ffma (n : NodeRef) (q : Residue)
  | fmin (n : NodeRef)
  | fmax (n : NodeRef)
  | fabs (n : NodeRef)
  | fneg (n : NodeRef)
  | fsq (n : NodeRef) (q : Residue)
  | fcmplt (n : NodeRef)
  | fcmple (n : NodeRef)
  | fcmpeq (n : NodeRef)
  | iadd (n : NodeRef) (q : Residue)
  | isub (n : NodeRef) (q : Residue)
  | imul (n : NodeRef) (q : Residue)
  | and (n : NodeRef)
  | or (n : NodeRef)
  | xor (n : NodeRef)
  | shl (n : NodeRef)
  | shr (n : NodeRef)
  | sar (n : NodeRef)
  | icmplt (n : NodeRef)
  | icmpeq (n : NodeRef)
  | cvtI32F32 (n : NodeRef)
  | cvtF32I32 (n : NodeRef)
  | cvtDn (n : NodeRef)
  | cvtUp (n : NodeRef)
  | perm (n : NodeRef)
  | bcast (n : NodeRef)
  | laneid (n : NodeRef)
  | byteEq (n : NodeRef)
  | byteRange (n : NodeRef)
  -- special-function, reduce, steering units
  | exp (n : NodeRef)
  | log (n : NodeRef)
  | rcp (n : NodeRef)
  | rsqrt (n : NodeRef)
  | sin (n : NodeRef)
  | cos (n : NodeRef)
  | erf (n : NodeRef)
  | lsum (n : NodeRef)
  | lmax (n : NodeRef)
  | lmin (n : NodeRef)
  | accSum (n : NodeRef)
  | accMax (n : NodeRef)
  | accMin (n : NodeRef)
  | topk (n : NodeRef)
  | switch (n : NodeRef)
  | gate (n : NodeRef)
  | merge (n : NodeRef)
  | select (n : NodeRef)
  | spread (n : NodeRef)
  -- scratchpad access unit, queue access unit, matrix-issue port
  | lds (n : NodeRef)
  | sts (n : NodeRef)
  | ld (n : NodeRef)
  | st (n : NodeRef)
  | gather (n : NodeRef)
  | scatter (n : NodeRef)
  | publish (n : NodeRef)
  | release (n : NodeRef)
  | qrd (n : NodeRef)
  | qwr (n : NodeRef)
  | paramRd (n : NodeRef)
  | paramWr (n : NodeRef)
  | sectNext (n : NodeRef)
  | sectLoad (n : NodeRef)
  -- sections and queues
  | sectLoadComplete (plot : Nat)
  | drainBarrierReached (plot : Nat)
  | drainLimitExpiry (plot : Nat)
  | starvationFault (plot : Nat)
  | staleTokenDrop (plot : Nat) (epoch : U16)
  | queueReservation (channel : Nat)
  | messageReadable (channel : Nat) (u : QueueUpset)
  | queueStallTimeout (channel : Nat) (side waiter : Nat)
  -- fault ladder, field test, power loops, JTAG reset
  | coreSlide (field col row : Nat) (e : SlideEnv)
  | plotReplacement (plot : Nat) (e : ReplaceEnv)
  | fieldFence (field cause : Nat)
  | fieldTestChunk (field col row : Nat)
  | chunkEnd (field col row : Nat)
  | chunkCut (field col row : Nat)
  | patternRetest (field col row pattern : Nat) (passes : Bool) (signature : U64)
  | plotGate (plot : Nat)
  | plotWakeComplete (plot : Nat)
  | governorInterval (averageW : Nat)
  | pressureEpisodeEnd
  | thermalThrottleStep (field : Nat) (tempTenths : Int)
  | thermalTrip (sensor : Nat) (tempTenths : Int)
  | droopStretch (field : Nat)
  | droopRelease (field : Nat)
  | jtagReset
  deriving DecidableEq, Repr

end Sys2Proof
end

