-- ==== Sys2Proof/Decode.lean ====
section
/-! DEFINITION. The commands that a word of the table of operations spells. The table gives no row any bits: a command is
an operation or an event with operands, and has no word of its own. A request record is read by the doorbell (R306). -/

namespace Sys2Proof

/-- The command that `nbits` table bits spell: none, since the table gives no row bits. -/
def decodeTableWord (_nbits _w : Nat) : Option Instr := none

end Sys2Proof
end

