-- ==== Sys2Proof/Config.lean ====
section
/-! DEFINITION. What an implementation fixes and the spec leaves open: constants with no body, so that nothing
can be proved of their values (log entries 3, 4, 5 and 6). -/

namespace Sys2Proof.Config

/-- The characters of the lid serial, among the 94 graphic characters of ASCII (R5, R342); one serial per module. -/
opaque serialChar : Nat → Fin 94
/-- The first `k` characters, each in a byte of its own. -/
def serialText (k : Nat) : Nat :=
  match k with
  | 0 => 0
  | n + 1 => 0x21 + (serialChar n).val + 256 * serialText n
/-- The 12-character lid serial as 96 bits (R342). -/
def serial : Serial := BitVec.ofNat 96 (serialText 12)
/-- SHA-384 as a function of the bytes (R353, R392, R410); the standard is not restated by the spec. -/
opaque sha384 : List Byte → Digest
/-- Measurement of the boot ROM (R353 `MEAS_BOOT_ROM`). -/
opaque measBootRom : Digest
/-- The private scalar of the device identity key, made at manufacture (R348). -/
opaque deviceScalar : BitVec 384
/-- The public point of a private scalar on brainpoolP384r1 (R348, R352). -/
opaque ecPublic : BitVec 384 → BitVec 776
/-- ECDSA by a private scalar over a digest, at the n-th random draw; the standard is not restated by the spec. -/
opaque ecdsaSign : BitVec 384 → Nat → Digest → BitVec 768
/-- ECDSA by the device identity key (R354, R360, R410). -/
def deviceSign (n : Nat) (d : Digest) : BitVec 768 := ecdsaSign deviceScalar n d
/-- 32 random bytes of the entropy source at the n-th draw (R350, R360). -/
opaque entropy256 : Nat → BitVec 256
/-- The ephemeral public key of the n-th draw (R360 `EPH_M`). -/
opaque ephemeralPoint : Nat → BitVec 776
/-- HMAC-SHA-384 of a key over bytes (R349, R361, R362); the standard is not restated by the spec. -/
opaque hmac384 : List Byte → List Byte → Digest
/-- The x-coordinate of the ECDH point that the n-th ephemeral key shares with a principal's (R361). -/
opaque sharedX : Nat → BitVec 776 → BitVec 384
/-- The OTP root key, made at manufacture (R348). -/
opaque otpRoot : BitVec 256
/-- AES key wrap (RFC 3394) of bytes under a key: byte i of the result, 8 bytes longer than the text (R348, R351). -/
opaque wrapByte : BitVec 256 → List Byte → Nat → Byte
def keyWrap (key : BitVec 256) (bs : List Byte) : List Byte := (List.range (bs.length + 8)).map (wrapByte key bs)
/-- The length of an X.509 v3 certificate in DER with this subject `serialNumber`, subject public key and `notAfter`, at most 1,536 bytes, and its bytes (R352); the
signature of its issuer and the encoding of its other fields are not restated by the spec. -/
opaque certLength : List Byte → BitVec 776 → List Byte → Fin 1537
opaque certByte : List Byte → BitVec 776 → List Byte → Nat → Byte
def certificate (subject : List Byte) (key : BitVec 776) (notAfter : List Byte) : List Byte :=
  (List.range (certLength subject key notAfter).val).map (certByte subject key notAfter)
/-- The subject name and the public key of the Daxaund manufacturing intermediate (R352). -/
opaque intermediateName : List Byte
opaque intermediateKey : BitVec 776
/-- A free 32-bit value, fresh for every number. -/
opaque freeWord : Nat → U32
/-- A free 64-bit value, fresh for every number. -/
opaque freeU64 : Nat → U64
/-- A free choice between two allowed outcomes. -/
opaque freeBool : Nat → Bool
/-- The special-function unit's fixed tables (R53), by function code and operand. -/
opaque sfuTable : Nat → U32 → U32
/-- A lane of a conversion whose format or group R128 does not give: by operation, `ARG` and `MOD`, operand lanes, lane (R54). -/
opaque cvtLane : Nat → Nat → Nat → U32
/-- Which of two zeros of opposite sign a minimum or maximum returns (R50 does not say). -/
opaque zeroPick : U32 → U32 → Bool
/-- The message, data and host weights 4, 11 and 1 of R252 leave the order inside a round open: which of the classes whose weight is not
used up takes the n-th slot. -/
opaque classPick : Nat → Nat
/-- Byte i of the AES-256-GCM key stream of a key and a 96-bit IV (R168, R293); the standard is not restated by the spec. -/
opaque gcmStream : BitVec 256 → BitVec 96 → Nat → Byte
/-- The AES-256-GCM tag of a key, an IV, the authenticated data and the ciphertext (R168, R293). -/
opaque gcmTag : BitVec 256 → BitVec 96 → List Byte → List Byte → BitVec 128
/-- The bytes of a LINK frame or a control packet after its type, by type and content: R277 and R281 give no layout (log entry 13). -/
opaque frameBytes : Nat → List Nat → List Byte
/-- The state from which the PRBS31 of an alignment block starts (R246), and that from which the scrambler of a lane starts (R245): neither is given. -/
opaque prbsStart : BitVec 31
opaque scramblerStart : BitVec 58
/-- The check symbols of an archive block, 12 bits each, by their number and the block's bytes: R219 gives no generator of the code. -/
opaque pageSymbol : Nat → List Byte → Nat → Nat
/-- CRC-64 over bytes: R219 gives no polynomial. -/
opaque crc64 : List Byte → U64
/-- SHA-384 of all map slices and remap tables as a stack controller writes them (R240): their layout is not given. -/
opaque mapDigest : List Nat → List (Nat × Nat × Nat) → List (Nat × Nat) → Digest
/-- What the reads find that serve the requests still waiting when a region is cleared, a granule's fill ends or a field is fenced: draw, then number. -/
opaque readErrors : Nat → Nat → WordErrors
/-- What a lane (port × 8 + lane) measures (R270), by quantity, 0 eye height, 1 eye width, 2 receive power, 3 launched power, 4 laser bias, and by the
second or the 100 ms of the measurement. -/
opaque laneMeasure : Nat → Nat → Nat → BitVec 16
/-- The laser bias of a lane (port × 8 + lane) recorded at manufacture, in units of 10 µA (R270 `LASER_BIAS_BASE`). -/
opaque laserBiasBase : Nat → BitVec 16

/-- By the number of pairs still to come and the periods of the local time counter since it began: has the test of a field pair ended? R405 gives typical times and bounds
only (log entry 20). -/
opaque pairDone : Nat → Nat → Bool

end Sys2Proof.Config
end

