-- ==== Sys2Proof/Machine/State.lean ====
section
/-! DEFINITION. The state of the module as plain data: every register, table, ring, queue, counter, mode and pin
the spec names, grouped by chapter, and the queue of waiting commands. -/

namespace Sys2Proof.Machine

/-- Why a step could stop with a fault. No command of this module does: every fault the spec describes is a
recorded event, an answer or a job fault, all of them next states. The one constructor names a step on a state that
the model rules out; nothing raises it (safe). -/
inductive Fault where
  | impossible
  deriving DecidableEq, Repr

/-- Why a step could be refused. -/
inductive Refusal where
  /-- Raised only by an arm of `exec` whose command has no meaning yet (safe: nothing can be proved of it). -/
  | notModelled (mnemonic : String)
  deriving DecidableEq, Repr

/-- Module states (R320). -/
inductive ModState where
  | lodge | boot | train | ready | loaded | running | draining | testing | sealed
  deriving DecidableEq, Repr

/-- An event record (R343), with the principal it concerns where R346 needs it. -/
structure EventRec where
  time : U64
  srcKind : Nat
  field : Nat
  plot : Nat
  slice : Nat
  port : Nat
  stack : Nat
  lane : Nat
  cls : Nat
  cont : Nat
  code : Nat
  detail : BitVec 128
  who : Option Digest
  deriving DecidableEq, Repr

/-! ## Pins, control, power -/

/-- Levels of the input pins with an effect (R475): the auxiliary rail, POWER_GOOD, RESET_N, TRST_N, the address select of the management bus. -/
structure Pins where
  auxOn : Bool
  powerGood : Bool
  resetN : Bool
  trstN : Bool
  maddr0 : Bool
  maddr1 : Bool
  deriving DecidableEq, Repr

/-- Module control: state (R320), local time (R299), the kept wake (R385), the last start (R322, R398), the
running firmware (R342, R371), the plot policy (R22), the thermal trip latch (R463, R477), JTAG (R479). -/
structure Ctl where
  mode : ModState
  localTime : U64
  wakeKept : Bool
  bootStart : U64
  tripAlert : Bool
  tripPending : Option EventRec
  ids : Tab (List Byte)
  fastStart : Bool
  coldReason : Nat
  startMs : Nat
  fwSlot : Nat
  fwLast : Option FwImage
  policyFull : Bool
  bootFromLodge : Bool
  jtagIr : Byte
  deriving DecidableEq, Repr

/-- One field's clock (R460 to R463, R468): the clock that the thermal throttle allows (2,400 MHz: no hold), the start of a
droop stretch in force, whether the throttle is stepping down, the hottest sensor. -/
structure FieldClock where
  heldMhz : Nat
  droop : Option U64
  hot : Bool
  tempTenths : Int
  deriving DecidableEq, Repr

/-- The power envelope and its loops (R458 to R468). `recent` holds up to ten 100 µs averages, newest first; `calm` counts the
intervals in succession that stayed below 0.97 of the limit, and `intervalAt` is the end of the last one. -/
structure Power where
  limitSet : Nat
  ceiling : Nat
  supplyCap : Nat
  powerW : Nat
  peakW : Nat
  clockMode : Nat
  pin : Bool
  pressure : Bool
  govMhz : Nat
  throttle16 : Nat
  droopStretches : Nat
  loweredUs : Nat
  recent : List Nat
  calm : Nat
  intervalAt : U64
  clocks : Tab FieldClock
  deriving DecidableEq, Repr

/-! ## OTP and flash -/

/-- One generation slot of a hub setting (R400, R401): the value and its 32-bit tail. -/
structure OtpSlot where
  value : Nat
  tail : U32
  deriving DecidableEq, Repr

/-- One fuse-map generation (R402): half-row entries by index (unlisted: no fence), repairs, and whether its burn
ended, so that its check matches. -/
structure FuseMap where
  halfRows : Tab Nat
  repairs : List U32
  intact : Bool
  deriving DecidableEq, Repr

/-- Hub settings 0x01 to 0x06 and the fuse maps of the eight fields, burnt generations in order (R400, R402). -/
structure Otp where
  settings : Tab (List OtpSlot)
  fuses : Tab (List FuseMap)
  deriving DecidableEq, Repr

/-- A soft repair entry (R409). -/
structure SoftEntry where
  loc : SoftLoc
  origin : Nat
  seen : Nat
  passes : Nat
  fused : Bool
  firstStart : Nat
  deriving DecidableEq, Repr

/-- A test record (R410). -/
structure TestRecord where
  level : Nat
  retain : Bool
  clean : Bool
  startCount : Nat
  fwBuild : Nat
  elapsedMs : Nat
  fieldsFailed : List Nat
  time : U64
  identity : Digest
  otp : Digest
  pack : Digest
  summaries : Tab (List Nat)
  signature : BitVec 768
  deriving DecidableEq, Repr

/-- A lane of a port's saved settings (R259) with its qualified pre-FEC bit error ratio: bits corrected of the bits received. -/
structure LaneRecord where
  settings : LaneSettings
  corrected : Nat
  bits : Nat
  deriving DecidableEq, Repr

/-- A port's saved settings (R259) with the firmware series that R258 compares; `intact` clears when the port drops a lane or
goes down in service. -/
structure PortSettings where
  lanes : List LaneRecord
  series : Nat
  cable : Serial
  partner : Serial
  width : Nat
  qualified : BitVec 8
  intact : Bool
  deriving DecidableEq, Repr

/-- A row, page or bank of a pseudo-channel: pseudo-channel index (stack × 32 + channel × 2 + pc) and number. -/
structure Loc where
  pc : Nat
  number : Nat
  deriving DecidableEq, Repr

/-- A region (R208) and where it is placed (R211, R212): first page or block, owner, defining session, staging mark. -/
structure Region where
  base : Nat
  size : Nat
  interleave : Nat
  place : Nat
  code : Nat
  pageCheck : Nat
  resident : Bool
  rights : Nat
  keySlot : Nat
  state : Nat
  lost : BitVec 8
  start : Nat
  owner : Digest
  session : Nat
  staging : Bool
  deriving DecidableEq, Repr

/-- The flash: firmware slots (R370, R371), pattern packs (R445), the signed record area (R399) by record kind. `spent` lists the spare
pages in use or left for good (R235), `pendingClears` the clears that a fenced field's stacks still owe (R228), `residencyDigest` is the digest of the map slices (R240),
`nonces` the counters that R293 never lets start again (log entry 17). -/
structure Flash where
  slots : Tab FwImage
  lastWritten : Nat
  pack : Option Pack
  testRecord : Option TestRecord
  startCount : Nat
  soft : Tab (List SoftEntry)
  portSettings : Tab PortSettings
  hbmSettings : List Nat
  retiredPages : List (Loc × Nat)
  retiredBanks : List Loc
  spent : List Loc
  repairs : List (Nat × U64)
  repairedRows : List (Nat × U64)
  failedRows : List (Nat × U64)
  pendingClears : List (Nat × Region)
  destructions : List Nat
  destroyStore : Bool
  residencyDigest : Option Digest
  s0Gen : Nat
  s0Advance : Bool
  sealCount : Nat
  unlockCount : Nat
  ticketEpoch : Nat
  forbidDrop : BitVec 16
  savedGroup : Option (Nat × List Byte)
  sumCounts : Tab Nat
  sumKept : List (Nat × EventRec)
  sumNext : Nat
  nonces : Tab Nat
  certs : Bool
  deriving DecidableEq, Repr

/-! ## Gatehouse and mailboxes -/

/-- `K_REQ`, `K_RSP` and `K_IMG` (R361). -/
structure SessionKeys where
  req : BitVec 256
  rsp : BitVec 256
  img : BitVec 256
  deriving DecidableEq, Repr

/-- An open session (R302, R358 to R366): kind 0 owner, 1 fleet operator, 2 tenant. `minSeq` is the least `SEQ` that
its next request may carry (R308); `imageSeq` the last `IMAGE_SEQ` loaded (R366). -/
structure Session where
  kind : Nat
  principal : Digest
  mailbox : Nat
  minSeq : Nat
  quota : Nat
  imageSeq : Option Nat
  closing : Bool
  keys : SessionKeys
  deriving DecidableEq, Repr

/-- `K_CH` and `K_CM`, 48 bytes each, and the keys of the session (R361). -/
structure HandshakeKeys where
  ch : List Byte
  cm : List Byte
  keys : SessionKeys
  deriving DecidableEq, Repr

/-- A pending handshake (R360, R364): TH1 and the keys formed; `Z` and the ephemeral private key are gone (R361). -/
structure Handshake where
  role : Nat
  mailbox : Nat
  born : U64
  th1 : Digest
  derived : HandshakeKeys
  deriving DecidableEq, Repr

/-- A silent-violation counter (R383). -/
structure VCount where
  count : Nat
  lastTime : U64
  lastSource : U32
  deriving DecidableEq, Repr

/-- A key slot: the principal that holds it, and its region key, a 512-bit XTS pair (R226, R348). -/
structure KeySlot where
  owner : Digest
  key : BitVec 512
  deriving DecidableEq, Repr

/-- The gatehouse: sessions, handshakes, key slots 1 to 255 (R226, R348, R359), the slots that the two copies of the residency store hold (R351), debug state with whether
JTAG is open (R379 to R381), the seal cause (R377) and the violation counters (R382). -/
structure Gate where
  sessions : Tab Session
  handshakes : Tab Handshake
  keySlots : Tab KeySlot
  residency : Tab KeySlot
  debugUnlocked : Bool
  jtagOpen : Bool
  uart : Bool
  sealCause : Nat
  vModule : Tab VCount
  vRegion : Tab VCount
  vWindow : Tab VCount
  deriving DecidableEq, Repr

/-- A response record (R307) with its payload in the clear and `K_RSP` of its session, or a pad (R304). A response that waits for room keeps the key
until it is written, also when its session ends meanwhile (log entry 117). -/
structure Rsp where
  pad : Bool
  command : Nat
  seq : Nat
  session : Nat
  status : Nat
  state : Nat
  degraded : Bool
  clamps : U64
  payload : List Byte
  key : Option (BitVec 256)
  deriving DecidableEq, Repr

/-- One mailbox (R303, R304): ring positions, the bytes of the request ring and of the response ring, the responses that stand there unread,
by position, and those that wait for room (R311). -/
structure Mailbox where
  reqTail : Nat
  reqHead : Nat
  rspTail : Nat
  rspHead : Nat
  ring : Mem
  out : Mem
  rsp : Tab Rsp
  delayed : List Rsp
  deriving DecidableEq, Repr

/-- The mailboxes and the bytes of the small register aperture (R203, R303). -/
structure Mbx where
  boxes : Tab Mailbox
  regs : Mem
  deriving DecidableEq, Repr

/-- The event ring (R343, R347): the records still held with their indices, and the next index; and what has left on UART_TX: the events whose text the
console has carried (R381). -/
structure Events where
  ring : List (Nat × EventRec)
  next : Nat
  console : List EventRec
  deriving DecidableEq, Repr

/-! ## The Tasal image -/

/-- An operand record (R88). -/
structure Operand where
  base : Nat
  mesh : Nat
  pitch : Nat
  remote : Bool
  pitched : Bool
  fromParam : Bool
  param : Nat
  deriving DecidableEq, Repr

/-- A level record (R89). -/
structure Level where
  bound : Nat
  order : Nat
  parallel : Bool
  reduce : Bool
  fromParam : Bool
  param : Nat
  strideA : Int
  strideB : Int
  strideC : Int
  strideD : Int
  deriving DecidableEq, Repr

/-- A loop descriptor (R87). -/
structure Desc where
  kind : Nat
  next : Nat
  chain : Nat
  commitMode : Nat
  prefetch : Nat
  m : Nat
  n : Nat
  k : Nat
  aFmt : Nat
  bFmt : Nat
  bsCode : Nat
  sparse : Bool
  accInit : Nat
  pair : Bool
  cFmt : Nat
  moveRows : Nat
  moveRowBytes : Nat
  drainFmt : Nat
  sat : Bool
  shift : Nat
  shapeFromParam : Bool
  shapeParam : Nat
  slotA : Nat
  slotB : Nat
  slotC : Nat
  slotD : Nat
  slotP : Nat
  pool : Bool
  counter : Nat
  chunk : Nat
  sliceMask : U16
  runId : Nat
  done : Nat
  a : Operand
  b : Operand
  c : Operand
  d : Operand
  levels : List Level
  deriving DecidableEq, Repr

/-- A destination of a node (R125). -/
structure Dest where
  slice : Nat
  pos : Nat
  node : Nat
  port : Nat
  deriving DecidableEq, Repr

/-- A node record (R124). -/
structure Node where
  op : Nat
  inCount : Nat
  retire : Bool
  tagOp : Nat
  ctx : Nat
  modf : Nat
  dest0 : Option Dest
  dest1 : Option Dest
  kport0 : Nat
  kidx0 : Nat
  kport1 : Nat
  kidx1 : Nat
  arg : U32
  deriving DecidableEq, Repr

/-- A section record (R141): nodes by (8 × slice + position) × 16 + node, constants by slice × 128 + index. -/
structure Section where
  strict : Bool
  windowEn : Bool
  sliceMask : U16
  iterWindow : Nat
  retireCount : Nat
  starveUs : Nat
  drainUs : Nat
  nodes : Tab Node
  consts : Tab U32
  deriving DecidableEq, Repr

/-- A channel record (R156). -/
structure Channel where
  destType : Nat
  readNoTimeout : Bool
  closeOnSwitch : Bool
  remoteIn : Bool
  maxLen : Nat
  readerPlot : Nat
  readerSlice : Nat
  readerQueue : Nat
  pqBase : Nat
  pqSize : Nat
  writerPlot : Nat
  writerAny : Bool
  seqWriter : Bool
  writerSlices : U16
  peerMesh : Nat
  peerChannel : Nat
  stallUs : Nat
  deriving DecidableEq, Repr

/-- A remote-window entry (R330). -/
structure RemoteWin where
  target : Nat
  window : Nat
  rd : Bool
  wr : Bool
  atomic : Bool
  base : Nat
  size : Nat
  key : BitVec 256
  deriving DecidableEq, Repr

/-- The loaded job: header values (R327), tables, and the counters of R335. -/
structure Job where
  loaded : Bool
  session : Nat
  principal : Digest
  meas : Digest
  tolExp : Nat
  tolAbs : U32
  uePolicy : Nat
  slotWaitUs : Nat
  queueStallUs : Nat
  jobKey : BitVec 256
  plots : List Nat
  channels : Tab Channel
  sections : Tab Section
  remotes : List RemoteWin
  windows : List Nat
  issueStopped : Bool
  faulted : Bool
  faultCause : Nat
  faultEvent : Nat
  faultTime : U64
  startTime : U64
  tileReplays : Nat
  opRetries : Nat
  coreSlides : Nat
  replacements : Nat
  tilesSkipped : Nat
  deriving DecidableEq, Repr

/-! ## Plots and slices -/

/-- A slot record (R61). -/
structure SlotDef where
  base : Nat
  size : Nat
  parts : Nat
  initFull : Bool
  producer : Nat
  consumer : Nat
  waitUs : Nat
  deriving DecidableEq, Repr

/-- A slot's state (R64): parts that are full, parts that are poisoned, both indices, `REDUNDANT_MARK`. -/
structure SlotState where
  full : List Nat
  poison : List Nat
  prod : Nat
  cons : Nat
  redundant : Nat
  deriving DecidableEq, Repr

/-- A stalled waiter (R67): who waits (a descriptor index, or 256 + array position × 16 + node), since when, and
the ticks for which its timer stood frozen (R73). -/
structure Stall where
  slot : Nat
  part : Nat
  producer : Bool
  agent : Nat
  since : U64
  frozen : Nat
  deriving DecidableEq, Repr

/-- A fill that has been issued and whose part has not been released: operand (0 A, 1 B, 2 C), the number of the issue for which it was made, part. -/
structure FillRec where
  operand : Nat
  number : Nat
  part : Nat
  deriving DecidableEq, Repr

/-- The failures of an output tile since it was begun (R414, R418, R420): how many, the event that reported the last one and its cause of R418, the
number of the issue that failed, whether its repetition is still to pass, and whether the tile has met a slide. -/
structure TileFail where
  count : Nat
  code : Nat
  cause : Nat
  number : Nat
  pending : Bool
  slid : Bool
  deriving DecidableEq, Repr

/-- The share of a descriptor that one slice holds (R90, R94): its taken work items (first, count), the next number of the walk over their issues,
the numbers to be issued again (R418), the fills in place or on their way in the order of their issue (R92), the failures of each
output tile that is not released yet (R420), and the tiles that the walk steps over because they are abandoned (R218). -/
structure Work where
  stopped : Bool
  ranges : List (Nat × Nat)
  issue : Nat
  redo : List Nat
  fills : List FillRec
  fails : Tab TileFail
  skipped : List Nat
  deriving DecidableEq, Repr

/-- A tile issue under way (R26): what it computes and where its result goes. Accumulator entries are FP32 bit
patterns or INT32 values; `lo` is empty unless paired. `bank` is the accumulator bank of its first entry (R38, R39),
`ue` lists the entries that a slide or a scan brought as uncorrectable words (R153). -/
structure TileIssue where
  desc : Nat
  run : Nat
  epoch : Nat
  tile : Nat
  step : Nat
  lastStep : Bool
  number : Nat
  m : Nat
  n : Nat
  acc : List U32
  lo : List U32
  overflow : Bool
  predCol : List (Nat × Nat)
  predRow : List (Nat × Nat)
  partA : Nat
  partB : Nat
  partC : Nat
  bank : Nat
  ue : List Nat
  deriving DecidableEq, Repr

/-- A message in a ring (R158, R161): a pad (or entries given up, which are skipped as a pad is), or entries with their CRC. `written`
has bit i when entry i has been written; `read` counts the entries that tokens have carried. A length of 0 is not yet known. `ue` lists the words with a
double-bit error that a slide or a scan brought, by ring position × 5 + word of the 40-byte entry (R153). -/
structure QMsg where
  pad : Bool
  start : Nat
  len : Nat
  seq : Nat
  payload : List Byte
  crc : U32
  written : Nat
  readable : Bool
  read : Nat
  ue : List Nat
  deriving DecidableEq, Repr

/-- A core queue or plot queue (R154, R169, R175). -/
structure Queue where
  isOpen : Bool
  msgs : List QMsg
  head : Nat
  tail : Nat
  delivered : Nat
  stallCycles : Nat
  closedDrop : Nat
  crcFail : Nat
  discarded : Nat
  deriving DecidableEq, Repr

/-- Flags of a tile status (R36, R42, R48): an entry NaN at drain, an addition that overflowed or wrapped, a sum not compared. -/
structure TileFlags where
  nan : Bool
  overflow : Bool
  unchecked : Bool
  deriving DecidableEq, Repr

/-- One slice (R11): powered banks, slot table, scratchpad, 64-bit words with a double-bit error (`spadUe`) or a
single-bit error that no read has corrected yet (`ceLatent`), corrections of each word in the job, counters (R325), work,
the tile issue under way or that drains next and the one that accumulates in the other bank meanwhile (`ahead`, R39), the flags of
the last one drained, the confirmation check under way (0 for a tile, else 1 + the node key
of a firing), core queues, assembly buffer,
the end of its last work, and the last 8 idle gaps of the core that carries it, in µs (R437). -/
structure Slice where
  banks : Nat
  slots : Tab SlotDef
  slotSt : Tab SlotState
  stalls : List Stall
  spad : Mem
  spadUe : List Nat
  ceLatent : List Nat
  ceWords : Tab Nat
  spadCe : Nat
  spadUeCount : Nat
  gated : Nat
  bankConflict : Nat
  accCe : Nat
  overflowTiles : Nat
  uncheckedSums : Nat
  work : Tab Work
  issue : Option TileIssue
  ahead : Option TileIssue
  flags : TileFlags
  confirm : Option Nat
  queues : Tab Queue
  asm : List Byte
  lastWork : U64
  gaps : List Nat
  deriving DecidableEq, Repr

/-- A token (R113): its destination, node `key` = (8 × slice + position) × 16 + node and `port`, its tag, its section epoch and its lanes. In an
operand store, `stamp` is the array's clock when it arrived, and `shared` says whether it stands in a shared entry or in its port's reserved
one (R118, R120). -/
structure Tok where
  key : Nat
  port : Nat
  tag : BitVec 16
  epoch : U16
  lanes : List U32
  stamp : Nat
  shared : Bool
  deriving DecidableEq, Repr

/-- A token in a pass-through register of a slice, which it entered in a direction: 1 from the west, 2 from the east, 3 from the north, 4 from the
south (R113, R120). -/
structure PassTok where
  slice : Nat
  dir : Nat
  tok : Tok
  deriving DecidableEq, Repr

/-- A result waiting in an output register for room at its destination (R120). -/
structure OutTok where
  src : Nat
  tok : Tok
  deriving DecidableEq, Repr

/-- A reduce group in progress (R131): tokens taken and the running value. -/
structure Acc where
  count : Nat
  groups : Nat
  vals : List U32
  cands : List (U32 × U32)
  deriving DecidableEq, Repr

/-- A plot's dataflow array (R112 to R150). `pass` holds the pass-through registers, `clock` counts firings, `firedAt` holds the clock at the last
firing of a source (R118), `flushed` says that a switch has passed its barrier and waits for its store slot to be loaded (R145), and `retrying` lists the
firings, at most one of a unit, whose operands are kept for a repetition after a confirmation check (R417). -/
structure Arr where
  store : Tab Nat
  active : Option Nat
  epoch : U16
  stopped : Bool
  faulted : Bool
  switchTo : Option Nat
  draining : Bool
  flushed : Bool
  toks : List Tok
  outs : List OutTok
  pass : List PassTok
  clock : Nat
  emitted : Tab Nat
  firedAt : Tab Nat
  cursors : Tab (Nat × Nat)
  accs : Tab Acc
  retired : Tab Nat
  retFired : Tab Nat
  loads : List (Nat × Nat)
  switchIgnored : Nat
  residual : Nat
  forced : Nat
  stale : Nat
  retrying : List (Nat × BitVec 16)
  deriving DecidableEq, Repr

/-- A chain of descriptors (R85): the descriptor it stands at, and 0 waiting, 1 in its run, 2 ended, 3 halted. -/
structure Chain where
  desc : Nat
  status : Nat
  deriving DecidableEq, Repr

/-- One logical plot: sequencer, slices, array, plot queues, sleep state (0 ACTIVE, 1 CLOCK_STOPPED, 2 GATED,
3 waking). -/
structure Plot where
  assigned : Bool
  pinned : Bool
  fencedBy : Nat
  stopped : Bool
  descs : Tab Desc
  counters : Tab Nat
  params : Tab U64
  chainStarts : Tab Nat
  chains : Tab Chain
  preload : Tab Nat
  slices : Tab Slice
  arr : Arr
  queues : Tab Queue
  sleep : Nat
  trackerWait : Nat
  slackPs : Int
  slackMin : Option Int
  deriving DecidableEq, Repr

/-! ## Fields -/

/-- An entry of the field remap table (R191). `ASSIGNED` and `PINNED` are read from the plot. -/
structure Remap where
  position : Nat
  mapped : Bool
  posState : Nat
  replacedFrom : Nat
  deriving DecidableEq, Repr

/-- A slide-map record (R187); 31 for no fence. -/
structure SlideRow where
  west : Nat
  westLost : Bool
  east : Nat
  eastLost : Bool
  deriving DecidableEq, Repr

/-- A run entry (R98, R99, R104, R105). `failed` counts the Failed answers of each output tile (R106). -/
structure Run where
  isOpen : Bool
  epoch : Nat
  everOpened : Bool
  plot : Nat
  desc : Nat
  mode : Nat
  joined : List Nat
  active : List (Nat × Nat)
  params : List U64
  bits : List Nat
  count : Nat
  dup : Nat
  stale : Nat
  transit : Nat
  halted : Bool
  last : Nat
  failed : Tab Nat
  deriving DecidableEq, Repr

/-- A commit on its way (R103, R104): 0 in flight, 1 held, 2 writing, 3 accepted, 4 duplicate, 5 stale,
6 failed, 7 acknowledged (DIRECT). -/
structure Commit where
  run : Nat
  epoch : Nat
  tile : Nat
  plot : Nat
  slice : Nat
  desc : Nat
  slot : Nat
  part : Nat
  rows : List (Int × Nat)
  mode : Nat
  status : Nat
  bad : Bool
  deriving DecidableEq, Repr

/-- A DMA transfer (R193), row by row (address, bytes): a fill of operand 0 to 2 into a slot part, from `remote` when it lies in a
window, or the write of a commit (operand 3). `offset` counts the bytes whose requests have been issued, `tries` the
deliveries that arrived poisoned (R108, R218). -/
structure Transfer where
  plot : Nat
  slice : Nat
  desc : Nat
  operand : Nat
  slot : Nat
  part : Nat
  run : Nat
  tile : Nat
  remote : Option Nat
  rows : List (Int × Nat)
  offset : Nat
  engine : Bool
  poisoned : Bool
  tries : Nat
  deriving DecidableEq, Repr

/-- Where a read's data lands: a slot part's scratchpad offset, or the answer to a window request that came by a port (16: none, log entry 13). -/
inductive ReqDest where
  | fill (transfer plot slice offset : Nat)
  | commit (commit : Nat)
  | window (port : Nat) (p : Pkt)
  deriving DecidableEq, Repr

/-- A tracked request (R194) to a stack controller of this module, or to the scratchpad of a plot whose traffic is held, at a local address. `issued`
once the controller has taken it; `waiting` lists the physical lines whose data has still to land, `held` counts the packets of it that a
hold pool keeps (R188); `failed` when a part was poisoned or left unwritten. `data` is what a write stores, or what a window read has gathered. -/
structure MemReq where
  write : Bool
  addr : Nat
  len : Nat
  data : List Byte
  dest : ReqDest
  plot : Nat
  slice : Nat
  issued : Bool
  waiting : List Nat
  failed : Bool
  held : Nat
  deriving DecidableEq, Repr

/-- A stack error log record (R231). -/
structure LogRec where
  last : U64
  first : U64
  stack : Nat
  channel : Nat
  pc : Nat
  bank : Nat
  row : Nat
  col : Nat
  event : Nat
  symbols : Nat
  source : Nat
  code : Nat
  count : Nat
  region : Nat
  deriving DecidableEq, Repr

/-- Field test figures (R339). -/
structure TestStats where
  run : Nat
  cut : Nat
  fails : Nat
  retestPasses : Nat
  lastFail : U64
  deriving DecidableEq, Repr

/-- A pattern chunk on a core: start, length in µs, whether it is a job core (R437); cut chunks in succession and the moment before
which no chunk starts (R438); chunks of the last second (R439); when its full pattern set was last complete (R339); the pattern of the pack that the last chunk ran
(R444; none: a built-in one). -/
structure CoreTest where
  chunk : Option (U64 × Nat × Bool)
  cuts : Nat
  notBefore : U64
  spent : List (U64 × Nat × Bool)
  passed : Option U64
  pattern : Option Nat
  deriving DecidableEq, Repr

/-- A fence whose remap has still to run (R190): of a core, with the code of the finding, of a plot, or of a position that carries no assigned plot. -/
inductive FenceDue where
  | core (col row cause : Nat)
  | plot (p : Nat)
  | position (pos : Nat)
  deriving DecidableEq, Repr

/-- One field (R17). `fenceDue` lists the fences whose remap has still to run, in order of detection (R190); `engineTurn` is the plot that was
granted an engine last (R193), `corrected` are the times of the corrected events of each stack within the last hour (R449), `testTurn` the key of the core outside the job that was tested last (R440), and `trackerQueue` lists the transfers that wait for a shared tracked request, in order of request (R194). `copies` are the
sections of which its system area holds a copy (R207). -/
structure Field where
  fenced : Bool
  fenceCause : Nat
  remap : Tab Remap
  slide : Tab SlideRow
  through : List (Nat × Nat)
  routes : Tab (Option Nat)
  runs : Tab Run
  commits : Tab Commit
  poolCounters : Tab Nat
  transfers : Tab Transfer
  requests : Tab MemReq
  nextId : Nat
  log : List LogRec
  logLost : Nat
  recovered : Tab (List U64)
  stats : TestStats
  cores : Tab CoreTest
  fenceDue : List FenceDue
  engineTurn : Nat
  trackerQueue : List Nat
  copies : List Nat
  testTurn : Nat
  corrected : Tab (List U64)
  deriving DecidableEq, Repr

/-! ## The trellis -/

/-- Where a packet enters the trellis of a field (R177, R178): the router at a core position, or the edge gateway at an edge (0 north, 1 east, 2 south,
3 west) and a column or row of it. -/
inductive Site where
  | router (col row : Nat)
  | gateway (edge idx : Nat)
  deriving DecidableEq, Repr

/-- Where a packet of the trellis goes (R178, R180): to a slice of a logical plot, translated when it is injected, or to the agent at an edge of a field and a
column or row of it. -/
inductive Goal where
  | slice (plot slice : Nat)
  | edge (field edge idx : Nat)
  deriving DecidableEq, Repr

/-- One entry of a remote channel message at its ring position (R158, R167). -/
structure RemoteEntry where
  pos : Nat
  kind : Nat
  lenM1 : Nat
  seq : Nat
  crc : U32
  payload : List Byte
  deriving DecidableEq, Repr

/-- A channel message from another module as it opens (R168). -/
structure RemoteMsg where
  channel : Nat
  entries : List RemoteEntry
  deriving DecidableEq, Repr

/-- What a packet carries: a request to a stack controller, the data of a line for a tracked request, the acknowledgement of one, the answer of a remote
module, a request of a DMA engine to a scratchpad and what answers it, a window request and what answers it, a remote message, the
reservation of a writer in a channel of this module. -/
inductive Cargo where
  | request (field rid : Nat)
  | line (field rid off : Nat) (data : List Byte) (poisoned : Bool)
  | done (field rid : Nat)
  | answer (tag : Nat) (data : Option (List Byte)) (poisoned failed : Bool)
  | access (field rid : Nat)
  | data (field rid : Nat) (data : List Byte) (failed : Bool)
  | window (port : Nat) (p : Pkt) (read : Bool) (body : List Byte)
  | reply (p : Pkt)
  | message (m : RemoteMsg)
  | reserve (channel plot : Nat) (node : Option Nat)
  deriving DecidableEq, Repr

/-- A packet in a hold pool, untranslated (R188): the field and the place where it is kept, its virtual channel, its class (0 request, 1 response,
2 message), where it goes. -/
structure Parcel where
  field : Nat
  site : Site
  vc : Nat
  cls : Nat
  goal : Goal
  cargo : Cargo
  deriving DecidableEq, Repr

/-- The trellis of a field: the hold mask of its routers and gateways, the packets in their hold pools in order of arrival, the packets whose
injecting agents stall on a full pool (R188, R189), and for each output of a router the input that it granted last (R179). -/
structure Trellis where
  hold : List Nat
  pools : List Parcel
  stalled : List Parcel
  turns : Tab Nat
  deriving DecidableEq, Repr

/-! ## HBM -/

/-- A merge entry (R197, R198): the line's physical address, its requesters (field, request), whether it still takes
requesters, whether its data has returned, and the copy that it answers from: the data that returned, or the line as it
was before a write closed the entry (R199). -/
structure MergeEntry where
  line : Nat
  requesters : List (Nat × Nat)
  takes : Bool
  returned : Bool
  copy : Option (List Byte)
  poison : Bool
  deriving DecidableEq, Repr

/-- One stack controller (R197, R202, R226, R448, R449): `keys` is its cache of the keys of slots in use, `late` the pass of the strong (0) or the page-code (2) scrub that
was last logged as late (R230). -/
structure Stack where
  merge : Tab MergeEntry
  nextEntry : Nat
  opened : Nat
  joined : Nat
  full : Nat
  probe : Option ProbeResult
  probeTime : U64
  lowRead : Nat
  lowWrite : Nat
  late : Tab Nat
  keys : Tab (BitVec 512)
  deriving DecidableEq, Repr

/-- What the stack controllers write to their system areas on standby (R240): map slices and remap tables. -/
structure MapSave where
  written : List Nat
  pages : List (Loc × Nat)
  banks : List Loc
  deriving DecidableEq, Repr

/-- The memory: bytes by physical address, the parity of archive blocks by block number (R219; unlisted: that of a block of zeros), marked words, written granules, granules being filled with the
requests that wait on each (R223), regions, scrub intervals (R229), when the passes of both scrubs began and since when they pause (R230), the saved maps (R240), controllers,
the last atomic answer (R214). -/
structure Hbm where
  data : Mem
  parity : Tab (List Byte)
  poison : List Nat
  written : List Nat
  filling : Tab (List (Nat × Nat))
  regions : Tab Region
  strongHours : Nat
  pageHours : Nat
  strongFrom : U64
  pageFrom : U64
  pausedAt : Option U64
  saves : Option MapSave
  stks : Tab Stack
  pages : List (Loc × Nat)
  banks : List Loc
  sparesGone : List Loc
  atomicOld : U64
  atomicPoison : Bool
  deriving DecidableEq, Repr

/-! ## Links and mesh -/

/-- What a port sends: a LINK frame (R277, R300) with its content, a packet, or a control packet (ENUM, MGMT, MAILBOX_RELAY,
PACK_RELAY of R275, whose bodies the spec does not lay out) with its destination, its source route and its content. -/
inductive OutItem where
  | frame (code : Nat) (content : List Nat)
  | pkt (p : Pkt)
  | ctl (ptype dest : Nat) (path content : List Nat)
  deriving DecidableEq, Repr

/-- An item that waits at a port, its class, and the port whose receive buffer it still occupies (none: an item of this module). -/
structure QItem where
  cls : Nat
  item : OutItem
  source : Option Nat
  deriving DecidableEq, Repr

/-- A sequenced flit in the replay buffer (R254): number, lane, class, which flit of its item, times resent. -/
structure TxFlit where
  seq : Nat
  lane : Nat
  cls : Nat
  part : Nat
  last : Bool
  item : OutItem
  resent : Nat
  deriving DecidableEq, Repr

/-- A packet being received in one class (R248), with the flits that hold its buffers. -/
structure Partial where
  bytes : List Byte
  flits : Nat
  deriving DecidableEq, Repr

/-- A lane of a trained port (R259, R266, R270): its settings, its counters since training, the times of the uncorrectable codewords of the last
millisecond, the second of the local time counter that runs, and the bits corrected in it and in the one before. -/
structure LaneState where
  settings : LaneSettings
  corrected : Nat
  uncorrectable : Nat
  recent : List U64
  second : Nat
  thisSecond : Nat
  lastSecond : Nat
  deriving DecidableEq, Repr

/-- One optical port (R242 to R270). `pstate` 0 UP, 1 NARROW, 2 DOWN, 3 not settled (training). `active` are the active
lanes, `qualified` the intersection of R261, `laneMask` the lanes held healthy (R250), `lasers` the lit ones, `nextActive` the set that takes effect
at `changeFrame`. Its own frame number counts from `trainedAt`; `partnerFrame` is the partner's. `txq` holds items by class and `txPart` how many flits of the
head item of a class have been sent; `sinceCtl` counts the slots since a control flit and `turns` those of each other class in the present round (R252),
`txLane` is the lane of the last flit (R249), `left` the flits just sent that free a buffer at the port they came by. `rxSeq` is `ACK_SEQ`, the last flit
accepted; `rxHeld` are flits that came ahead of their turn (R249), `rxUsed` and `freed` the buffers in use and freed (R251, R252). -/
structure Port where
  pstate : Nat
  trainedBy : Nat
  reason : Nat
  active : BitVec 8
  qualified : BitVec 8
  laneMask : BitVec 8
  hostRole : Bool
  hostReason : Nat
  hostWait : Bool
  forbidDrop : Bool
  lasers : BitVec 8
  cableAtBoot : Bool
  partnerMesh : Option U16
  partnerSerial : Serial
  hostAdapter : Bool
  lanes : List LaneState
  trainedAt : U64
  partnerFrame : Nat
  changeFrame : Option Nat
  nextActive : BitVec 8
  txSeq : Nat
  txq : List QItem
  txPart : Tab Nat
  replay : List TxFlit
  ackSeq : Nat
  nakSeen : Option (Nat × U64)
  creditUsed : Tab Nat
  creditSeen : Tab Nat
  slotNo : Nat
  sinceCtl : Nat
  turns : Tab Nat
  txLane : Nat
  left : List (Nat × Nat)
  rxSeq : Nat
  rxNak : Bool
  rxHeld : List Flit
  rxUsed : Tab Nat
  freed : Tab Nat
  rxPart : Tab Partial
  dropping : Bool
  hopExpired : Nat
  hostDrops : Nat
  badPacket : Nat
  noRoute : Nat
  unaddressed : Nat
  replayFull : Nat
  probeSent : U64
  exchange : Option (U64 × U64 × U64 × U64)
  deriving DecidableEq, Repr

/-- A window (R290). -/
structure Window where
  base : Nat
  size : Nat
  peerAddr : U16
  peerMask : U16
  rd : Bool
  wr : Bool
  atomic : Bool
  aperture : Bool
  closed : Bool
  key : BitVec 256
  owner : Digest
  session : Nat
  byImage : Bool
  deriving DecidableEq, Repr

/-- Replay state of one (window or channel, sender, direction) triple (R294). -/
structure Replay where
  window : Nat
  sender : U16
  response : Bool
  highest : Nat
  seen : List Nat
  deriving DecidableEq, Repr

/-- A tracked request to a remote window (R292 to R296). -/
structure RemoteReq where
  target : U16
  window : Nat
  write : Bool
  addr : Nat
  len : Nat
  dest : ReqDest
  field : Nat
  held : Bool
  deriving DecidableEq, Repr

/-- A member found by enumeration (R281): the path of ports to it, its links inside the group (port, member) and to other groups (port, group). -/
structure Member where
  path : List Nat
  links : List (Nat × Nat)
  outside : List (Nat × Nat)
  deriving DecidableEq, Repr

/-- A packet that has arrived for this module and waits to be taken: its port, and the receive buffers that it occupies (R251, R252). -/
structure Arrived where
  port : Nat
  flits : Nat
  pkt : Pkt
  deriving DecidableEq, Repr

/-- Mesh state (R271 to R300): address, host role, enumeration at a root, tables, windows, remote requests. -/
structure Mesh where
  addr : Option U16
  root : Bool
  hostPort : Nat
  hostResult : Nat
  assigned : Option Nat
  settled : Bool
  claimed : Bool
  upPort : Nat
  addressingDone : Bool
  members : Tab Member
  enumQueue : List Nat
  enumAt : Option (Nat × Nat)
  nextMember : Nat
  groupFull : Bool
  memberTable : Tab U16
  groupTable : Tab U16
  windows : Tab Window
  replays : List Replay
  remote : Tab RemoteReq
  nextTag : Nat
  inbox : List Arrived
  noRouteAt : Tab U64
  deriving DecidableEq, Repr

/-- A writer or reader that waits at a channel (a plot sequencer's outbox entry has no node, R173), since when, the ticks for which its timer
stood frozen (R73), and whether its reservation is still on its way, in a hold pool (R429). -/
structure Waiter where
  plot : Nat
  slice : Nat
  node : Option Nat
  tag : BitVec 16
  epoch : U16
  payload : List Byte
  since : U64
  frozen : Nat
  held : Bool
  deriving DecidableEq, Repr

/-- The state of a channel beyond its queue: waiting writers, waiting readers, the next sequence number, and for a remote channel the shadow ring
and the pairing (0 waiting, 1 matched, 2 closed). -/
structure ChanState where
  seq : Nat
  waiters : List Waiter
  readers : List Waiter
  pairing : Nat
  shadow : Queue
  headReported : Nat
  deriving DecidableEq, Repr

/-! ## Test and health -/

/-- A pack relay to one member (R339, R447). -/
structure Relay where
  state : Nat
  status : Nat
  version : Nat
  first : U64
  deriving DecidableEq, Repr

/-- Field test and shut-down test (R404 to R411, R436 to R447). `pairs` lists the field pairs that a shut-down test has still to run, the one under test
first (R405, R406), and `pairFrom` is when that one began. -/
structure Test where
  assurance : Bool
  retracted : Bool
  relays : Tab Relay
  level : Nat
  retain : Bool
  began : U64
  pairs : List (Nat × Nat)
  pairFrom : U64
  deriving DecidableEq, Repr

/-- A foresight warning in force (R451). -/
structure Warning where
  kind : Nat
  srcKind : Nat
  object : Nat
  value : Int
  threshold : Int
  first : U64
  last : U64
  deriving DecidableEq, Repr

/-- The state of the module. `free` counts the free values drawn (the model's own field, log entry 4). -/
structure State where
  pending : List Instr
  pins : Pins
  ctl : Ctl
  pwr : Power
  otp : Otp
  flash : Flash
  gateh : Gate
  mbx : Mbx
  evt : Events
  job : Job
  chans : Tab ChanState
  plots : Tab Plot
  flds : Tab Field
  grid : Tab Trellis
  bridges : Tab Bool
  hbm : Hbm
  links : Tab Port
  mesh : Mesh
  test : Test
  health : List Warning
  free : Nat
  deriving DecidableEq, Repr

/-! ## Reset -/

def Queue.empty : Queue := ⟨false, [], 0, 0, 0, 0, 0, 0, 0⟩
def SlotState.empty : SlotState := ⟨[], [], 0, 0, 0⟩
def TileFail.none : TileFail := ⟨0, 0, 0, 0, false, false⟩
def Work.empty : Work := ⟨false, [], 0, [], [], [], []⟩
def TileFlags.clear : TileFlags := ⟨false, false, false⟩
def Slice.empty : Slice := ⟨0, [], [], [], [], [], [], [], 0, 0, 0, 0, 0, 0, 0, [], none, none, TileFlags.clear, none, [], [], 0#64, []⟩
def Acc.empty : Acc := ⟨0, 0, [], []⟩
def Arr.empty : Arr :=
  ⟨[], none, 0#16, true, false, none, false, false, [], [], [], 0, [], [], [], [], [], [], [], 0, 0, 0, 0, []⟩
/-- A plot that no image assigns (R12: clock-stopped). -/
def Plot.empty : Plot :=
  ⟨false, false, 0, false, [], [], [], [], [], [], [], Arr.empty, [], 1, 0, 1000, none⟩
def Remap.empty : Remap := ⟨0, false, 3, 0⟩
def SlideRow.clear : SlideRow := ⟨31, false, 31, false⟩
def Run.empty : Run := ⟨false, 0, false, 0, 0, 0, [], [], [], [], 0, 0, 0, 0, false, 0, []⟩
def TestStats.empty : TestStats := ⟨0, 0, 0, 0, 0#64⟩
def CoreTest.empty : CoreTest := ⟨none, 0, 0#64, [], none, none⟩
def Field.empty : Field :=
  ⟨false, 0, [], [], [], [], [], [], [], [], [], 0, [], 0, [], TestStats.empty, [], [], 511, [], [], 1087, []⟩
def Trellis.empty : Trellis := ⟨[], [], [], []⟩
def Stack.empty : Stack := ⟨[], 0, 0, 0, 0, none, 0#64, 0, 0, [], []⟩
def FieldClock.reset : FieldClock := ⟨2400, none, false, 0⟩
def Mailbox.empty : Mailbox := ⟨0, 0, 0, 0, [], [], [], []⟩
def ChanState.empty : ChanState := ⟨0, [], [], 0, Queue.empty, 0⟩
def VCount.empty : VCount := ⟨0, 0#64, 0#32⟩
def Port.empty : Port :=
  ⟨2, 0, 1, 0#8, 0#8, 0#8, false, 0, false, false, 0#8, false, none, 0#96, false, [], 0#64, 0, none, 0#8,
   0, [], [], [], 0, none, [], [], 0, 7, [], 7, [], 0, false, [], [], [], [], false, 0, 0, 0, 0, 0, 0, 0#64, none⟩
def Job.empty : Job :=
  ⟨false, 0, 0#384, 0#384, 12, 0#32, 0, 1000, 1000, 0#256, [], [], [], [], [], false, false, 0, 0, 0#64, 0#64,
   0, 0, 0, 0, 0⟩
def Mesh.empty : Mesh :=
  ⟨none, false, 0, 0, none, false, false, 0, false, [], [], none, 1, false, [], [], [], [], [], 0, [], []⟩
def Gate.empty : Gate := ⟨[], [], [], [], false, false, false, 0, [], [], []⟩
def Hbm.empty : Hbm := ⟨[], [], [], [], [], [], 24, 6, 0#64, 0#64, none, none, [], [], [], [], 0#64, false⟩

/-- The firmware image that the model takes to stand in slot A as shipped (log entry 7, DESIGN CHOICE). -/
def factoryImage : FwImage := ⟨0, 0, 0#384, true, false, 0, 0#96, 0#384, none⟩

/-- The flash as shipped: slot A holds the factory image, nothing has been recorded (log entries 7 and 8). -/
def Flash.factory : Flash :=
  ⟨[(0, factoryImage)], 0, none, none, 0, [], [], [], [], [], [], [], [], [], [], [], false, none, 0, false, 0, 0, 0,
   0#16, none, [], [], 0, [], true⟩

/-- The hub OTP as made: generation 0 of settings 0x02 to 0x06 at the values of R400 with its tail (R401), no owner key
hash; and generation 0 of each fuse map, which the model takes to hold no repair (R402, log entry 7). -/
def Otp.factory : Otp :=
  ⟨[(2, [⟨0, 0x1558F#32⟩]), (3, [⟨0, 0x1FFDE#32⟩]), (4, [⟨0, 0x1980A#32⟩]), (5, [⟨5000, 0x17093#32⟩]), (6, [⟨0, 0x1DC89#32⟩])],
   (List.range 8).map (fun f => (f, [⟨[], [], true⟩]))⟩

/-- The module right after the auxiliary rail is first applied to a module as shipped (R321 first row, R384): LODGE,
local time 0, the pins at the levels of their pull resistors (R475), OTP as made (R400), no session,
no region, no event. Values that the spec does not give are named in log entries 7 and 8. -/
def State.reset : State where
  pending := []
  pins := ⟨true, false, true, false, true, true⟩
  ctl := ⟨.lodge, 0#64, false, 0#64, false, none, [], false, 0, 0, 0, none, false, false, 0x01#8⟩
  pwr := ⟨1500, 1500, 0, 0, 0, 1, false, false, 2100, 0, 0, 0, [], 0, 0#64, []⟩
  otp := Otp.factory
  flash := Flash.factory
  gateh := Gate.empty
  mbx := ⟨[], []⟩
  evt := ⟨[], 0, []⟩
  job := Job.empty
  chans := []
  plots := []
  flds := []
  grid := []
  bridges := []
  hbm := Hbm.empty
  links := []
  mesh := Mesh.empty
  test := ⟨false, false, [], 0, false, 0#64, [], 0#64⟩
  health := []
  free := 0

end Sys2Proof.Machine
end

