-- ==== Sys2Proof/Machine/Ops.lean ====
section
/-! DEFINITION. The named operations over tables, memory and bytes, the two checks of the spec (CRC-32 and CRC-16), the
accessors of every part of the state, and the two shared records that most commands write: events (R343 to R347) and
silent violations (R382, R383). -/

namespace Sys2Proof

/-! ## Tables -/

/-- What a table holds at `k`, or `d`. -/
def Tab.get {α : Type} (t : Tab α) (k : Nat) (d : α) : α :=
  match t with
  | [] => d
  | (j, v) :: r => if j = k then v else Tab.get r k d

/-- What a table holds at `k`, if it lists `k`. -/
def Tab.find {α : Type} (t : Tab α) (k : Nat) : Option α :=
  match t with
  | [] => none
  | (j, v) :: r => if j = k then some v else Tab.find r k

/-- The table with `v` at `k`. -/
def Tab.set {α : Type} (t : Tab α) (k : Nat) (v : α) : Tab α :=
  match t with
  | [] => [(k, v)]
  | (j, w) :: r => if k < j then (k, v) :: (j, w) :: r else if j = k then (k, v) :: r else (j, w) :: Tab.set r k v

/-- The table without `k`. -/
def Tab.erase {α : Type} (t : Tab α) (k : Nat) : Tab α :=
  match t with
  | [] => []
  | (j, w) :: r => if j = k then r else (j, w) :: Tab.erase r k

/-- The table with entry `k` (or `d`) changed by `f`. -/
def Tab.upd {α : Type} (t : Tab α) (k : Nat) (d : α) (f : α → α) : Tab α :=
  Tab.set t k (f (Tab.get t k d))

/-- Every listed value changed by `f`. -/
def Tab.mapVals {α : Type} (t : Tab α) (f : Nat → α → α) : Tab α :=
  match t with
  | [] => []
  | (k, v) :: r => (k, f k v) :: Tab.mapVals r f

/-- The lowest number from `lo`, at most `n` further, that the table does not list. -/
def Tab.lowestFree {α : Type} (t : Tab α) (lo n : Nat) : Option Nat :=
  match n with
  | 0 => none
  | n + 1 => match Tab.find t lo with
    | none => some lo
    | some _ => Tab.lowestFree t (lo + 1) n

/-- `n` numbers from `a`. -/
def rangeFrom (a n : Nat) : List Nat :=
  match n with
  | 0 => []
  | n + 1 => a :: rangeFrom (a + 1) n

/-! ## Byte memory -/

/-- The byte at `a`; an unlisted address reads as zero. -/
def Mem.get (m : Mem) (a : Nat) : Byte :=
  match m with
  | [] => 0#8
  | (j, v) :: r => if j = a then v else Mem.get r a

/-- The memory with byte `b` at `a`, in canonical form: a zero byte is unlisted. -/
def Mem.set (m : Mem) (a : Nat) (b : Byte) : Mem :=
  match m with
  | [] => if b = 0#8 then [] else [(a, b)]
  | (j, v) :: r =>
    if a < j then (if b = 0#8 then (j, v) :: r else (a, b) :: (j, v) :: r)
    else if j = a then (if b = 0#8 then r else (a, b) :: r)
    else (j, v) :: Mem.set r a b

/-- `n` bytes from `a`. -/
def Mem.read (m : Mem) (a n : Nat) : List Byte :=
  match n with
  | 0 => []
  | n + 1 => Mem.get m a :: Mem.read m (a + 1) n

/-- The memory with `bs` stored from `a`. -/
def Mem.write (m : Mem) (a : Nat) (bs : List Byte) : Mem :=
  match bs with
  | [] => m
  | b :: r => Mem.write (Mem.set m a b) (a + 1) r

/-- The memory with addresses `a` to `a + n - 1` zero. -/
def Mem.clear (m : Mem) (a n : Nat) : Mem :=
  match m with
  | [] => []
  | (j, v) :: r => if a ≤ j ∧ j < a + n then Mem.clear r a n else (j, v) :: Mem.clear r a n

/-- The listed bytes of `a` to `a + n - 1`, renumbered from zero. -/
def Mem.slice (m : Mem) (a n : Nat) : Mem :=
  match m with
  | [] => []
  | (j, v) :: r => if a ≤ j ∧ j < a + n then (j - a, v) :: Mem.slice r a n else Mem.slice r a n

/-- Every listed address is above `lo` and no listed byte is zero. -/
def Mem.wfFrom (lo : Option Nat) (m : Mem) : Bool :=
  match m with
  | [] => true
  | (j, v) :: r => (match lo with | none => true | some l => decide (l < j)) && decide (v ≠ 0#8) && Mem.wfFrom (some j) r

/-- The canonical form: addresses strictly rising, no zero byte listed. -/
def Mem.wf (m : Mem) : Bool := Mem.wfFrom none m

/-! ## Bytes and fields (R9: little-endian) -/

/-- The low `n` bytes of a number, least significant first. -/
def le (n v : Nat) : List Byte :=
  match n with
  | 0 => []
  | n + 1 => BitVec.ofNat 8 v :: le n (v / 256)

/-- The number that bytes spell, least significant first. -/
def leNat (bs : List Byte) : Nat :=
  match bs with
  | [] => 0
  | b :: r => b.toNat + 256 * leNat r

/-- Fields one after the other, each (bytes, value). -/
def lay (fs : List (Nat × Nat)) : List Byte :=
  match fs with
  | [] => []
  | (n, v) :: r => le n v ++ lay r

/-- Bit fields from bit 0 up, each (bits, value). -/
def pack (fs : List (Nat × Nat)) : Nat :=
  match fs with
  | [] => 0
  | (n, v) :: r => v % 2 ^ n + 2 ^ n * pack r

/-- Bits [lo + n - 1 : lo] of a number. -/
def bits (v lo n : Nat) : Nat := v / 2 ^ lo % 2 ^ n

/-- One bit of a number. -/
def bit (v i : Nat) : Bool := v / 2 ^ i % 2 = 1

/-- A flag as a bit. -/
def flag (b : Bool) : Nat := if b then 1 else 0

/-- A signed value in `n` bits, as the number its bits spell. -/
def toBits (n : Nat) (v : Int) : Nat := (v % (2 ^ n : Nat)).toNat

/-- The signed value of `n` bits. -/
def ofBits (n v : Nat) : Int := if v % 2 ^ n < 2 ^ (n - 1) then (v % 2 ^ n : Nat) else (v % 2 ^ n : Nat) - (2 ^ n : Nat)

/-- `n` bytes of a byte list from `a`, zero where it ends. -/
def bytesAt (bs : List Byte) (a n : Nat) : List Byte :=
  let r := (bs.drop a).take n
  r ++ List.replicate (n - r.length) 0#8

/-- The little-endian number in `n` bytes from `a`. -/
def numAt (bs : List Byte) (a n : Nat) : Nat := leNat ((bs.drop a).take n)

/-- One step of the reflected CRC-32. -/
def crc32Bit (c : Nat) : Nat := if c % 2 = 1 then (c / 2) ^^^ 0xEDB88320 else c / 2

def crc32Byte (c : Nat) (b : Byte) : Nat :=
  crc32Bit (crc32Bit (crc32Bit (crc32Bit (crc32Bit (crc32Bit (crc32Bit (crc32Bit (c ^^^ b.toNat))))))))

/-- CRC-32 of IEEE 802.3 (R159). -/
def crc32 (bs : List Byte) : U32 := BitVec.ofNat 32 (bs.foldl crc32Byte 0xFFFFFFFF ^^^ 0xFFFFFFFF)

def crc16Bit (c : Nat) : Nat := if 0x8000 ≤ c then (c * 2 % 0x10000) ^^^ 0x1021 else c * 2

def crc16Byte (c : Nat) (b : Byte) : Nat :=
  crc16Bit (crc16Bit (crc16Bit (crc16Bit (crc16Bit (crc16Bit (crc16Bit (crc16Bit (c ^^^ (b.toNat * 256)))))))))

/-- CRC-16 with polynomial 0x1021 and initial value 0xFFFF (R250). -/
def crc16 (bs : List Byte) : U16 := BitVec.ofNat 16 (bs.foldl crc16Byte 0xFFFF)

/-- Bit `i` of every number of a list, as a mask. -/
def maskOf (l : List Nat) : Nat :=
  match l with
  | [] => 0
  | i :: r => 2 ^ i ||| maskOf r

/-- The numbers below `n` whose bit is set. -/
def bitsOf (m n : Nat) : List Nat := (List.range n).filter (fun i => bit m i)

/-- Counters that saturate at `2^n - 1`. -/
def satInc (n v : Nat) : Nat := if v + 1 < 2 ^ n then v + 1 else 2 ^ n - 1

/-- A sum that saturates at `2^n - 1`. -/
def satAdd (n a b : Nat) : Nat := if a + b < 2 ^ n then a + b else 2 ^ n - 1

/-- The last `n` elements. -/
def lastN {α : Type} (n : Nat) (l : List α) : List α := l.drop (l.length - n)

/-- The element at `i`, or `d`. -/
def nth {α : Type} (l : List α) (i : Nat) (d : α) : α := l.getD i d

end Sys2Proof

namespace Sys2Proof.Machine

open Sys2Proof

/-! ## Parts of the state -/

def mapPins (f : Pins → Pins) (s : State) : State := { s with pins := f s.pins }
def mapCtl (f : Ctl → Ctl) (s : State) : State := { s with ctl := f s.ctl }
def mapPwr (f : Power → Power) (s : State) : State := { s with pwr := f s.pwr }
def mapOtp (f : Otp → Otp) (s : State) : State := { s with otp := f s.otp }
def mapFlash (f : Flash → Flash) (s : State) : State := { s with flash := f s.flash }
def mapGate (f : Gate → Gate) (s : State) : State := { s with gateh := f s.gateh }
def mapMbx (f : Mbx → Mbx) (s : State) : State := { s with mbx := f s.mbx }
def mapEvt (f : Events → Events) (s : State) : State := { s with evt := f s.evt }
def mapJob (f : Job → Job) (s : State) : State := { s with job := f s.job }
def mapChans (f : Tab ChanState → Tab ChanState) (s : State) : State := { s with chans := f s.chans }
def mapPlots (f : Tab Plot → Tab Plot) (s : State) : State := { s with plots := f s.plots }
def mapFlds (f : Tab Field → Tab Field) (s : State) : State := { s with flds := f s.flds }
def mapGrid (f : Tab Trellis → Tab Trellis) (s : State) : State := { s with grid := f s.grid }
def mapBridges (f : Tab Bool → Tab Bool) (s : State) : State := { s with bridges := f s.bridges }
def mapHbm (f : Hbm → Hbm) (s : State) : State := { s with hbm := f s.hbm }
def mapLinks (f : Tab Port → Tab Port) (s : State) : State := { s with links := f s.links }
def mapMesh (f : Mesh → Mesh) (s : State) : State := { s with mesh := f s.mesh }
def mapTest (f : Test → Test) (s : State) : State := { s with test := f s.test }
def mapHealth (f : List Warning → List Warning) (s : State) : State := { s with health := f s.health }

/-- One more free value drawn (log entry 4). -/
def drawFree (s : State) : State := { s with free := s.free + 1 }

def plotOf (s : State) (p : Nat) : Plot := Tab.get s.plots p Plot.empty
def setPlot (p : Nat) (v : Plot) : State → State := mapPlots (fun t => Tab.set t p v)
def updPlot (p : Nat) (f : Plot → Plot) (s : State) : State := setPlot p (f (plotOf s p)) s

def Plot.slice (pl : Plot) (i : Nat) : Slice := Tab.get pl.slices i Slice.empty
def Plot.setSlice (pl : Plot) (i : Nat) (v : Slice) : Plot := { pl with slices := Tab.set pl.slices i v }
def sliceOf (s : State) (p i : Nat) : Slice := (plotOf s p).slice i
def setSlice (p i : Nat) (v : Slice) (s : State) : State := updPlot p (fun pl => pl.setSlice i v) s
def updSlice (p i : Nat) (f : Slice → Slice) (s : State) : State :=
  updPlot p (fun pl => pl.setSlice i (f (pl.slice i))) s
def updArr (p : Nat) (f : Arr → Arr) (s : State) : State := updPlot p (fun pl => { pl with arr := f pl.arr }) s

def fieldOf (s : State) (f : Nat) : Field := Tab.get s.flds f Field.empty
def setField (f : Nat) (v : Field) : State → State := mapFlds (fun t => Tab.set t f v)
def updField (f : Nat) (g : Field → Field) (s : State) : State := setField f (g (fieldOf s f)) s

def trellisOf (s : State) (f : Nat) : Trellis := Tab.get s.grid f Trellis.empty
def updTrellis (f : Nat) (g : Trellis → Trellis) (s : State) : State := mapGrid (fun t => Tab.set t f (g (trellisOf s f))) s

def stackOf (s : State) (k : Nat) : Stack := Tab.get s.hbm.stks k Stack.empty
def updStack (k : Nat) (g : Stack → Stack) (s : State) : State :=
  mapHbm (fun h => { h with stks := Tab.set h.stks k (g (Tab.get h.stks k Stack.empty)) }) s

def portOf (s : State) (p : Nat) : Port := Tab.get s.links p Port.empty
def setPort (p : Nat) (v : Port) : State → State := mapLinks (fun t => Tab.set t p v)
def updPort (p : Nat) (g : Port → Port) (s : State) : State := setPort p (g (portOf s p)) s

def boxOf (s : State) (m : Nat) : Mailbox := Tab.get s.mbx.boxes m Mailbox.empty
def updBox (m : Nat) (g : Mailbox → Mailbox) (s : State) : State :=
  mapMbx (fun b => { b with boxes := Tab.set b.boxes m (g (Tab.get b.boxes m Mailbox.empty)) }) s

def chanOf (s : State) (c : Nat) : ChanState := Tab.get s.chans c ChanState.empty
def updChan (c : Nat) (g : ChanState → ChanState) (s : State) : State :=
  mapChans (fun t => Tab.set t c (g (Tab.get t c ChanState.empty))) s

/-- The field of a logical plot (R7: plot p = 64 f + i). -/
def fieldOfPlot (p : Nat) : Nat := p / 64

def clockOf (s : State) (f : Nat) : FieldClock := Tab.get s.pwr.clocks f FieldClock.reset
def updClock (f : Nat) (g : FieldClock → FieldClock) (s : State) : State :=
  mapPwr (fun w => { w with clocks := Tab.set w.clocks f (g (Tab.get w.clocks f FieldClock.reset)) }) s

/-- Ticks of the local time counter in a second (R299). -/
def ticksPerSecond : Nat := 25000000

/-- Is a moment within the last `n` seconds? -/
def within (now : U64) (n : Nat) (t : U64) : Bool := decide ((now - t).toNat ≤ n * ticksPerSecond)

/-- Fold a state change over a list, front first. -/
def forEach {α : Type} (l : List α) (f : α → State → State) (s : State) : State :=
  match l with
  | [] => s
  | a :: r => forEach r f (f a s)

/-- A state change made only under a condition. -/
def onlyIf (b : Bool) (f : State → State) (s : State) : State := if b then f s else s

/-! ## Module states (R320) -/

def ModState.code : ModState → Nat
  | .lodge => 0 | .boot => 1 | .train => 2 | .ready => 3 | .loaded => 4
  | .running => 5 | .draining => 6 | .testing => 7 | .sealed => 8

/-- ACTIVE of R323. -/
def active : List ModState := [.ready, .loaded, .running, .draining]
/-- SERVED of R323. -/
def served : List ModState := [.train, .ready, .loaded, .running, .draining, .testing]
/-- ALL of R323. -/
def allStates : List ModState :=
  [.lodge, .boot, .train, .ready, .loaded, .running, .draining, .testing, .sealed]

/-! ## Events (R343 to R347, R484) -/

/-- An event of the module as a whole; its time is set when it is recorded. `detail` lists (bits, value) from bit 0
(log entry 9). -/
def ev (code cls : Nat) (detail : List (Nat × Nat)) : EventRec :=
  ⟨0#64, 0, 0, 0, 0, 0, 0, 0, cls, 0, code, BitVec.ofNat 128 (pack detail), none⟩

def EventRec.atField (e : EventRec) (f : Nat) : EventRec := { e with srcKind := 1, field := f }
def EventRec.atPlot (e : EventRec) (p : Nat) : EventRec := { e with srcKind := 2, plot := p }
def EventRec.atSlice (e : EventRec) (p i : Nat) : EventRec := { e with srcKind := 3, plot := p, slice := i }
def EventRec.atPort (e : EventRec) (p : Nat) : EventRec := { e with srcKind := 4, port := p }
def EventRec.atLane (e : EventRec) (p l : Nat) : EventRec := { e with srcKind := 5, port := p, lane := l }
def EventRec.atStack (e : EventRec) (k : Nat) : EventRec := { e with srcKind := 6, stack := k }
def EventRec.atBridge (e : EventRec) (b : Nat) : EventRec := { e with srcKind := 7, port := b }
def EventRec.atHub (e : EventRec) : EventRec := { e with srcKind := 8 }

/-- Classes kept in the persistent summary (R347). -/
def keptClass (c : Nat) : Bool := c = 3 || c = 4 || c = 6

/-- One record into the ring of 4,096, the oldest leaving a full ring (R347). -/
def Events.push (v : Events) (e : EventRec) : Events :=
  { v with ring := lastN 4096 (v.ring ++ [(v.next, e)]), next := v.next + 1 }

/-- The text of an event leaves on UART_TX while the debug UART is enabled (R381, R480); else the line idles high. -/
def Events.print (v : Events) (uart : Bool) (e : EventRec) : Events := if uart then { v with console := v.console ++ [e] } else v

/-- One record into the persistent summary: the count of its code and the latest 1,024 (R347). -/
def Flash.keep (fl : Flash) (e : EventRec) : Flash :=
  { fl with
    sumCounts := if e.code = 0xFF then fl.sumCounts else Tab.upd fl.sumCounts e.code 0 (· + 1)
    sumKept := lastN 1024 (fl.sumKept ++ [(fl.sumNext, e)])
    sumNext := fl.sumNext + 1 }

/-- Events that concern a job: their source is one of its plots or slices, or their code is one that R346 names. -/
def ofJob (s : State) (e : EventRec) : Bool :=
  s.job.loaded && (((e.srcKind = 2 || e.srcKind = 3) && s.job.plots.contains e.plot) || e.code = 0x0102 || e.code = 0x010A || e.code = 0x0305)

/-- One record written at the local time; an event of the loaded job keeps its principal (R346). -/
def recordOne (e : EventRec) (s : State) : State :=
  let e := { e with time := s.ctl.localTime, who := if ofJob s e then some s.job.principal else e.who }
  let s := mapEvt (fun v => (v.push e).print s.gateh.uart e) s
  if keptClass e.cls then mapFlash (fun fl => fl.keep e) s else s

/-- An event without continuation records. -/
def record (e : EventRec) (s : State) : State := recordOne { e with cont := 0 } s

/-- An event with up to three continuation records, given by their details (R343). -/
def recordLong (e : EventRec) (more : List (List (Nat × Nat))) (s : State) : State :=
  forEach (more.take 3)
    (fun d => recordOne { e with cont := 0, code := 0xFF, detail := BitVec.ofNat 128 (pack d) })
    (recordOne { e with cont := (more.take 3).length } s)

/-- A change of module state, with its STATE_CHANGE record: old state, new state, cause (R321, R345). -/
def setMode (m : ModState) (cause : Nat) (s : State) : State :=
  mapCtl (fun c => { c with mode := m })
    (record (ev 0x0001 0 [(8, s.ctl.mode.code), (8, m.code), (16, cause)]) s)

/-! ## Silent violations (R382, R383) -/

/-- `LAST_SOURCE` of an accessor of this module: a slice, or an engine acting for it (kind 0). -/
def sourceSlice (s : State) (p i : Nat) : U32 :=
  BitVec.ofNat 32 (pack [(16, (s.mesh.addr.getD 0#16).toNat), (9, p), (4, i), (2, 0), (1, flag s.mesh.addr.isSome)])

/-- `LAST_SOURCE` of another module (kind 1). -/
def sourceModule (src : U16) : U32 := BitVec.ofNat 32 (pack [(16, src.toNat), (9, 0x1FF), (4, 0), (2, 1), (1, 1)])

/-- `LAST_SOURCE` of the host (kind 2). -/
def sourceHost (s : State) : U32 :=
  BitVec.ofNat 32 (pack [(16, (s.mesh.addr.getD 0#16).toNat), (9, 0x1FF), (4, 0), (2, 2), (1, flag s.mesh.addr.isSome)])

/-- One more violation from `src` in a counter of 64 bits. -/
def VCount.bump (v : VCount) (now : U64) (src : U32) : VCount := ⟨satInc 64 v.count, now, src⟩

/-- Where a violation is counted besides the module scope. -/
inductive VScope where
  | none
  | region (r : Nat)
  | window (w : Nat)
  deriving DecidableEq, Repr

/-- A silent violation: counted once in the module scope under its cause, and once in the scope it touched. -/
def violation (cause : Nat) (scope : VScope) (src : U32) (s : State) : State :=
  mapGate (fun g =>
    let b := fun (t : Tab VCount) k => Tab.upd t k VCount.empty (fun v => v.bump s.ctl.localTime src)
    let g := { g with vModule := b g.vModule cause }
    match scope with
    | .none => g
    | .region r => { g with vRegion := b g.vRegion r }
    | .window w => { g with vWindow := b g.vWindow w }) s

/-- One period of the local time counter, which counts 40 ns periods from the auxiliary rail on and wraps (R299). -/
def idle (s : State) : State :=
  if s.pins.auxOn then mapCtl (fun c => { c with localTime := c.localTime + 1#64 }) s else s

end Sys2Proof.Machine
end

