-- ==== Sys2Proof/Machine/Numbers.lean ====
section
/-! DEFINITION. Number formats and arithmetic (R27 to R32, R35 to R38, R42 to R45, R50 to R53): values are exact dyadic numbers, and
every rounding is explicit. -/

namespace Sys2Proof

/-- A floating-point value: (−1)^neg × m × 2^e exactly, an infinity, or NaN. -/
inductive Num where
  | fin (neg : Bool) (m : Nat) (e : Int)
  | inf (neg : Bool)
  | nan
  deriving DecidableEq, Repr

/-- A float format (R28): exponent bits, mantissa bits, bias, and its specials: 0 infinity and NaN as in IEEE 754, 1 NaN at all ones only
(FP8 E4M3), 2 none. -/
structure Fmt where
  ebits : Nat
  mbits : Nat
  bias : Nat
  kind : Nat
  deriving DecidableEq, Repr

def fmt32 : Fmt := ⟨8, 23, 127, 0⟩
def fmt64 : Fmt := ⟨11, 52, 1023, 0⟩
def fmtE4M3 : Fmt := ⟨4, 3, 7, 1⟩
def fmtE5M2 : Fmt := ⟨5, 2, 15, 0⟩
def fmtE2M3 : Fmt := ⟨2, 3, 1, 2⟩
def fmtE3M2 : Fmt := ⟨3, 2, 3, 2⟩
def fmtE2M1 : Fmt := ⟨2, 1, 1, 2⟩
def fmtBf16 : Fmt := ⟨8, 7, 127, 0⟩
def fmtFp16 : Fmt := ⟨5, 10, 15, 0⟩

/-- The float format of an operand code (R27); MX codes have the element format of their class. -/
def floatFmt (code : Nat) : Option Fmt :=
  match code with
  | 0 => some fmtE4M3 | 1 => some fmtE5M2 | 2 => some fmtE2M3 | 3 => some fmtE3M2 | 4 => some fmtE2M1
  | 5 => some fmtE4M3 | 6 => some fmtE5M2 | 7 => some fmtE2M3 | 8 => some fmtE3M2 | 9 => some fmtE2M1
  | 12 => some fmtBf16 | 13 => some fmtFp16 | 14 => some fmt32
  | _ => none

/-- Bits of an element (R27). -/
def elemBits (code : Nat) : Nat :=
  match code with
  | 2 => 6 | 3 => 6 | 7 => 6 | 8 => 6
  | 4 => 4 | 9 => 4 | 11 => 4
  | 12 => 16 | 13 => 16
  | 14 => 32
  | _ => 8

/-- MX codes (R27). -/
def isMx (code : Nat) : Bool := decide (5 ≤ code) && decide (code ≤ 9)
/-- Integer codes (R27). -/
def isInt (code : Nat) : Bool := code = 10 || code = 11

/-- The value of an element (R28, R29). -/
def Fmt.decode (f : Fmt) (v : Nat) : Num :=
  let neg := bit v (f.ebits + f.mbits)
  let ex := bits v f.mbits f.ebits
  let fr := bits v 0 f.mbits
  if f.kind = 0 && ex = 2 ^ f.ebits - 1 then (if fr = 0 then .inf neg else .nan)
  else if f.kind = 1 && ex = 2 ^ f.ebits - 1 && fr = 2 ^ f.mbits - 1 then .nan
  else if ex = 0 then .fin neg fr (1 - (f.bias : Int) - (f.mbits : Int))
  else .fin neg (2 ^ f.mbits + fr) ((ex : Int) - (f.bias : Int) - (f.mbits : Int))

/-- Exponent of the least bit of a subnormal. -/
def Fmt.qmin (f : Fmt) : Int := 1 - (f.bias : Int) - (f.mbits : Int)

/-- Weight exponent of the leading bit of a magnitude. -/
def leadExp (m : Nat) (e : Int) : Int := e + (Nat.log2 m : Int)

/-- `m` divided by 2^d, rounded to nearest with ties to even, or toward zero. -/
def shiftRound (rz : Bool) (m d : Nat) : Nat :=
  let k := m / 2 ^ d
  let r := m % 2 ^ d
  if rz || d = 0 then k
  else if 2 ^ (d - 1) < r || (r = 2 ^ (d - 1) && k % 2 = 1) then k + 1 else k

/-- A magnitude rounded to the precision of a format with an unbounded exponent range above (R43): the significand and its weight. -/
def Fmt.roundMag (f : Fmt) (rz : Bool) (m : Nat) (e : Int) : Nat × Int :=
  if m = 0 then (0, f.qmin)
  else
    let q := max (leadExp m e - (f.mbits : Int)) f.qmin
    if q ≤ e then (m * 2 ^ (e - q).toNat, q) else (shiftRound rz m (q - e).toNat, q)

/-- The encoding, without sign, of a rounded magnitude; it passes the largest finite encoding when the value is too large. -/
def Fmt.magBits (f : Fmt) (rz : Bool) (m : Nat) (e : Int) : Nat :=
  let k := f.roundMag rz m e
  (k.2 - f.qmin).toNat * 2 ^ f.mbits + k.1

/-- Encoding of the largest finite value. -/
def Fmt.maxBits (f : Fmt) : Nat :=
  match f.kind with
  | 0 => (2 ^ f.ebits - 1) * 2 ^ f.mbits - 1
  | 1 => 2 ^ (f.ebits + f.mbits) - 2
  | _ => 2 ^ (f.ebits + f.mbits) - 1

/-- The sign bit of a format. -/
def Fmt.signBit (f : Fmt) (neg : Bool) : Nat := if neg then 2 ^ (f.ebits + f.mbits) else 0

/-- Encoding of infinity without sign. -/
def Fmt.infBits (f : Fmt) : Nat := (2 ^ f.ebits - 1) * 2 ^ f.mbits

/-- Encoding of NaN (R43): 0x7FC0_0000, 0x7FC0, 0x7E00, and 0x7F for both 8-bit formats. -/
def Fmt.nanBits (f : Fmt) : Nat :=
  if f.kind = 0 && f.mbits ≠ 2 then f.infBits + 2 ^ (f.mbits - 1) else 2 ^ (f.ebits + f.mbits) - 1

/-- A value converted to a format (R43, R51): rounding, saturation bit, and the overflow, infinity and NaN results of the drain table. -/
def Fmt.convert (f : Fmt) (rz sat : Bool) (x : Num) : Nat :=
  match x with
  | .nan => if f.kind = 2 then 0 else f.nanBits
  | .inf neg =>
    if f.kind = 2 then f.signBit neg + f.maxBits
    else if f.kind = 1 then (if sat then f.signBit neg + f.maxBits else f.nanBits)
    else if f.mbits = 2 && sat then f.signBit neg + f.maxBits
    else f.signBit neg + f.infBits
  | .fin neg m e =>
    let b := f.magBits rz m e
    if b ≤ f.maxBits then f.signBit neg + b
    else if f.kind = 2 || (sat && decide (f.ebits + f.mbits ≠ 31)) then f.signBit neg + f.maxBits
    else if f.kind = 1 then f.nanBits
    else f.signBit neg + f.infBits

/-- A value rounded to a format and read back; too large gives infinity. The flag says that a finite value became infinite. -/
def Fmt.roundNum (f : Fmt) (x : Num) : Num × Bool :=
  match x with
  | .fin neg m e =>
    let k := f.roundMag false m e
    if (k.2 - f.qmin).toNat * 2 ^ f.mbits + k.1 ≤ f.maxBits then (.fin neg k.1 k.2, false) else (.inf neg, true)
  | x => (x, false)

/-! ## Exact operations -/

def Num.isNan (x : Num) : Bool := match x with | .nan => true | _ => false
def Num.isFin (x : Num) : Bool := match x with | .fin _ _ _ => true | _ => false
def Num.neg (x : Num) : Num := match x with | .fin n m e => .fin (!n) m e | .inf n => .inf (!n) | .nan => .nan
def Num.abs (x : Num) : Num := match x with | .fin _ m e => .fin false m e | .inf _ => .inf false | .nan => .nan
def Num.isZero (x : Num) : Bool := match x with | .fin _ m _ => m = 0 | _ => false
def Num.zero : Num := .fin false 0 0

/-- The signed significand at weight `q`, which is no higher than the value's own. -/
def signedAt (neg : Bool) (m : Nat) (e q : Int) : Int :=
  let v : Int := (m * 2 ^ (e - q).toNat : Nat)
  if neg then -v else v

/-- An exact sum (R50): a zero sum is +0 unless both terms are negative. -/
def Num.add (x y : Num) : Num :=
  match x, y with
  | .fin n1 m1 e1, .fin n2 m2 e2 =>
    let q := min e1 e2
    let v := signedAt n1 m1 e1 q + signedAt n2 m2 e2 q
    if v = 0 then .fin (n1 && n2) 0 0 else .fin (decide (v < 0)) v.natAbs q
  | .nan, _ => .nan
  | _, .nan => .nan
  | .inf a, .inf b => if a = b then .inf a else .nan
  | .inf a, _ => .inf a
  | _, .inf b => .inf b

/-- An exact product (R42): zero times infinity is NaN. -/
def Num.mul (x y : Num) : Num :=
  match x, y with
  | .fin n1 m1 e1, .fin n2 m2 e2 => .fin (n1 != n2) (m1 * m2) (e1 + e2)
  | .nan, _ => .nan
  | _, .nan => .nan
  | .inf a, .inf b => .inf (a != b)
  | .inf a, .fin b m _ => if m = 0 then .nan else .inf (a != b)
  | .fin b m _, .inf a => if m = 0 then .nan else .inf (a != b)

/-- Times 2^k exactly. -/
def Num.scale (x : Num) (k : Int) : Num := match x with | .fin n m e => .fin n m (e + k) | x => x

/-- Order of two values that are not NaN: is `x` below `y`? -/
def Num.lt (x y : Num) : Bool :=
  match x, y with
  | .nan, _ => false
  | _, .nan => false
  | .inf a, .inf b => a && !b
  | .inf a, _ => a
  | _, .inf b => !b
  | .fin n1 m1 e1, .fin n2 m2 e2 => decide (signedAt n1 m1 e1 (min e1 e2) < signedAt n2 m2 e2 (min e1 e2))

def Num.eq (x y : Num) : Bool := !x.isNan && !y.isNan && !x.lt y && !y.lt x

/-! ## FP32 (R50) -/

def f32 (v : U32) : Num := fmt32.decode v.toNat
def toF32 (x : Num) : U32 := BitVec.ofNat 32 (fmt32.convert false false x)
def canonNan : U32 := 0x7FC00000#32

def fadd (a b : U32) : U32 := toF32 ((f32 a).add (f32 b))
def fsub (a b : U32) : U32 := toF32 ((f32 a).add (f32 b).neg)
def fmul (a b : U32) : U32 := toF32 ((f32 a).mul (f32 b))
/-- a × b + c, rounded once. -/
def ffma (a b c : U32) : U32 := toF32 (((f32 a).mul (f32 b)).add (f32 c))
def fabs (a : U32) : U32 := if (f32 a).isNan then canonNan else a &&& 0x7FFFFFFF#32
def fneg (a : U32) : U32 := if (f32 a).isNan then canonNan else a ^^^ 0x80000000#32

/-- A minimum or maximum (R50): the non-NaN operand when one is NaN. Of two zeros of opposite sign, which one is open (log entry 29). -/
def fpick (wantMax : Bool) (a b : U32) : U32 :=
  if (f32 a).isNan && (f32 b).isNan then canonNan
  else if (f32 a).isNan then b
  else if (f32 b).isNan then a
  else if (f32 a).lt (f32 b) then (if wantMax then b else a)
  else if (f32 b).lt (f32 a) then (if wantMax then a else b)
  else if a = b then a
  else if Config.zeroPick a b then a else b

def fmin : U32 → U32 → U32 := fpick false
def fmax : U32 → U32 → U32 := fpick true

/-- A lane that is true (R113, R128). -/
def truth (b : Bool) : U32 := if b then 0xFFFFFFFF#32 else 0#32

/-! ## Conversions (R51) -/

/-- The integer nearest to a finite value, or that toward zero. -/
def roundInt (rz : Bool) (neg : Bool) (m : Nat) (e : Int) : Int :=
  let v : Int := if 0 ≤ e then (m * 2 ^ e.toNat : Nat) else (shiftRound rz m (-e).toNat : Nat)
  if neg then -v else v

/-- FP32 to a two's complement integer of `n` bits: saturates, 0 for NaN. -/
def cvtInt (n : Nat) (rz : Bool) (x : Num) : Int :=
  let lo : Int := -(2 ^ (n - 1) : Nat)
  let hi : Int := (2 ^ (n - 1) : Nat) - 1
  match x with
  | .nan => 0
  | .inf neg => if neg then lo else hi
  | .fin neg m e => max lo (min hi (roundInt rz neg m e))

/-- The integer that an exact value is. -/
def Num.toInt (x : Num) : Int := match x with | .fin n m e => signedAt n m e 0 | _ => 0

def ofInt (v : Int) : Num := .fin (decide (v < 0)) v.natAbs 0

/-- The formats of CVT_DN and CVT_UP (R128). -/
def cvtCode (code : Nat) : Bool := decide (code ≤ 4) || code = 10 || code = 12 || code = 13

/-- One lane to a narrower format. -/
def cvtDnLane (code : Nat) (rz sat : Bool) (x : U32) : Nat :=
  match floatFmt code with
  | some f => f.convert rz sat (f32 x)
  | none => toBits 8 (cvtInt 8 rz (f32 x))

/-- One element to FP32, exactly. -/
def cvtUpLane (code v : Nat) : U32 :=
  match floatFmt code with
  | some f => toF32 (f.decode v)
  | none => toF32 (ofInt (ofBits 8 v))

/-- Elements of `n` bits packed from bit 0 of the first byte on, which is the packing of R30 for 4, 6, 8, 16 and 32 bits. -/
def packElems (n : Nat) (l : List Nat) : Nat := pack (l.map (fun v => (n, v)))

/-- `count` elements of `n` bits, from element `first` on. -/
def unpackElems (n first count v : Nat) : List Nat := (List.range count).map (fun i => bits v ((first + i) * n) n)

/-! ## Tokens as numbers (R113) -/

/-- 16 lanes as one 512-bit number, lane 0 lowest. -/
def lanesNat (l : List U32) : Nat := pack (l.map (fun v => (32, v.toNat)))
def natLanes (v : Nat) : List U32 := (List.range 16).map (fun i => BitVec.ofNat 32 (bits v (32 * i) 32))
def lanesBytes (l : List U32) : List Byte := le 64 (lanesNat l)
def bytesLanes (bs : List Byte) : List U32 := natLanes (leNat bs)

/-! ## Reduction (R131) -/

/-- A pairwise tree over lanes: adjacent pairs first. -/
def pairs (f : U32 → U32 → U32) (l : List U32) : List U32 :=
  match l with
  | a :: b :: r => f a b :: pairs f r
  | r => r

/-- The sum of 16 lanes as a tree. -/
def treeSum (l : List U32) : U32 := (pairs fadd (pairs fadd (pairs fadd (pairs fadd l)))).headD 0#32

/-- A fold of the lanes from the first on. -/
def foldLanes (f : U32 → U32 → U32) (l : List U32) : U32 :=
  match l with
  | [] => 0#32
  | a :: r => r.foldl f a

/-- Does candidate `a` (value, index) come before `b` in TOPK: larger value first, NaN lowest, then the smaller index (R131)? -/
def topBefore (a b : U32 × U32) : Bool :=
  let x := f32 a.1
  let y := f32 b.1
  if x.isNan && y.isNan then decide (a.2.toInt < b.2.toInt)
  else if x.isNan then false
  else if y.isNan then true
  else if y.lt x then true
  else if x.lt y then false
  else decide (a.2.toInt < b.2.toInt)

/-- A candidate placed in its order, after equals. -/
def topInsert (c : U32 × U32) (l : List (U32 × U32)) : List (U32 × U32) :=
  match l with
  | [] => [c]
  | d :: r => if topBefore c d then c :: d :: r else d :: topInsert c r

/-- The best `k` of a list of candidates joined with new ones. -/
def topKeep (k : Nat) (l new : List (U32 × U32)) : List (U32 × U32) := (new.foldl (fun l c => topInsert c l) l).take k

end Sys2Proof
end

