-- ==== Sys2Proof/Machine/Matrix.lean ====
section
/-! DEFINITION. What one tile issue computes (R25, R26, R30 to R49): operands from bytes, runs, accumulation, checksum lanes, drain. -/

namespace Sys2Proof.Machine

open Sys2Proof

/-! ## Shapes and rates (R31, R34) -/

/-- Scale-block size (R31). -/
def blockSize (bs : Nat) : Nat := match bs with | 0 => 32 | 1 => 16 | _ => 64

/-- Operand classes of R34: 0 FP8 or mixed, 1 both 6 or 4 bits, 2 INT8 or mixed, 3 INT4, 4 16-bit, 5 FP32. -/
def pairClass (a b : Nat) : Nat :=
  if a = 14 then 5
  else if a = 12 || a = 13 then 4
  else if isInt a then (if a = 11 && b = 11 then 3 else 2)
  else if elemBits a = 8 || elemBits b = 8 then 0 else 1

/-- The dense Kc of a class (R34): the span of a run (R35). -/
def spanOf (c : Nat) : Nat := match c with | 0 => 32 | 1 => 64 | 2 => 32 | 3 => 64 | 4 => 16 | _ => 4
def kLimit (c : Nat) : Nat := match c with | 4 => 512 | 5 => 256 | _ => 1024
/-- W of R35. -/
def alignBits (c : Nat) : Nat := match c with | 4 => 40 | 5 => 56 | _ => 32

/-- Rounded up to the 32-byte boundary where the next array starts (R30). -/
def pad32 (n : Nat) : Nat := (n + 31) / 32 * 32

/-- Bytes of `n` elements of a code. -/
def elemBytes (code n : Nat) : Nat := n * elemBits code / 8

/-- Element bytes, scale bytes and metadata bytes of an operand of `rows` rows (columns of B) along K (R30). -/
def operandParts (code bs rows k : Nat) (sparse : Bool) : Nat × Nat × Nat :=
  (elemBytes code (rows * (if sparse then k / 2 else k)), if isMx code then rows * (k / blockSize bs) else 0, if sparse then rows * (k / 8) else 0)

/-- Offsets of the scale and metadata arrays, and the bytes of the whole tile (R30). -/
def operandLayout (code bs rows k : Nat) (sparse : Bool) : Nat × Nat × Nat :=
  let p := operandParts code bs rows k sparse
  let sc := pad32 p.1
  let md := if p.2.1 = 0 then sc else pad32 (sc + p.2.1)
  (sc, md, if 0 < p.2.2 then md + p.2.2 else if 0 < p.2.1 then sc + p.2.1 else p.1)

/-- Bytes of an element of C or D by drain code (R43). -/
def drainBytes (code : Nat) : Nat := match code with | 0 => 4 | 1 => 2 | 2 => 2 | 5 => 4 | 7 => 8 | _ => 1

/-! ## Elements -/

/-- A list cut into pieces of `n`, `c` of them. -/
def cutRows {α : Type} (n : Nat) (l : List α) (c : Nat) : List (List α) :=
  match c with
  | 0 => []
  | c + 1 => l.take n :: cutRows n (l.drop n) c

/-- Codes of the elements in a byte array (R30). -/
def elemCodes (code : Nat) (bs : List Byte) : List Nat :=
  match elemBits code with
  | 4 => bs.flatMap (fun b => [b.toNat % 16, b.toNat / 16])
  | 6 => (cutRows 3 bs (bs.length / 3)).flatMap (fun g => unpackElems 6 0 4 (leNat g))
  | 16 => (cutRows 2 bs (bs.length / 2)).map leNat
  | 32 => (cutRows 4 bs (bs.length / 4)).map leNat
  | _ => bs.map (·.toNat)

/-- The value of an element; a negative zero is used as zero (R29). -/
def elemValue (code v : Nat) : Num :=
  match floatFmt code with
  | some f => match f.decode v with
    | .fin n m e => if m = 0 then Num.zero else .fin n m e
    | x => x
  | none => ofInt (ofBits (elemBits code) v)

/-- The four positions of a sparse group from its two stored elements and its nibble (R44); none for a nibble that R45 refuses. -/
def sparseGroup (nib : Nat) (a b : Num) : Option (List Num) :=
  let i := nib % 4
  let j := nib / 4 % 4
  if i < j then some ((List.range 4).map (fun p => if p = i then a else if p = j then b else Num.zero)) else none

/-- A sparse column spread over its K positions. -/
def sparseColumn (els : List Num) (nibs : List Nat) : Option (List Num) :=
  match els, nibs with
  | a :: b :: r, n :: t => match sparseGroup n a b, sparseColumn r t with
    | some g, some q => some (g ++ q)
    | _, _ => none
  | _, _ => some []

/-- An operand: its rows (columns of B) of K elements, and the scale byte of each element's block; no scale without MX. -/
structure Mat where
  rows : List (List Num)
  scales : List (List Nat)
  deriving DecidableEq, Repr

/-- Operand bytes read as a tile (R30, R31, R44); none when a metadata nibble is refused. -/
def readMat (code bs rows k : Nat) (sparse : Bool) (bytes : List Byte) : Option Mat :=
  let p := operandParts code bs rows k sparse
  let lay := operandLayout code bs rows k sparse
  let stored := cutRows (if sparse then k / 2 else k) ((elemCodes code (bytes.take p.1)).map (elemValue code)) rows
  let sc := if isMx code then cutRows (k / blockSize bs) (((bytes.drop lay.1).take p.2.1).map (·.toNat)) rows else []
  if sparse then
    let nibs := cutRows (k / 4) (((bytes.drop lay.2.1).take p.2.2).flatMap (fun b => [b.toNat % 16, b.toNat / 16])) rows
    let cols := (stored.zip nibs).map (fun e => sparseColumn e.1 e.2)
    if cols.all (·.isSome) then some ⟨cols.map (·.getD []), sc⟩ else none
  else some ⟨stored, sc⟩

/-! ## Runs (R35, R36) -/

/-- The leading bit of the largest finite product of a run. -/
def topExp (l : List Num) : Option Int :=
  l.foldl (fun b x => match x with
    | .fin _ m e => if m = 0 then b else some (max (b.getD (leadExp m e)) (leadExp m e))
    | _ => b) none

/-- A product kept down to weight 2^q, toward zero in magnitude, as a signed multiple of 2^q. -/
def alignTo (q : Int) (x : Num) : Int :=
  match x with
  | .fin n m e =>
    let v : Int := if q ≤ e then (m * 2 ^ (e - q).toNat : Nat) else (m / 2 ^ (q - e).toNat : Nat)
    if n then -v else v
  | _ => 0

/-- The sum of a run's products (R35); an exact zero sum is +0. -/
def runSum (w : Nat) (ps : List Num) : Num :=
  if ps.any (·.isNan) then .nan
  else if ps.contains (.inf false) && ps.contains (.inf true) then .nan
  else if ps.contains (.inf false) then .inf false
  else if ps.contains (.inf true) then .inf true
  else match topExp ps with
    | none => Num.zero
    | some t =>
      let q := t - (w : Int)
      let v := ps.foldl (fun n x => n + alignTo q x) 0
      .fin (decide (v < 0)) v.natAbs q

/-- Products of two rows. -/
def products (a b : List Num) : List Num := List.zipWith Num.mul a b

/-- An accumulator element: the entry, the low entry of a pair, and whether an addition overflowed or wrapped (R36, R38, R42). -/
structure AccEl where
  hi : U32
  lo : U32
  flow : Bool
  deriving DecidableEq, Repr

/-- An exact zero sum is +0 (R35). -/
def plusZero (x : Num) : Num := if x.isZero then Num.zero else x

/-- One rounded run sum added (R35, R38, R42). -/
def accAdd (pair : Bool) (scale : Option Int) (sum : Num) (a : AccEl) : AccEl :=
  let r := fmt32.roundNum (match scale with | none => .nan | some k => sum.scale k)
  let t := plusZero ((f32 a.hi).add r.1)
  let s := fmt32.roundNum t
  let hi := toF32 s.1
  let l := fmt32.roundNum ((f32 a.lo).add (t.add s.1.neg))
  let low := pair && s.1.isFin
  ⟨hi, if low then toF32 l.1 else a.lo, a.flow || r.2 || s.2 || (low && l.2)⟩

/-- An integer run sum added modulo 2^32 (R36). -/
def accAddInt (sum : Int) (a : AccEl) : AccEl :=
  let v := a.hi.toInt + sum
  ⟨BitVec.ofInt 32 v, a.lo, a.flow || decide (v < -(2 ^ 31 : Nat)) || decide ((2 ^ 31 : Nat) - 1 < v)⟩

/-- The shape and formats of a tile issue. -/
structure TileSpec where
  aFmt : Nat
  bFmt : Nat
  bs : Nat
  sparse : Bool
  accInit : Nat
  pair : Bool
  cFmt : Nat
  m : Nat
  n : Nat
  k : Nat
  deriving DecidableEq, Repr

def TileSpec.cls (t : TileSpec) : Nat := pairClass t.aFmt t.bFmt
def TileSpec.isInt (t : TileSpec) : Bool := Sys2Proof.isInt t.aFmt
/-- K positions of a run: the span, cut at scale blocks (R35). -/
def TileSpec.runLen (t : TileSpec) : Nat := if isMx t.aFmt then min (spanOf t.cls) (blockSize t.bs) else spanOf t.cls

/-- The combined scale exponent of a run (R32); none when a scale byte is 0xFF. -/
def runScale (t : TileSpec) (sa sb : List Nat) (k : Nat) : Option Int :=
  if isMx t.aFmt then
    let x := nth sa (k / blockSize t.bs) 127
    let y := nth sb (k / blockSize t.bs) 127
    if x = 255 || y = 255 then none else some ((x : Int) + y - 254)
  else some 0

/-- Every run of one element in ascending K (R35, R36). -/
def accRuns (t : TileSpec) (sa sb : List Nat) (a b : List Num) (k fuel : Nat) (acc : AccEl) : AccEl :=
  match fuel with
  | 0 => acc
  | f + 1 =>
    if a.isEmpty then acc
    else
      let l := t.runLen
      let ps := products (a.take l) (b.take l)
      let acc' := if t.isInt then accAddInt (ps.foldl (fun n x => n + x.toInt) 0) acc
        else accAdd t.pair (runScale t sa sb k) (runSum (alignBits t.cls) ps) acc
      accRuns t sa sb (a.drop l) (b.drop l) (k + l) f acc'

/-! ## Initial accumulator (R37, R91) -/

/-- An element of C as the accumulator takes it. -/
def initEl (cFmt : Nat) (v : Nat) : AccEl :=
  match cFmt with
  | 0 => ⟨BitVec.ofNat 32 v, 0#32, false⟩
  | 1 => ⟨toF32 (fmtBf16.decode v), 0#32, false⟩
  | 2 => ⟨toF32 (fmtFp16.decode v), 0#32, false⟩
  | 7 => ⟨BitVec.ofNat 32 v, BitVec.ofNat 32 (v / 2 ^ 32), false⟩
  | _ => ⟨BitVec.ofNat 32 v, 0#32, false⟩

/-- C0 in row order: zeros, or the elements of C. -/
def initAcc (t : TileSpec) (c : List Byte) : List AccEl :=
  if t.accInit = 0 then List.replicate (t.m * t.n) ⟨0#32, 0#32, false⟩
  else (cutRows (drainBytes t.cFmt) c (t.m * t.n)).map (fun b => initEl t.cFmt (leNat b))

/-- The accumulator content at drain, in row order. -/
def multiply (t : TileSpec) (a b : Mat) (c0 : List AccEl) : List AccEl :=
  (List.range t.m).flatMap (fun i => (List.range t.n).map (fun j =>
    accRuns t (nth a.scales i []) (nth b.scales j []) (nth a.rows i []) (nth b.rows j []) 0 t.k (nth c0 (i * t.n + j) ⟨0#32, 0#32, false⟩)))

/-! ## Checksum lanes (R46 to R49) -/

/-- Rounded to the format of the checksum lanes. -/
def r64 (x : Num) : Num := (fmt64.roundNum x).1
def add64 (x y : Num) : Num := r64 (x.add y)
def mul64 (x y : Num) : Num := r64 (x.mul y)
def bits64 (x : Num) : Nat := fmt64.convert false false x
def num64 (v : Nat) : Num := fmt64.decode v

/-- A row with its MX scale applied to each element exactly (R46). -/
def scaledRow (t : TileSpec) (row : List Num) (sc : List Nat) : List Num :=
  if isMx t.aFmt then
    row.zipIdx.map (fun e =>
      let s := nth sc (e.2 / blockSize t.bs) 127
      if s = 255 then .nan else e.1.scale ((s : Int) - 127))
  else row

/-- Sums of several rows position by position, rows in ascending order. -/
def sumRows (l : List (List Num)) (k : Nat) : List Num := l.foldl (fun acc r => List.zipWith add64 acc r) (List.replicate k Num.zero)

/-- A predicted sum: it starts from its C0 sum and adds its products for k in ascending order. -/
def predict (start : Num) (a b : List Num) : Num := (products a b).foldl (fun s p => add64 s (r64 p)) start

/-- The value of an accumulator element for the sums: hi + lo when paired, an addition of the checksum lanes (R46). -/
def AccEl.value (t : TileSpec) (a : AccEl) : Num :=
  if t.isInt then ofInt a.hi.toInt else if t.pair then add64 (f32 a.hi) (f32 a.lo) else f32 a.hi

/-- Is an entry of an element NaN (R42)? -/
def AccEl.isNan (t : TileSpec) (a : AccEl) : Bool := !t.isInt && ((f32 a.hi).isNan || (t.pair && (f32 a.lo).isNan))

/-- Sum of elements in ascending index. -/
def sumOf (l : List Num) : Num := l.foldl add64 Num.zero

/-- Column `j` and row `i` of a matrix in row order. -/
def colOf (t : TileSpec) (l : List AccEl) (j : Nat) : List AccEl := (List.range t.m).map (fun i => nth l (i * t.n + j) ⟨0#32, 0#32, false⟩)
def rowOf (t : TileSpec) (l : List AccEl) (i : Nat) : List AccEl := (l.drop (i * t.n)).take t.n

/-- An exact integer sum modulo 2^32, as a number (R47). -/
def intSum (l : List Int) : Nat := toBits 32 (l.foldl (· + ·) 0)

/-- Predicted sums and magnitudes of the columns and of the rows, as 64-bit encodings; for an integer pair P modulo 2^32 and 0. -/
def predictSums (t : TileSpec) (a b : Mat) (c0 : List AccEl) : List (Nat × Nat) × List (Nat × Nat) :=
  let ra := (a.rows.zipIdx).map (fun e => scaledRow t e.1 (nth a.scales e.2 []))
  let rb := (b.rows.zipIdx).map (fun e => scaledRow t e.1 (nth b.scales e.2 []))
  let v := fun (l : List AccEl) => l.map (AccEl.value t)
  if t.isInt then
    let dot := fun (x y : List Num) => (products x y).map Num.toInt
    let ex := fun (l : List (List Num)) => (List.range t.k).map (fun k => ofInt ((l.map (fun r => (nth r k Num.zero).toInt)).foldl (· + ·) 0))
    let sa := ex ra
    let sb := ex rb
    ((List.range t.n).map (fun j => (intSum ((v (colOf t c0 j)).map Num.toInt ++ dot sa (nth rb j [])), 0)),
      (List.range t.m).map (fun i => (intSum ((v (rowOf t c0 i)).map Num.toInt ++ dot (nth ra i []) sb), 0)))
  else
    let ab := fun (l : List (List Num)) => l.map (fun r => r.map Num.abs)
    let sa := sumRows ra t.k
    let sb := sumRows rb t.k
    let ma := sumRows (ab ra) t.k
    let mb := sumRows (ab rb) t.k
    ((List.range t.n).map (fun j =>
        (bits64 (predict (sumOf (v (colOf t c0 j))) sa (nth rb j [])),
          bits64 (predict (sumOf ((v (colOf t c0 j)).map Num.abs)) ma ((nth rb j []).map Num.abs)))),
      (List.range t.m).map (fun i =>
        (bits64 (predict (sumOf (v (rowOf t c0 i))) (nth ra i []) sb),
          bits64 (predict (sumOf ((v (rowOf t c0 i)).map Num.abs)) ((nth ra i []).map Num.abs) mb))))

/-- Observed sum of some elements at drain, as an encoding. -/
def observe (t : TileSpec) (l : List AccEl) : Nat :=
  if t.isInt then intSum (l.map (fun e => e.hi.toInt)) else bits64 (sumOf (l.map (AccEl.value t)))

/-- How one sum compares (R47, R48). -/
inductive SumCheck where
  | pass
  | fail
  | unchecked
  deriving DecidableEq, Repr

/-- |O − P| against 2^(−tolExp) × M + tolAbs, exactly. -/
def checkSum (t : TileSpec) (tolExp : Nat) (tolAbs : U32) (o : Nat) (p : Nat × Nat) : SumCheck :=
  if t.isInt then (if o = p.1 then .pass else .fail)
  else
    let x := num64 o
    let y := num64 p.1
    let mg := num64 p.2
    if !(x.isFin && y.isFin && mg.isFin) then .unchecked
    else if ((mg.scale (-(tolExp : Int))).add (f32 tolAbs)).lt (x.add y.neg).abs then .fail else .pass

/-! ## Drain (R43, R91) -/

/-- The value that a float drain converts. -/
def drainValue (pair : Bool) (a : AccEl) : Num := if pair then (f32 a.hi).add (f32 a.lo) else f32 a.hi

/-- INT8 drain: arithmetic shift rounded to nearest with ties to even, then saturation. -/
def drainInt8 (shift : Nat) (v : Int) : Nat := toBits 8 (max (-128) (min 127 (roundInt false (decide (v < 0)) v.natAbs (-(shift : Int)))))

/-- One element drained. -/
def drainEl (code : Nat) (sat pair : Bool) (shift : Nat) (a : AccEl) : List Byte :=
  let f := fun (g : Fmt) (n : Nat) => le n (g.convert false sat (drainValue pair a))
  match code with
  | 0 => f fmt32 4
  | 1 => f fmtBf16 2
  | 2 => f fmtFp16 2
  | 3 => f fmtE4M3 1
  | 4 => f fmtE5M2 1
  | 5 => le 4 a.hi.toNat
  | 6 => le 1 (drainInt8 shift a.hi.toInt)
  | _ => le 4 a.hi.toNat ++ le 4 a.lo.toNat

def drainAll (code : Nat) (sat pair : Bool) (shift : Nat) (l : List AccEl) : List Byte := l.flatMap (drainEl code sat pair shift)

/-- The format of a partial (R91). -/
def partialFmt (t : TileSpec) : Nat := if t.isInt then 5 else if t.pair then 7 else 0

end Sys2Proof.Machine
end

