-- ==== Sys2Proof/Machine/Flags.lean ====
section
/-! DEFINITION. The flags that the module computes from its state: DEGRADED and its causes (R322), the ALERT output (R305,
R477), and the counts of assignable and held plots (R21, R24). -/

namespace Sys2Proof.Machine

open Sys2Proof

/-- A port that degrades the module: NARROW, or DOWN for a reason other than NO_CABLE (R262). -/
def Port.degrades (p : Port) : Bool := p.pstate = 1 || (p.pstate = 2 && p.reason ≠ 1)

/-- Logical plots of a field that its remap table maps (R191). -/
def Field.mappedCount (f : Field) : Nat := (f.remap.filter (fun e => e.2.mapped)).length

/-- Positions that a field holds for re-placement: HELD is position state 1 (R191). -/
def Field.heldCount (f : Field) : Nat := (f.remap.filter (fun e => e.2.posState = 1)).length

/-- The assignable plots that R21 gives a field for the policy. -/
def policyPlots (full : Bool) : Nat := if full then 64 else 60

/-- A field short of assignable plots: not fenced, its table written, fewer mapped than R21 gives (R24). -/
def Field.short (f : Field) (full : Bool) : Bool :=
  !f.fenced && !f.remap.isEmpty && decide (f.mappedCount < policyPlots full)

/-- `DEG_CAUSES` (R322). -/
def degCauses (s : State) : Nat :=
  flag (s.links.any (fun e => e.2.degrades))
    + 2 * flag (s.bridges.any (fun e => e.2))
    + 4 * flag (s.flds.any (fun e => e.2.fenced))
    + 8 * flag (s.flds.any (fun e => e.2.short s.ctl.policyFull))

def degraded (s : State) : Bool := degCauses s ≠ 0

/-- The fenced-field mask of the state record (R322). -/
def fencedMask (s : State) : Nat := maskOf ((List.range 8).filter (fun f => (fieldOf s f).fenced))

/-- Is a field of the pair that a shut-down test has under test (R405)? -/
def underTest (s : State) (f : Nat) : Bool := match s.test.pairs with
  | (a, b) :: _ => f = a || f = b
  | [] => false

/-- Is a field clocked: not fenced, and in a shut-down test only one of the pair under test (R406)? -/
def fieldClocked (s : State) (f : Nat) : Bool := !(fieldOf s f).fenced && (s.ctl.mode ≠ .testing || underTest s f)

/-- The clock that the module gives its fields: the governor's, or the Efficiency clock in a shut-down test (R406). -/
def moduleMhz (s : State) : Nat := if s.ctl.mode = .testing then 1600 else s.pwr.govMhz

/-- The applied arithmetic clock of a field, held lower by the thermal throttle; 0 when it is fenced or clock-stopped (R406, R464, R468). -/
def fieldMhz (s : State) (f : Nat) : Nat := if fieldClocked s f then min (clockOf s f).heldMhz (moduleMhz s) else 0

/-- Record DEGRADED_CHANGE when the causes differ from `old`: MODULE when a cause bit is set that was clear, else INFO
(R322, R484). -/
def noteDegraded (old : Nat) (s : State) : State :=
  let new := degCauses s
  if new = old then s
  else record (ev 0x0002 (if new &&& (15 - old % 16) ≠ 0 then 4 else 0) [(8, old), (8, new)]) s

/-- A change after which DEGRADED is judged again (R322). -/
def watchDegraded (f : State → State) (s : State) : State := noteDegraded (degCauses s) (f s)

/-- Is the start reported as a fast one: not when a port has fallen back from its saved settings (R258, R322, R398)? -/
def reportedFast (s : State) : Bool := s.ctl.fastStart && s.ctl.coldReason = 0

/-- ALERT is asserted by the thermal trip, and while mailbox 0 holds an unread response (R305, R477). -/
def alert (s : State) : Bool := s.ctl.tripAlert || decide ((boxOf s 0).rspHead ≠ (boxOf s 0).rspTail)

/-- PRESENT_N is tied to GND (R475): its level. -/
def presentN : Bool := false

end Sys2Proof.Machine
end

