-- ==== Sys2Proof/Machine/Persist.lean ====
section
/-! DEFINITION. What the module reads from its surroundings and keeps across starts: identity records (R386 to R392), OTP
generations (R400 to R403), the security counts (R349), and the firmware selection of R371. -/

namespace Sys2Proof.Machine

open Sys2Proof

/-! ## Identity records -/

/-- `ID_KIND` that an address calls for: carrier, cold plate, power stages, host adapter, cables (R386, R387). -/
def idKind (idx : Nat) : Nat :=
  if idx = 0 then 1 else if idx = 1 then 2 else if idx ≤ 5 then 3 else if idx = 6 then 5 else 4

/-- A valid record (R387, R389). -/
def idValid (idx : Nat) (b : List Byte) : Bool :=
  b.length = 256 && numAt b 0 4 = 0x44495844 && numAt b 4 1 = idKind idx && numAt b 5 1 = 1
    && numAt b 0xFC 4 = (crc32 (b.take 0xFC)).toNat

/-- Bus address of an identity memory (R386): 0 carrier, 1 cold plate, 2 to 5 power stages, 6 host adapter, 7 + p the cable of port p. -/
def idAddress (idx : Nat) : Nat := if idx < 7 then 0x50 + idx else 128 * (idx - 6) + 0x50

/-- A memory as the lodge reads it, in up to three tries (R389): a valid record, else a record that answered, else none (log
entry 119). -/
def readId (idx : Nat) (tries : List (Option (List Byte))) : Option (List Byte) :=
  let l := (tries.take 3).filterMap id
  (l.find? (idValid idx)).or l.head?

/-- The identity memories read (R389). -/
def readIds (a : IdAnswers) : Tab (List Byte) := (List.range 23).filterMap (fun k => (readId k (Tab.get a (idAddress k) [])).map (fun b => (k, b)))

/-- The record at an index, if it is valid. -/
def idRecord (s : State) (idx : Nat) : Option (List Byte) :=
  match Tab.find s.ctl.ids idx with
  | none => none
  | some b => if idValid idx b then some b else none

/-- The identity digest (R392): 23 records in order, zeros for one that is absent or invalid. -/
def identityDigest (s : State) : Digest :=
  Config.sha384 ((List.range 23).flatMap (fun i => (idRecord s i).getD (List.replicate 256 0#8)))

/-- Group hint of a valid carrier record (R388). -/
def groupHint (s : State) : Option Nat :=
  match idRecord s 0 with
  | none => none
  | some b => if bit (numAt b 0x22 2) 15 then some (bits (numAt b 0x22 2) 0 10) else none

/-- The port that a valid host-adapter record names (R388). -/
def hostAdapterPort (s : State) : Option Nat := (idRecord s 6).map (fun b => bits (numAt b 0x20 1) 0 4)

/-- Why a port cannot train on its cable (R256 step 1, R265), or none. -/
def cableFault (s : State) (port : Nat) : Option Nat :=
  match Tab.find s.ctl.ids (7 + port) with
  | none => some 0x1
  | some b =>
    if !idValid (7 + port) b then some 0x2
    else if numAt b 0x22 1 ≠ 1 then some 0x3
    else if numAt b 0x20 2 < 5 || 3000 < numAt b 0x20 2 then some 0x4
    else none

/-! ## OTP -/

/-- Bytes of a setting's value, padded to whole words (R400). -/
def settingBytes (k : Nat) : Nat := if k = 1 then 48 else 4

/-- The tail of a complete burn (R401). -/
def otpTail (k v : Nat) : U32 :=
  BitVec.ofNat 32 (0x10000 + (crc16 (BitVec.ofNat 8 k :: le (settingBytes k) v)).toNat)

/-- A generation that is valid: `BURNT` set and the CRC matching (R401). -/
def OtpSlot.valid (o : OtpSlot) (k : Nat) : Bool := o.tail = otpTail k o.value

def otpSlots (s : State) (k : Nat) : List OtpSlot := Tab.get s.otp.settings k []

/-- The generation in force: the highest valid one (R401), from generation `g`. -/
def lastValid (k g : Nat) (l : List OtpSlot) : Option (Nat × Nat) :=
  match l with
  | [] => none
  | o :: r => match lastValid k (g + 1) r with
    | some x => some x
    | none => if o.valid k then some (g, o.value) else none

def otpForce (s : State) (k : Nat) : Option (Nat × Nat) := lastValid k 0 (otpSlots s k)

/-- The value of a setting without a valid generation (R400). -/
def otpDefault (k : Nat) : Nat := if k = 5 then 5000 else 0

def otpValue (s : State) (k : Nat) : Nat := ((otpForce s k).map (·.2)).getD (otpDefault k)

/-- The owner key hash in force, or none on an unowned module (R356, R401). -/
def ownerHash (s : State) : Option Digest := (otpForce s 1).map (fun g => BitVec.ofNat 384 g.2)
def owned (s : State) : Bool := (ownerHash s).isSome

/-- Burn the next generation of a setting; a burn that fails its read-back leaves a used, invalid generation (R401). -/
def burn (k v : Nat) (good : Bool) : State → State :=
  mapOtp (fun o => { o with settings := Tab.upd o.settings k [] (fun l => l ++ [⟨v, if good then otpTail k v else otpTail k v ^^^ 1#32⟩]) })

/-- Fuse-map generations of a field, and the one in force (R402). -/
def fuseGens (s : State) (f : Nat) : List FuseMap := Tab.get s.otp.fuses f []

def lastIntact (g : Nat) (l : List FuseMap) : Option (Nat × FuseMap) :=
  match l with
  | [] => none
  | o :: r => match lastIntact (g + 1) r with
    | some x => some x
    | none => if o.intact then some (g, o) else none

def fuseForce (s : State) (f : Nat) : Option (Nat × FuseMap) := lastIntact 0 (fuseGens s f)

/-- Half-row entries as R402 stores them: 64 of 6 bits; unlisted is 0x1F, no fence. -/
def halfRowBits (m : FuseMap) : Nat := pack ((List.range 64).map (fun i => (6, Tab.get m.halfRows i 0x1F)))

/-- Unused `SRAM_REPAIRS` entries name memory 15 (R402). -/
def fuseBody (m : FuseMap) : List Byte :=
  lay [(4, 0), (48, halfRowBits m)] ++
    ((m.repairs.take 112 ++ List.replicate (112 - m.repairs.length) 0x7800#32).flatMap (fun w => le 4 w.toNat)) ++
    List.replicate (0x1FC - 0x34 - 448) 0#8

/-- The tail of a generation, its CRC over bytes 0x000 to 0x1FB (R402). -/
def fuseTail (m : FuseMap) : Nat := 0x10000 + ((crc16 (fuseBody m)).toNat ^^^ flag (!m.intact))

/-- The digest of every generation in force in hub and field OTP (R410 `OTP_DIGEST`). -/
def otpDigest (s : State) : Digest :=
  Config.sha384
    ((rangeFrom 1 6).flatMap (fun k => match otpForce s k with
        | none => []
        | some (g, v) => lay [(1, k), (1, g), (settingBytes k, v)])
      ++ (List.range 8).flatMap (fun f => match fuseForce s f with
        | none => []
        | some (g, m) => lay [(1, 0x10 + f), (1, g)] ++ fuseBody m))

/-! ## Pattern packs (R443, R444) -/

/-- A directory entry of a pack (R444); its reserved fields are ignored (R10). -/
def patternAt (bs : List Byte) (a : Nat) : Pattern :=
  ⟨numAt bs a 4, bits (numAt bs (a + 4) 4) 0 4, bits (numAt bs (a + 4) 4) 4 4, bits (numAt bs (a + 4) 4) 8 8, bits (numAt bs (a + 4) 4) 16 16,
    numAt bs (a + 0x10) 2, numAt bs (a + 8) 4, numAt bs (a + 0xC) 4⟩

/-- A pack as its bytes lay it out (R443). The directory is read as far as the bytes go. -/
def packAt (bs : List Byte) (sigOk : Bool) : Pack :=
  let n := numAt bs 0x18 4
  ⟨numAt bs 0 4, numAt bs 4 2, numAt bs 8 4, bit (numAt bs 0xC 4) 0, numAt bs 0x10 2, numAt bs 0x12 2, numAt bs 0x14 4, n, numAt bs 0x1C 4,
    BitVec.ofNat 384 (numAt bs 0x20 48), (List.range (min n ((bs.length - 0x80) / 32))).map (fun i => patternAt bs (0x80 + 32 * i)), bs, sigOk⟩

/-- The bytes of a pack from 0x080 to its signature. -/
def packBody (k : Pack) : List Byte := (k.bytes.drop 0x80).take k.bodyLen

/-- `MEAS_PACK` (R353). -/
def packMeas (k : Pack) : Digest := Config.sha384 k.bytes

/-! ## Firmware (R370, R371) -/

/-- May an image boot, or be installed (R370)? -/
def bootable (s : State) (i : FwImage) : Bool :=
  i.daxaundOk
    && (!owned s || (i.endorsed && i.endorseKey = ownerHash s && i.endorseVersion = i.securityVersion && i.endorseDigest = i.digest
      && (i.endorseSerial = 0#96 || i.endorseSerial = Config.serial)))
    && decide (otpValue s 2 ≤ i.securityVersion)

/-- Is slot `b` to be preferred to slot `a`: higher security version, then build, then written last (R371)? -/
def fwBetter (s : State) (a b : Nat × FwImage) : Bool :=
  if a.2.securityVersion ≠ b.2.securityVersion then decide (a.2.securityVersion < b.2.securityVersion)
  else if a.2.build ≠ b.2.build then decide (a.2.build < b.2.build)
  else b.1 = s.flash.lastWritten

/-- The slot that the boot ROM selects, among slots whose storage still verifies. -/
def selectFirmware (s : State) (bad : List Nat) : Option (Nat × FwImage) :=
  (s.flash.slots.filter (fun e => !bad.contains e.1 && bootable s e.2)).foldl
    (fun best e => match best with
      | none => some e
      | some b => if fwBetter s b e then some e else some b) none

/-- The image that runs, or last ran (R342). -/
def fwRunning (s : State) : Option FwImage := s.ctl.fwLast

/-- The firmware series of this spec (R5, R301, R342). -/
def fwSeries : Nat := 0x0201

def fwBuild (s : State) : Nat := ((fwRunning s).map (·.build)).getD 0
def fwSecurity (s : State) : Nat := ((fwRunning s).map (·.securityVersion)).getD 0

/-- The 12 characters of the lid serial as a number (R5). -/
def serialNat : Nat := Config.serial.toNat

end Sys2Proof.Machine
end

