-- ==== Sys2Proof/Machine/Keys.lean ====
section
/-! DEFINITION. AES-256-GCM and HKDF-SHA-384 as the module applies them (R168, R293, R308, R349, R361), over the primitives of Config (log
entry 3). -/

namespace Sys2Proof.Machine

open Sys2Proof

/-- The characters of a label, one byte each. -/
def asciiBytes (t : String) : List Byte := t.toList.map (fun c => BitVec.ofNat 8 c.toNat)

/-- The ciphertext of AES-256-GCM: the text under the key stream. -/
def gcmText (key : BitVec 256) (iv : BitVec 96) (bs : List Byte) : List Byte :=
  bs.zipIdx.map (fun e => e.1 ^^^ Config.gcmStream key iv e.2)

/-- The 16-byte tag over the authenticated data and the ciphertext. -/
def gcmTag (key : BitVec 256) (iv : BitVec 96) (aad text : List Byte) : List Byte := le 16 (Config.gcmTag key iv aad text).toNat

/-- AES-256-GCM as a sender applies it: the first `n` bytes in the clear, the rest as ciphertext, then the tag (R168, R293, R308, R366). -/
def gcmSeal (n : Nat) (key : BitVec 256) (iv : BitVec 96) (aad bs : List Byte) : List Byte :=
  let text := bs.take n ++ gcmText key iv (bs.drop n)
  text ++ gcmTag key iv aad text

/-- AES-256-GCM as a receiver applies it: the bytes before the tag, with all but the first `n` deciphered; none: the tag fails. -/
def gcmOpen (n : Nat) (key : BitVec 256) (iv : BitVec 96) (aad bs : List Byte) : Option (List Byte) :=
  let text := bs.take (bs.length - 16)
  if 16 ≤ bs.length && bs.drop (bs.length - 16) = gcmTag key iv aad text then some (text.take n ++ gcmText key iv (text.drop n)) else none

/-- HKDF-SHA-384 extract: the pseudorandom key. -/
def hkdfExtract (salt ikm : List Byte) : List Byte := le 48 (Config.hmac384 salt ikm).toNat

/-- The blocks of HKDF-SHA-384 expand from the i-th on. -/
def hkdfBlocks (prk info last : List Byte) (i blocks : Nat) : List Byte :=
  match blocks with
  | 0 => []
  | n + 1 =>
    let t := le 48 (Config.hmac384 prk (last ++ info ++ [BitVec.ofNat 8 i])).toNat
    t ++ hkdfBlocks prk info t (i + 1) n

/-- HKDF-SHA-384 expand to a length in bytes. -/
def hkdfExpand (prk info : List Byte) (len : Nat) : List Byte := (hkdfBlocks prk info [] 1 ((len + 47) / 48)).take len

/-- The bytes of a key as a number. -/
def keyOf (w : Nat) (bs : List Byte) : BitVec w := BitVec.ofNat w (numAt bs 0 bs.length)

/-- What a handshake derives (R361), from the two nonces, the x-coordinate of the shared point and TH1. -/
def deriveKeys (nonceH nonceM : BitVec 256) (z : BitVec 384) (th1 : Digest) : HandshakeKeys :=
  let prk := hkdfExtract (le 32 nonceH.toNat ++ le 32 nonceM.toNat) (le 48 z.toNat).reverse
  let k := fun (label : String) (len : Nat) => hkdfExpand prk (asciiBytes label ++ le 48 th1.toNat) len
  { ch := k "pensyn ch" 48
    cm := k "pensyn cm" 48
    keys := ⟨keyOf 256 (k "pensyn req" 32), keyOf 256 (k "pensyn rsp" 32), keyOf 256 (k "pensyn img" 32)⟩ }

/-- A principal's identity: the SHA-384 of its public key (R359). -/
def principalOf (key : BitVec 776) : Digest := Config.sha384 (le 97 key.toNat)

/-- The pseudorandom key of the derived keys (R349). -/
def rootPrk : List Byte := hkdfExtract (asciiBytes "AS8 root") (le 32 Config.otpRoot.toNat)

/-- The slot 0 key at a value of `S0_GEN` (R349). -/
def slot0Key (gen : Nat) : BitVec 512 := keyOf 512 (hkdfExpand rootPrk (asciiBytes "slot0" ++ le 4 gen) 64)

/-- The residency key (R349). -/
def residencyKey : BitVec 256 := keyOf 256 (hkdfExpand rootPrk (asciiBytes "residency") 32)

/-- A region key as the gatehouse draws it from entropy, at the n-th and the next draw (R348, R350). -/
def entropyKey (n : Nat) : BitVec 512 := Config.entropy256 n ++ Config.entropy256 (n + 1)

/-- The key of a slot: slot 0 is the module's own (R226, R348). -/
def slotKey (s : State) (k : Nat) : BitVec 512 :=
  if k = 0 then slot0Key s.flash.s0Gen else ((Tab.find s.gateh.keySlots k).map (·.key)).getD 0#512

/-- The 128-byte record of a slot in the residency store (R351). -/
def KeySlot.record (slot : Nat) (k : KeySlot) : List Byte :=
  lay [(8, slot), (48, k.owner.toNat)] ++ Config.keyWrap residencyKey (le 64 k.key.toNat)

/-- A copy of the residency store: its records in slot order, then zeros (R351; log entry 127). -/
def residencyStore (s : State) : List Byte :=
  bytesAt (s.gateh.residency.flatMap (fun e => e.2.record e.1)) 0 65536

/-- The device private key as the hub OTP holds it (R348). -/
def wrappedDeviceKey : List Byte := Config.keyWrap Config.otpRoot (le 48 Config.deviceScalar.toNat).reverse

/-- The device certificate (R352): `serialNumber`, the device identity key, `notAfter`; and that of the Daxaund manufacturing intermediate. -/
def notAfter : List Byte := asciiBytes "99991231235959Z"
def deviceCert : List Byte := Config.certificate (le 12 Config.serial.toNat) (Config.ecPublic Config.deviceScalar) notAfter
def intermediateCert : List Byte := Config.certificate Config.intermediateName Config.intermediateKey notAfter

end Sys2Proof.Machine
end

