-- ==== Sys2Proof/Machine/Scratch.lean ====
section
/-! DEFINITION. The scratchpad of a slice and its slots: bank map and power (R55, R56, R76, R77), SECDED (R81 to R83),
presence and poison bits (R64 to R70), and stalls (R67, R71 to R75). -/

namespace Sys2Proof.Machine

open Sys2Proof

/-- A wake trigger of R456: a sleeping plot begins to wake. -/
def wakePlot (p : Nat) (s : State) : State :=
  if (plotOf s p).sleep = 1 || (plotOf s p).sleep = 2 then updPlot p (fun pl => { pl with sleep := 3 }) s else s

/-! ## Bank map -/

/-- End of the job area (R55). -/
def jobAreaEnd : Nat := 0x5E000

def bankSize : Nat := 0x8000

/-- Banks that a job powers: covered by a valid slot, named by `SCRATCH_BANKS`, or bank 11 (R76). -/
def poweredBanks (slots : Tab SlotDef) (scratch : Nat) : Nat :=
  (maskOf ((List.range 12).filter (fun b => slots.any (fun e =>
    decide (e.2.base < (b + 1) * bankSize) && decide (b * bankSize < e.2.base + e.2.parts * e.2.size))))
    ||| scratch % 4096) ||| 2 ^ 11

def Slice.poweredAt (sl : Slice) (off : Nat) : Bool := bit sl.banks (off / bankSize)

/-- The 64-bit words that an access touches. -/
def wordsIn (off n : Nat) : List Nat := if n = 0 then [] else rangeFrom (off / 8) ((off + n - 1) / 8 - off / 8 + 1)

/-- The 64-bit words that an access covers whole. -/
def wholeWords (off n : Nat) : List Nat := (wordsIn off n).filter (fun w => decide (off ≤ 8 * w) && decide (8 * w + 8 ≤ off + n))

/-- The slot part that holds an offset. -/
def slotPartAt (slots : Tab SlotDef) (off : Nat) : Option (Nat × Nat) :=
  match slots with
  | [] => none
  | (k, d) :: r =>
    if d.base ≤ off && off < d.base + d.parts * d.size then some (k, (off - d.base) / d.size) else slotPartAt r off

/-! ## Slots -/

def Slice.slotDef (sl : Slice) (k : Nat) : Option SlotDef := Tab.find sl.slots k
def Slice.slot (sl : Slice) (k : Nat) : SlotState := Tab.get sl.slotSt k SlotState.empty
def Slice.setSlot (sl : Slice) (k : Nat) (v : SlotState) : Slice := { sl with slotSt := Tab.set sl.slotSt k v }

def Slice.partFull (sl : Slice) (k part : Nat) : Bool := (sl.slot k).full.contains part
def Slice.partPoisoned (sl : Slice) (k part : Nat) : Bool := (sl.slot k).poison.contains part

/-- Parts of a slot, at least one. -/
def Slice.partsOf (sl : Slice) (k : Nat) : Nat := ((sl.slotDef k).map (·.parts)).getD 1

/-- Offset of a part. -/
def Slice.partBase (sl : Slice) (k part : Nat) : Nat :=
  match sl.slotDef k with
  | none => 0
  | some d => d.base + part * d.size

/-- Waiters that a change of presence lets go on (R67): a consumer whose part is full, a producer whose part is empty. -/
def Slice.wake (sl : Slice) : Slice :=
  { sl with stalls := sl.stalls.filter (fun w => sl.partFull w.slot w.part == w.producer) }

/-- A part poisoned (R82). -/
def Slice.poisonPart (sl : Slice) (k part : Nat) : Slice :=
  if sl.partPoisoned k part then sl
  else sl.setSlot k { sl.slot k with poison := (sl.slot k).poison ++ [part] }

/-- A producer finishes with a part: it becomes full, its poison bit clears (R83) and the producer index moves on; on a part
that is full already it only counts in `REDUNDANT_MARK` (R64, R65, R70). The poison bit clears also where only a part of the words was stored
again: R83 speaks of a full refill alone (log entry 104, DESIGN CHOICE). -/
def Slice.publish (sl : Slice) (k part : Nat) : Slice :=
  let st := sl.slot k
  if st.full.contains part then sl.setSlot k { st with redundant := satInc 64 st.redundant }
  else (sl.setSlot k { st with full := st.full ++ [part], poison := st.poison.filter (· ≠ part), prod := (st.prod + 1) % sl.partsOf k }).wake

/-- A consumer releases a part: it becomes empty and the consumer index moves on (R64, R66, R70). -/
def Slice.release (sl : Slice) (k part : Nat) : Slice :=
  let st := sl.slot k
  if st.full.contains part then
    (sl.setSlot k { st with full := st.full.filter (· ≠ part), cons := (st.cons + 1) % sl.partsOf k }).wake
  else sl.setSlot k { st with redundant := satInc 64 st.redundant }

/-- A fault response sets a part empty, or full again; indices stay (R109, R110). -/
def Slice.forceEmpty (sl : Slice) (k part : Nat) : Slice :=
  (sl.setSlot k { sl.slot k with full := (sl.slot k).full.filter (· ≠ part) }).wake
def Slice.forceFull (sl : Slice) (k part : Nat) : Slice :=
  if sl.partFull k part then sl else (sl.setSlot k { sl.slot k with full := (sl.slot k).full ++ [part] }).wake

/-- A stall of R67 begins, unless the agent already waits there. -/
def Slice.stall (sl : Slice) (w : Stall) : Slice :=
  if sl.stalls.any (fun v => v.slot = w.slot && v.producer = w.producer && v.agent = w.agent) then sl
  else { sl with stalls := sl.stalls ++ [w] }

/-- Every slot as `job.start` leaves it (R69); `REDUNDANT_MARK`, of which no rule says that it starts again, goes on counting (log entry 86,
DEDUCED). -/
def Slice.startSlots (sl : Slice) : Slice :=
  { sl with slotSt := sl.slots.map (fun e => (e.1, ⟨if e.2.initFull then List.range e.2.parts else [], [], 0, 0, (sl.slot e.1).redundant⟩)), stalls := [] }

/-! ## Reads and writes -/

/-- A single-bit error in a word is corrected, written back and counted (R81): the slice, and whether this is the third
correction of the word in the job. -/
def Slice.correct (sl : Slice) (w : Nat) : Slice × Bool :=
  if sl.ceLatent.contains w then
    let n := Tab.get sl.ceWords w 0 + 1
    ({ sl with ceLatent := sl.ceLatent.filter (· ≠ w), spadCe := satInc 64 sl.spadCe, ceWords := Tab.set sl.ceWords w n }, n = 3)
  else (sl, false)

def Slice.correctAll (sl : Slice) (ws : List Nat) : Slice × List Nat :=
  match ws with
  | [] => (sl, [])
  | w :: r =>
    let a := sl.correct w
    let b := a.1.correctAll r
    (b.1, if a.2 then w :: b.2 else b.2)

/-- A double-bit error found: counted, and the slot part that holds the word poisoned (R82). -/
def Slice.strike (sl : Slice) (w : Nat) : Slice :=
  let sl := { sl with spadUeCount := satInc 64 sl.spadUeCount }
  match slotPartAt sl.slots (8 * w) with
  | none => sl
  | some (k, part) => sl.poisonPart k part

/-- Bytes of the scratchpad; those in gated banks read as zero (R77). -/
def Slice.bytes (sl : Slice) (off n : Nat) : List Byte :=
  match n with
  | 0 => []
  | n + 1 => (if sl.poweredAt off then Mem.get sl.spad off else 0#8) :: sl.bytes (off + 1) n

/-- Does an access touch a gated bank? -/
def Slice.touchesGated (sl : Slice) (off n : Nat) : Bool :=
  decide (n ≠ 0) && (List.range 12).any (fun b => !bit sl.banks b && decide (b * bankSize < off + n) && decide (off < (b + 1) * bankSize))

/-- Bytes stored; those for gated banks are discarded (R77). -/
def Slice.store (sl : Slice) (off : Nat) (bs : List Byte) : Slice :=
  match bs with
  | [] => sl
  | b :: r => (if sl.poweredAt off then { sl with spad := Mem.set sl.spad off b } else sl).store (off + 1) r

/-- One more access to a gated bank (R77). A piece of a DMA transfer or of a window request, up to 256 bytes, counts as one (log entry 126, DESIGN CHOICE). -/
def Slice.countGated (sl : Slice) (off n : Nat) : Slice :=
  if sl.touchesGated off n then { sl with gated := satInc 64 sl.gated } else sl

/-- A store that covers whole words clears their errors (R83). -/
def Slice.cleanWords (sl : Slice) (ws : List Nat) : Slice :=
  { sl with spadUe := sl.spadUe.filter (fun w => !ws.contains w), ceLatent := sl.ceLatent.filter (fun w => !ws.contains w) }

/-- Reader codes of ONDIE_UE: the agents of R62, 7 a slide or scan, and structures by number (log entry 9). -/
def ondieUe (structure_ bank word reader : Nat) : EventRec :=
  ev 0x010C 2 [(8, structure_), (8, bank), (32, word), (8, reader)]

/-- What a scratchpad read gives: the state, the bytes, and whether a double-bit error was found. -/
abbrev Loaded := State × List Byte × Bool

/-- A read of `n` bytes of slice (p, i) by an agent (R62 code) on behalf of the accessor `src`: R56 outside the job area and in
a plot that the job does not assign (R80), R77 in gated banks, R81 and R82 for errors. -/
def spadLoad (p i off n agent : Nat) (src : U32) (s : State) : Loaded :=
  if decide (jobAreaEnd < off + n) || !(plotOf s p).assigned then (violation 0x03 .none src s, List.replicate n 0#8, false)
  else
    let sl := sliceOf s p i
    let ws := wordsIn off n
    let fixed := (sl.countGated off n).correctAll (ws.filter (fun w => sl.poweredAt (8 * w)))
    let bad := ws.filter (fun w => sl.spadUe.contains w && sl.poweredAt (8 * w))
    let sl' := bad.foldl Slice.strike fixed.1
    let s1 := setSlice p i sl' s
    let s2 := forEach fixed.2 (fun w => record ((ev 0x010B 1 [(8, 8 * w / bankSize), (32, w)]).atSlice p i)) s1
    let s3 := forEach bad (fun w => record ((ondieUe 0 (8 * w / bankSize) w agent).atSlice p i)) s2
    (s3, sl'.bytes off n, !bad.isEmpty)

/-- A store to slice (p, i) by an agent for the accessor `src`: the state, and whether it failed on a double-bit error under a
partial word, whose read also corrects a single-bit error (R56, R77, R81, R83). -/
def spadStore (p i off : Nat) (bs : List Byte) (agent : Nat) (src : U32) (s : State) : State × Bool :=
  let n := bs.length
  if decide (jobAreaEnd < off + n) || !(plotOf s p).assigned then (violation 0x03 .none src s, false)
  else
    let sl := sliceOf s p i
    let whole := wholeWords off n
    let part := (wordsIn off n).filter (fun w => !whole.contains w && sl.poweredAt (8 * w))
    let bad := part.filter (fun w => sl.spadUe.contains w)
    let fixed := (sl.countGated off n).correctAll part
    let third := fun (t : State) => forEach fixed.2 (fun w => record ((ev 0x010B 1 [(8, 8 * w / bankSize), (32, w)]).atSlice p i)) t
    if bad.isEmpty then
      (third (setSlice p i ((fixed.1.store off bs).cleanWords whole) s), false)
    else
      (forEach bad (fun w => record ((ondieUe 0 (8 * w / bankSize) w agent).atSlice p i)) (third (setSlice p i (bad.foldl Slice.strike fixed.1) s)),
        true)

/-- Single-bit errors in a range corrected by a read that takes the bytes elsewhere: the commit DMA's (R81). -/
def spadCorrect (p i off n : Nat) (s : State) : State :=
  let sl := sliceOf s p i
  let fixed := sl.correctAll ((wordsIn off n).filter (fun w => sl.poweredAt (8 * w)))
  forEach fixed.2 (fun w => record ((ev 0x010B 1 [(8, 8 * w / bankSize), (32, w)]).atSlice p i)) (setSlice p i fixed.1 s)

/-- Every word of a slice read through SECDED on its way to another core (R153, R423): single-bit errors are corrected and counted (R81);
double-bit errors, those that strike on the way (`words`) among them, are counted and recorded, stay uncorrectable words, and poison
their slot parts (R82). -/
def spadScan (p i : Nat) (words : List Nat) (s : State) : State :=
  let sl := sliceOf s p i
  let fixed := sl.correctAll (sl.ceLatent.filter (fun w => sl.poweredAt (8 * w)))
  let new := words.eraseDups.filter (fun w => sl.poweredAt (8 * w) && decide (8 * w < jobAreaEnd) && !sl.spadUe.contains w)
  let bad := sl.spadUe ++ new
  let s1 := setSlice p i (bad.foldl Slice.strike { fixed.1 with spadUe := bad }) s
  forEach bad (fun w => record ((ondieUe 0 (8 * w / bankSize) w 7).atSlice p i))
    (forEach fixed.2 (fun w => record ((ev 0x010B 1 [(8, 8 * w / bankSize), (32, w)]).atSlice p i)) s1)

/-- Words that arrive poisoned are kept as uncorrectable words (R82). -/
def spadPoison (p i off n : Nat) (s : State) : State :=
  if jobAreaEnd < off + n then s
  else updSlice p i (fun sl =>
    { sl with spadUe := sl.spadUe ++ ((wordsIn off n).filter (fun w => !sl.spadUe.contains w && sl.poweredAt (8 * w))) }) s

/-- One stall begins now. -/
def stallSlice (p i slot part : Nat) (producer : Bool) (agent : Nat) (s : State) : State :=
  updSlice p i (fun sl => sl.stall ⟨slot, part, producer, agent, s.ctl.localTime, 0⟩) s

/-- The wait limit of a slot in µs (R71). -/
def slotLimitUs (s : State) (sl : Slice) (slot : Nat) : Nat :=
  match sl.slotDef slot with
  | none => s.job.slotWaitUs
  | some d => if d.waitUs = 0 then s.job.slotWaitUs else d.waitUs

/-- Microseconds since a moment (25 ticks of 40 ns each, R299). -/
def usSince (s : State) (t : U64) : Nat := (s.ctl.localTime - t).toNat / 25

/-- Microseconds that a wait timer counts: those since a moment, less the ticks for which it stood frozen (R73). -/
def usWaited (s : State) (t : U64) (frozen : Nat) : Nat := ((s.ctl.localTime - t).toNat - frozen) / 25

end Sys2Proof.Machine
end

