-- ==== Sys2Proof/Machine/Maps.lean ====
section
/-! DEFINITION. Slide maps, remap tables and route tables of the fields (R13, R14, R21 to R24, R183 to R192), as they are written at boot
and changed by fences. -/

namespace Sys2Proof.Machine

open Sys2Proof

/-! ## Slide maps (R14, R187) -/

def Field.slideRow (f : Field) (row : Nat) : SlideRow := Tab.get f.slide row SlideRow.clear

/-- Half-row of a physical column: false west (0 to 16), true east (17 to 33). -/
def eastHalf (col : Nat) : Bool := decide (17 ≤ col)

/-- The code of a fenced column in its half-row (R187). -/
def halfCode (col : Nat) : Nat := if eastHalf col then col - 17 else col

/-- The fence code of a half-row; 31 for none. -/
def SlideRow.code (r : SlideRow) (east : Bool) : Nat := if east then r.east else r.west
def SlideRow.lost (r : SlideRow) (east : Bool) : Bool := if east then r.eastLost else r.westLost
def SlideRow.setCode (r : SlideRow) (east : Bool) (c : Nat) : SlideRow := if east then { r with east := c } else { r with west := c }
def SlideRow.setLost (r : SlideRow) (east : Bool) : SlideRow := if east then { r with eastLost := true } else { r with westLost := true }

/-- The logical column that a physical column carries (R14); none for an unused spare, a fenced core or a LOST half-row. -/
def SlideRow.logicalCol (r : SlideRow) (col : Nat) : Option Nat :=
  if eastHalf col then
    if r.eastLost || (r.east ≠ 31 && col = r.east + 17) then none
    else if r.east = 31 || r.east = 0 then (if col = 17 then none else some (col - 2))
    else if col < r.east + 17 then some (col - 1) else some (col - 2)
  else
    if r.westLost || (r.west ≠ 31 && col = r.west) then none
    else if r.west = 31 || r.west = 16 then (if col = 16 then none else some col)
    else if r.west < col then some (col - 1) else some col

/-- The physical column that carries a logical column. -/
def SlideRow.physCol (r : SlideRow) (c : Nat) : Nat :=
  if c < 16 then (if r.west ≠ 31 && r.west ≠ 16 && r.west ≤ c then c + 1 else c)
  else if r.east ≠ 31 && r.east ≠ 0 && c + 2 ≤ r.east + 17 then c + 1 else c + 2

/-- The plot position of a logical core (R13): rows 4 (p / 8) on, columns 4 (p mod 8) on. -/
def positionAt (col row : Nat) : Nat := row / 4 * 8 + col / 4

/-- The slice number of a logical core in its plot (R13). -/
def sliceAt (col row : Nat) : Nat := row % 4 * 4 + col % 4

/-- Logical columns that a fence of a physical column moves (R14): those between it and the spare, both ends included. -/
def movedCols (col : Nat) : List Nat :=
  if col < 16 then rangeFrom col (16 - col) else if 17 < col then rangeFrom 16 (col - 17) else []

/-- A 16-bit slide record (R187). -/
def SlideRow.word (r : SlideRow) : Nat := pack [(5, r.west), (1, flag r.westLost), (2, 0), (5, r.east), (1, flag r.eastLost)]

/-! ## Remap tables (R24, R191) -/

def Field.entry (f : Field) (i : Nat) : Remap := Tab.get f.remap i Remap.empty

def Field.setEntry (f : Field) (i : Nat) (e : Remap) : Field := { f with remap := Tab.set f.remap i e }

/-- The plot (0 to 63) that a position carries. -/
def Field.plotAt (f : Field) (pos : Nat) : Option Nat := (f.remap.find? (fun e => e.2.mapped && e.2.position = pos)).map (·.1)

/-- Positions that cross a LOST half-row (R23). -/
def lostPositions (slide : Tab SlideRow) : List Nat :=
  (List.range 64).filter (fun p => (List.range 4).any (fun k =>
    (Tab.get slide (4 * (p / 8) + k) SlideRow.clear).lost (decide (4 ≤ p % 8))))

/-- The remap table that R24 gives: `bad` positions are those LOST (2) or FENCED (3). -/
def mapTable (full : Bool) (stateOf : Nat → Nat) : Tab Remap :=
  let whole := (List.range 64).filter (fun p => stateOf p ≠ 2 && stateOf p ≠ 3)
  let n := if full then whole.length else min 60 whole.length
  let held := whole.drop n
  (List.range 64).map (fun i => (i,
    ⟨if i < n then nth whole i 0 else i, decide (i < n), if held.contains i then 1 else if whole.contains i then 0 else stateOf i, i⟩))

/-- A field mapped under the policy: positions LOST or FENCED stay so; a fenced field maps no logical plot, and none of its positions is IN_USE or a
target: they are FENCED (log entry 100). -/
def Field.map (f : Field) (full : Bool) : Field :=
  let t := mapTable full (fun p => if (Tab.find f.remap p).isNone then 0 else (f.entry p).posState)
  { f with remap := if f.fenced then Tab.mapVals t (fun _ e => { e with mapped := false, posState := if e.posState = 2 then 2 else 3 }) else t }

/-- An entry of the remap table (R191): `HOLD` from the hold mask (R188), `REPLACED_FROM` while the position is IN_USE. -/
def remapWord (s : State) (f i : Nat) : Nat :=
  let e := (fieldOf s f).entry i
  let p := plotOf s (64 * f + i)
  pack [(6, e.position), (1, flag e.mapped), (1, flag p.assigned), (1, flag p.pinned),
    (1, flag (e.mapped && (trellisOf s f).hold.contains e.position)), (6, 0), (2, e.posState), (6, if e.posState = 0 then e.replacedFrom else i)]

/-- A position becomes FENCED, and the logical plot that occupied it loses its mapping (R427, R442). -/
def fencePosition (f pos : Nat) (s : State) : State :=
  let i := (fieldOf s f).plotAt pos
  let s1 := updField f (fun v => v.setEntry pos { v.entry pos with posState := 3 }) s
  match i with
  | none => s1
  | some i => updField f (fun v => v.setEntry i { v.entry i with mapped := false }) s1

/-- Is a logical plot assignable (R8, R24)? -/
def assignable (s : State) (p : Nat) : Bool := decide (p < 512) && ((fieldOf s (fieldOfPlot p)).entry (p % 64)).mapped

/-! ## Field routes (R18, R184, R185) -/

/-- The two fields that a pergola bridge joins (R18). -/
def bridgeEnds (b : Nat) : Nat × Nat :=
  match b with
  | 0 => (0, 1) | 1 => (1, 2) | 2 => (2, 3) | 3 => (4, 5) | 4 => (5, 6) | 5 => (6, 7)
  | 6 => (0, 4) | 7 => (1, 5) | 8 => (2, 6) | _ => (3, 7)

/-- Bridges of a field in the order of preference: along the grid row first, then along the column (R184). -/
def bridgesOf (f : Nat) : List (Nat × Nat) :=
  (List.range 10).filterMap (fun b =>
    if (bridgeEnds b).1 = f then some (b, (bridgeEnds b).2) else if (bridgeEnds b).2 = f then some (b, (bridgeEnds b).1) else none)

/-- Live bridges: neither down nor at a fenced field. -/
def bridgeLive (s : State) (b : Nat) : Bool :=
  !Tab.get s.bridges b false && !(fieldOf s (bridgeEnds b).1).fenced && !(fieldOf s (bridgeEnds b).2).fenced

/-- Distances to a field over live bridges. -/
def fieldDist (live : Nat → Bool) (dist : Tab Nat) (r n : Nat) : Tab Nat :=
  match n with
  | 0 => dist
  | n + 1 =>
    fieldDist live ((List.range 8).foldl (fun d f =>
      if (Tab.find dist f).isNone && (bridgesOf f).any (fun b => live b.1 && Tab.find dist b.2 = some r) then Tab.set d f (r + 1) else d) dist) (r + 1) n

/-- The exit bridge of a field for a destination, on a shortest path (R184, R185); none for itself or for an unreachable field. -/
def routeEntry (live : Nat → Bool) (f d : Nat) : Option Nat :=
  if f = d then none
  else
    let dist := fieldDist live [(d, 0)] 0 8
    match Tab.find dist f with
    | none => none
    | some k => ((bridgesOf f).find? (fun b => live b.1 && Tab.find dist b.2 = some (k - 1))).map (·.1)

/-- Every field route table written (R184, R185). -/
def writeFieldRoutes (s : State) : State :=
  mapFlds (fun t => Tab.mapVals t (fun f fl => { fl with routes := (List.range 8).map (fun d => (d, routeEntry (bridgeLive s) f d)) })) s

/-- A field that no path of live bridges reaches from any other field in service (R185): a path crosses no fenced field. -/
def isolated (s : State) (f : Nat) : Bool :=
  let others := (List.range 8).filter (fun d => d ≠ f && !(fieldOf s d).fenced)
  !others.isEmpty && others.all (fun d => (routeEntry (bridgeLive s) d f).isNone)

/-! ## Which core carries which slice (R13, R14, R180) -/

/-- The key of a physical core in a field's tables of cores. -/
def coreKey (col row : Nat) : Nat := col * 32 + row

/-- The physical core (column, row) that carries a slice of a logical plot. -/
def sliceCore (s : State) (p i : Nat) : Nat × Nat :=
  let f := fieldOf s (fieldOfPlot p)
  let pos := (f.entry (p % 64)).position
  let row := 4 * (pos / 8) + i / 4
  ((f.slideRow row).physCol (4 * (pos % 8) + i % 4), row)

/-- The plot position and the slice that a physical core carries; none for a spare, a fenced core or a LOST half-row. -/
def coreOwner (s : State) (f col row : Nat) : Option (Nat × Nat) :=
  (((fieldOf s f).slideRow row).logicalCol col).map (fun c => (positionAt c row, sliceAt c row))

/-- The logical plot that a position of a field carries. -/
def plotAtPos (s : State) (f pos : Nat) : Option Nat := ((fieldOf s f).plotAt pos).map (fun i => 64 * f + i)

/-- The slice of an assigned plot that a physical core carries: a job core (R437). -/
def jobSlice (s : State) (f col row : Nat) : Option (Nat × Nat) :=
  match coreOwner s f col row with
  | none => none
  | some (pos, i) => match plotAtPos s f pos with
    | none => none
    | some p => if (plotOf s p).assigned then some (p, i) else none

/-- Keys of the job cores of a field. -/
def jobCores (s : State) (f : Nat) : List Nat :=
  (s.job.plots.filter (fun p => fieldOfPlot p = f)).flatMap (fun p => (List.range 16).map (fun i =>
    coreKey (sliceCore s p i).1 (sliceCore s p i).2))

/-- Is a core among the fences whose remap has still to run? -/
def Field.coreFenced (f : Field) (col row : Nat) : Bool := f.fenceDue.any (fun d => match d with
  | .core c r _ => c = col && r = row
  | .plot _ => false
  | .position _ => false)

/-- Has a finding fenced the core of a slice, so that it is stopped until the slide (R190)? -/
def coreDue (s : State) (p i : Nat) : Bool :=
  (fieldOf s (fieldOfPlot p)).coreFenced (sliceCore s p i).1 (sliceCore s p i).2

/-- Chunk time of a core in the last second, job or not (R339, R439). -/
def CoreTest.spentSince (c : CoreTest) (now : U64) (job : Bool) : Nat :=
  (c.spent.filter (fun e => e.2.2 == job && within now 1 e.1)).foldl (fun n e => n + e.2.1) 0

/-- A chunk ends after some µs, which count for the budget (R439). -/
def CoreTest.spend (c : CoreTest) (now : U64) (us : Nat) : CoreTest :=
  match c.chunk with
  | none => c
  | some (start, _, job) => { c with chunk := none, spent := c.spent.filter (fun e => within now 1 e.1) ++ [(start, us, job)] }

/-- A chunk is abandoned, its core restored; the time that it took counts (R435, R439). -/
def CoreTest.abandon (c : CoreTest) (now : U64) : CoreTest :=
  match c.chunk with
  | none => c
  | some (start, n, _) => c.spend now (min n ((now - start).toNat / 25))

def coreTest (s : State) (f col row : Nat) : CoreTest := Tab.get (fieldOf s f).cores (coreKey col row) CoreTest.empty

def updCore (f col row : Nat) (g : CoreTest → CoreTest) : State → State :=
  updField f (fun v => { v with cores := Tab.upd v.cores (coreKey col row) CoreTest.empty g })

/-- Does a chunk run on the core of a slice (R438)? -/
def inChunk (s : State) (p i : Nat) : Bool :=
  (coreTest s (fieldOfPlot p) (sliceCore s p i).1 (sliceCore s p i).2).chunk.isSome

/-! ## Foresight warnings (R450, R451) -/

/-- A foresight warning: recorded once, in force until the next start (R450, R451). -/
def warn (kind srcKind object : Nat) (value threshold : Int) (e : EventRec) (s : State) : State :=
  if s.health.any (fun w => w.kind = kind && w.object = object) then
    mapHealth (fun l => l.map (fun w => if w.kind = kind && w.object = object then { w with value := value, last := s.ctl.localTime } else w)) s
  else
    record { e with code := 0x0501, cls := 5,
                    detail := BitVec.ofNat 128 (pack [(8, kind), (32, toBits 32 value), (32, toBits 32 threshold)]) }
      (mapHealth (fun l => l ++ [⟨kind, srcKind, object, value, threshold, s.ctl.localTime, s.ctl.localTime⟩]) s)

/-- Half-rows of a field whose spare is in use or fenced. -/
def sparesUsed (s : State) (f : Nat) : Nat :=
  (fieldOf s f).slide.foldl (fun n e => n + flag (decide (e.2.west ≠ 31)) + flag (decide (e.2.east ≠ 31))) 0

/-- Spares in use or fenced in more than 16 half-rows of a field warn (R450 kind 0x0E). -/
def spareWarning (f : Nat) (s : State) : State :=
  if 16 < sparesUsed s f then warn 0x0E 1 f (sparesUsed s f) 16 ((ev 0 0 []).atField f) s else s

/-- A field that has used all four generations of its fuse map warns (R409, R450 kind 0x0F). -/
def generationWarning (f : Nat) (s : State) : State :=
  if 4 ≤ (fuseGens s f).length then warn 0x0F 1 f (fuseGens s f).length 4 ((ev 0 0 []).atField f) s else s

/-- RECOVERED events of a field within the last 3,600 s (R450), from the event ring. -/
def recoveredEvents (s : State) (f : Nat) : Nat :=
  (s.evt.ring.filter (fun e => e.2.cls = 2 && e.2.code ≠ 0xFF && within s.ctl.localTime 3600 e.2.time
    && ((e.2.srcKind = 1 && e.2.field = f) || ((e.2.srcKind = 2 || e.2.srcKind = 3) && fieldOfPlot e.2.plot = f)))).length

/-- More than 100 RECOVERED events of a field within 3,600 s warn (R450 kind 0x10). -/
def recoveredWarning (f : Nat) (s : State) : State :=
  if 100 < recoveredEvents s f then warn 0x10 1 f (recoveredEvents s f) 100 ((ev 0 0 []).atField f) s else s

end Sys2Proof.Machine
end

