-- ==== Sys2Proof/Machine/Trellis.lean ====
section
/-! DEFINITION. The trellis (R177 to R182, R184, R188, R189, R200, R429): edge gateways, routes within a field and between fields, the
arbitration of the routers, and the hold pools. A command's packets reach their destinations before it ends; what stays from one command to
the next is what a hold keeps, and the turn of each output (log entry 101). -/

namespace Sys2Proof.Machine

open Sys2Proof

/-! ## Edges (R178) -/

/-- The outward edge of a field, where its stacks are: north for fields 0 to 3, south for 4 to 7. -/
def outwardEdge (f : Nat) : Nat := if f < 4 then 0 else 2

/-- The router behind a gateway. -/
def edgeRouter (edge idx : Nat) : Nat × Nat := match edge with | 0 => (idx, 0) | 1 => (33, idx) | 2 => (idx, 31) | _ => (0, idx)

/-- What is attached to the outward link of an edge router. -/
inductive EdgeAgent where
  | stack (stack channel : Nat)
  | hub
  | bridge (b : Nat)
  | port (port : Nat)
  deriving DecidableEq, Repr

/-- The bridge that joins two fields. -/
def bridgeBetween (f g : Nat) : Option Nat :=
  (List.range 10).find? (fun b => decide (bridgeEnds b = (f, g)) || decide (bridgeEnds b = (g, f)))

/-- The agents of the gateway at an edge of a field and a column or row of it: two channels of a stack, the hub's control bridge, a pergola bridge, a
port with the bridge beside it. -/
def edgeAgents (f edge idx : Nat) : List EdgeAgent :=
  let bridge := fun (g : Nat) => (bridgeBetween f g).toList.map EdgeAgent.bridge
  if edge % 2 = 0 then
    if edge = (if f < 4 then 0 else 2) then
      if idx = 16 || idx = 17 then [.hub]
      else
        let k := if idx < 8 then 0 else if idx < 16 then 1 else if idx < 26 then 2 else 3
        let c := idx - (match k with | 0 => 0 | 1 => 8 | 2 => 18 | _ => 26)
        [.stack (4 * f + k) (2 * c), .stack (4 * f + k) (2 * c + 1)]
    else bridge (if f < 4 then f + 4 else f - 4)
  else if edge = 3 then .port (2 * f) :: (if f % 4 = 0 then [] else bridge (f - 1))
  else .port (2 * f + 1) :: (if f % 4 = 3 then [] else bridge (f + 1))

/-- The column of a stack channel on the outward edge. -/
def stackColumn (stack channel : Nat) : Nat := (match stack % 4 with | 0 => 0 | 1 => 8 | 2 => 18 | _ => 26) + channel / 2

/-- The field and the gateway of the stack channel that holds a physical byte. -/
def stackGateway (x : Nat) : Nat × Site :=
  let pc := x / 2 ^ 31
  (pc / 128, .gateway (outwardEdge (pc / 128)) (stackColumn (pc / 32) (pc % 32 / 2)))

/-- The edge at which a field's bridge to another field lies. -/
def bridgeEdge (f g : Nat) : Nat := if g = f + 1 then 1 else if f = g + 1 then 3 else if f < g then 2 else 0

/-! ## Routes within a field (R181, R182) -/

/-- Is a router live: not a pass-through router (R182)? -/
def Field.routerLive (f : Field) (col row : Nat) : Bool := !f.through.contains (col, row)

def apart (a b : Nat) : Nat := (a - b) + (b - a)

/-- Of some columns or rows the one nearest to the destination's, on a tie toward the source. -/
def nearestTurn (src dest : Nat) (l : List Nat) : Option Nat :=
  l.foldl (fun b c => match b with
    | none => some c
    | some k => if decide (apart c dest < apart k dest) || (apart c dest = apart k dest && decide (apart c src < apart k src)) then some c else some k) none

/-- The corners of the routes from a router to another, in the order of preference, the destination last: routes 1 to 3 of R181, and a detour over a row
where none of them does (log entry 120, DESIGN CHOICE). -/
def Field.cornersOf (f : Field) (a b : Nat × Nat) : List (List (Nat × Nat)) :=
  [[(b.1, a.2), b], [(a.1, b.2), b]]
    ++ (nearestTurn a.1 b.1 ((List.range 34).filter (fun c => f.routerLive c a.2 && f.routerLive c b.2))).toList.map (fun c => [(c, a.2), (c, b.2), b])
    ++ (nearestTurn a.2 b.2 ((List.range 32).filter (fun r => f.routerLive a.1 r && f.routerLive b.1 r))).toList.map (fun r => [(a.1, r), (b.1, r), b])

/-- The direction from a router toward another in its row or column: 0 north, 1 east, 2 south, 3 west. -/
def direction (a b : Nat × Nat) : Nat := if a.1 < b.1 then 1 else if b.1 < a.1 then 3 else if a.2 < b.2 then 2 else 0

/-- The neighbour of a router in a direction. -/
def neighbour (a : Nat × Nat) (dir : Nat) : Nat × Nat :=
  match dir with
  | 0 => (a.1, a.2 - 1)
  | 1 => (a.1 + 1, a.2)
  | 2 => (a.1, a.2 + 1)
  | _ => (a.1 - 1, a.2)

/-- The outputs that a packet takes in a straight line: routers left, with the direction. -/
def straight (dir n : Nat) (a : Nat × Nat) : List (Nat × Nat × Nat) :=
  match n with
  | 0 => []
  | n + 1 => (a.1, a.2, dir) :: straight dir n (neighbour a dir)

/-- Steps between two routers of a row or column. -/
def stepsBetween (a b : Nat × Nat) : Nat := (a.1 - b.1) + (b.1 - a.1) + (a.2 - b.2) + (b.2 - a.2)

/-- The outputs along corners. -/
def along (a : Nat × Nat) (l : List (Nat × Nat)) : List (Nat × Nat × Nat) :=
  match l with
  | [] => []
  | b :: r => straight (direction a b) (stepsBetween a b) a ++ along b r

/-- The routers at which a packet changes its direction. -/
def turnsIn (l : List (Nat × Nat × Nat)) : List (Nat × Nat) :=
  match l with
  | a :: b :: r => if a.2.2 ≠ b.2.2 && decide (b.2.2 < 4) then (b.1, b.2.1) :: turnsIn (b :: r) else turnsIn (b :: r)
  | _ => []

/-- The outputs from a router to another and there the output `last`: those of the first route whose turning routers are all live, the turn toward an
outward link among them (R181). Where no route has that, the first one (log entry 120, DESIGN CHOICE). -/
def Field.routed (f : Field) (a b : Nat × Nat) (last : Nat) : List (Nat × Nat × Nat) :=
  let l := (f.cornersOf a b).map (fun c => along a c ++ [(b.1, b.2, last)])
  (l.find? (fun o => (turnsIn o).all (fun r => f.routerLive r.1 r.2))).getD (l.headD [])

/-- A gateway behind a pass-through router: the outputs of the first hops, straight inward, and the router from which the packet is routed. -/
def Field.inward (f : Field) (dir n : Nat) (a : Nat × Nat) : List (Nat × Nat × Nat) × (Nat × Nat) :=
  match n with
  | 0 => ([], a)
  | n + 1 => if f.routerLive a.1 a.2 then ([], a)
    else
      let r := f.inward dir n (neighbour a dir)
      ((a.1, a.2, dir) :: r.1, r.2)

/-- The outputs of a packet in a field, from where it is injected to a router, and there the output `last`: 4 is the local port. -/
def Field.outputs (f : Field) (site : Site) (dest : Nat × Nat) (last : Nat) : List (Nat × Nat × Nat) :=
  let start := match site with
    | .router c r => ([], (c, r))
    | .gateway e i => f.inward ((e + 2) % 4) 33 (edgeRouter e i)
  start.1 ++ f.routed start.2 dest last

/-! ## Routes between fields (R184) -/

/-- An output of a router that a packet takes, with the input at which it came (4 the local port) and its virtual channel (R179). -/
structure Hop where
  field : Nat
  col : Nat
  row : Nat
  out : Nat
  input : Nat
  vc : Nat
  deriving DecidableEq, Repr

/-- The key of the output in its field. -/
def Hop.key (h : Hop) : Nat := (h.col * 32 + h.row) * 5 + h.out

/-- Inputs and virtual channels along a list of outputs, for a packet that travels in direction `dir`: it is on channel 1 from its first turn from a
column into a row on (R179). -/
def hopsFrom (f dir vc : Nat) (l : List (Nat × Nat × Nat)) : List Hop :=
  match l with
  | [] => []
  | o :: r =>
    let v := if dir % 2 = 0 && o.2.2 % 2 = 1 then 1 else vc
    ⟨f, o.1, o.2.1, o.2.2, (dir + 2) % 4, v⟩ :: hopsFrom f o.2.2 v r

/-- The input at which a packet enters its first router. -/
def Site.input : Site → Nat
  | .router _ _ => 4
  | .gateway e _ => e

/-- Has a packet come over a vertical bridge to where it enters a field? It then travels along a column already; an agent's packet begins there, and its
first hop is no turn (R179, R181; log entry 120). -/
def Site.crossed (f : Nat) : Site → Bool
  | .router _ _ => false
  | .gateway e _ => e % 2 = 0 && e ≠ outwardEdge f

/-- The hops of a packet in a field. -/
def hopsOf (f : Nat) (site : Site) (vc : Nat) (l : List (Nat × Nat × Nat)) : List Hop :=
  match l with
  | [] => []
  | o :: r =>
    let v := if site.crossed f && o.2.2 % 2 = 1 then 1 else vc
    ⟨f, o.1, o.2.1, o.2.2, site.input, v⟩ :: hopsFrom f o.2.2 v r

def Goal.field : Goal → Nat
  | .slice p _ => fieldOfPlot p
  | .edge f _ _ => f

/-- The router to which a goal translates (R180). -/
def Goal.router (s : State) : Goal → Nat × Nat
  | .slice p i => sliceCore s p i
  | .edge _ e i => edgeRouter e i

/-- The output that a packet takes at its last router. -/
def Goal.last : Goal → Nat
  | .slice _ _ => 4
  | .edge _ e _ => e

/-- A packet's stay in one field: where it enters, on which virtual channel, its hops there. -/
structure Leg where
  field : Nat
  site : Site
  vc : Nat
  hops : List Hop
  deriving DecidableEq, Repr

/-- A packet's way to a router of a field and the output `last` there, translated when it is injected (R180). It leaves a field at the exit edge of the
field route table, in the destination's column or row, and keeps it across the bridge (R184). -/
def legsVia (s : State) (f : Nat) (site : Site) (vc g : Nat) (dest : Nat × Nat) (last fuel : Nat) : List Leg :=
  match fuel with
  | 0 => []
  | n + 1 =>
    if f = g then [⟨f, site, vc, hopsOf f site vc ((fieldOf s f).outputs site dest last)⟩]
    else match Tab.get (fieldOf s f).routes g none with
      | none => [⟨f, site, vc, []⟩]
      | some b =>
        let h := if (bridgeEnds b).1 = f then (bridgeEnds b).2 else (bridgeEnds b).1
        let e := bridgeEdge f h
        let i := if e % 2 = 0 then dest.1 else dest.2
        let l := hopsOf f site vc ((fieldOf s f).outputs site (edgeRouter e i) e)
        ⟨f, site, vc, l⟩ :: legsVia s h (.gateway ((e + 2) % 4) i) ((l.getLast?.map (·.vc)).getD vc) g dest last n

/-- The way of a packet to its goal. -/
def legsTo (s : State) (f : Nat) (site : Site) (vc : Nat) (goal : Goal) : List Leg :=
  legsVia s f site vc goal.field (goal.router s) goal.last 8

/-! ## Arbitration (R179) -/

/-- The input of a hop as its router's arbiter counts it: input port, class, virtual channel. -/
def Hop.code (h : Hop) (cls : Nat) : Nat := h.input * 6 + cls * 2 + h.vc

/-- The outputs of some hops granted. -/
def grantHops (cls : Nat) (l : List Hop) (s : State) : State :=
  forEach l (fun h => updTrellis h.field (fun t => { t with turns := Tab.set t.turns h.key (h.code cls) })) s

/-- Of some hops the first at each output of each field. -/
def firstAt (l : List Hop) : List Hop :=
  match l with
  | [] => []
  | h :: r => h :: (firstAt r).filter (fun v => !(v.field = h.field && v.key = h.key))

/-- A multicast response (R200): each link carries at most one copy, so each output on the ways of its copies is granted once. -/
def grantUnion (cls : Nat) (ways : List (List Hop)) : State → State := grantHops cls (firstAt ways.flatten)

/-- A packet in the trellis of a field: the hops it has still to make there, the mesh cycles it has waited at its router, and whether it has left
the place where it was kept. -/
structure Flight where
  hops : List Hop
  waited : Nat
  entered : Bool
  parcel : Parcel
  deriving DecidableEq, Repr

def Flight.key (v : Flight) : Option Nat := v.hops.head?.map Hop.key

/-- The order in which an output takes its inputs: one that has waited 64 mesh cycles first, then round-robin from the input granted last. -/
def Flight.rank (turns : Tab Nat) (v : Flight) : Nat :=
  match v.hops with
  | [] => 0
  | h :: _ => if 64 ≤ v.waited then 0 else 1 + (h.code v.parcel.cls + 30 - Tab.get turns h.key 29 - 1) % 30

/-- The packets that stand at an output in this cycle: those in the trellis, and of each class at each place where packets are kept the one that arrived
there first (R189). -/
def atOutputs (l : List Flight) : List (Flight × Nat) :=
  l.zipIdx.filter (fun e => e.1.entered ||
    !(l.take e.2).any (fun v => !v.entered && v.parcel.site = e.1.parcel.site && v.parcel.cls = e.1.parcel.cls))

/-- Does the k-th packet win its output in this cycle against the others there? Of one input, and of several that have each waited 64 mesh cycles, the
first in the list does (log entry 120, DESIGN CHOICE). -/
def winsOutput (turns : Tab Nat) (l : List (Flight × Nat)) (k : Nat) (v : Flight) : Bool :=
  l.any (fun e => e.2 = k) &&
    l.all (fun e => e.1.key ≠ v.key || e.2 = k || decide (v.rank turns < e.1.rank turns) || (v.rank turns = e.1.rank turns && decide (k < e.2)))

/-- One mesh cycle: every output grants one packet, which makes its hop; the packets delivered, those still on their way, the turns. -/
def meshCycle (turns : Tab Nat) (l : List Flight) : List Parcel × List Flight × Tab Nat :=
  let m := l.zipIdx.map (fun e => (e.1, winsOutput turns (atOutputs l) e.2 e.1))
  (m.filterMap (fun e => if e.2 && decide (e.1.hops.length ≤ 1) then some e.1.parcel else none),
   m.filterMap (fun e => if !e.2 then some { e.1 with waited := e.1.waited + 1 }
     else if e.1.hops.length ≤ 1 then none else some { e.1 with hops := e.1.hops.drop 1, waited := 0, entered := true }),
   m.foldl (fun t e => match e.1.hops with
     | [] => t
     | h :: _ => if e.2 then Tab.set t h.key (h.code e.1.parcel.cls) else t) turns)

/-- Mesh cycles until every packet is delivered: the order of arrival, and the turns. -/
def flyAll (fuel : Nat) (turns : Tab Nat) (l : List Flight) : List Parcel × Tab Nat :=
  match fuel with
  | 0 => (l.map (·.parcel), turns)
  | n + 1 => if l.isEmpty then ([], turns)
    else
      let c := meshCycle turns l
      let r := flyAll n c.2.2 c.2.1
      (c.1 ++ r.1, r.2)

/-! ## Holds (R188, R189, R429) -/

/-- The plot position that a logical plot stands at. -/
def plotPosition (s : State) (p : Nat) : Nat := ((fieldOf s (fieldOfPlot p)).entry (p % 64)).position

/-- Is the traffic of a plot held? -/
def plotHeld (s : State) (p : Nat) : Bool := (trellisOf s (fieldOfPlot p)).hold.contains (plotPosition s p)

/-- Is the destination of a packet in a field held there? -/
def goalHeld (s : State) (f : Nat) (goal : Goal) : Bool := match goal with
  | .slice p _ => fieldOfPlot p = f && plotHeld s p
  | .edge _ _ _ => false

/-- Does an agent stall on a class (R189)? -/
def agentStalls (s : State) (f : Nat) (site : Site) (cls : Nat) : Bool := (trellisOf s f).stalled.any (fun v => v.site = site && v.cls = cls)

/-- Does a packet of a class stay where it enters a field: its destination is held, or the agent there stalls on its class? -/
def keptBack (s : State) (cls : Nat) (goal : Goal) (l : Leg) : Bool := goalHeld s l.field goal || agentStalls s l.field l.site cls

/-- The hops that a packet makes before it is kept. -/
def openHops (s : State) (cls : Nat) (goal : Goal) (l : List Leg) : List Hop := (l.takeWhile (fun v => !keptBack s cls goal v)).flatMap (·.hops)

/-- Packets that a pool takes. -/
def Site.poolSize : Site → Nat
  | .router _ _ => 256
  | .gateway _ _ => 2048

/-- A packet kept where it was injected: in the hold pool, or, when that is full, with its agent, which stalls. -/
def Trellis.keep (v : Parcel) (t : Trellis) : Trellis :=
  if t.stalled.any (fun q => q.site = v.site && q.cls = v.cls) || decide (v.site.poolSize ≤ (t.pools.filter (fun q => q.site = v.site)).length) then
    { t with stalled := t.stalled ++ [v] }
  else { t with pools := t.pools ++ [v] }

/-- Must a packet that a port's gateway would inject stay in its receive buffers: it would be kept, and the gateway's hold pool is full or its class stalled (R269)? -/
def portStalls (s : State) (f : Nat) (site : Site) (cls : Nat) (goal : Goal) : Bool :=
  agentStalls s f site cls
    || (goalHeld s f goal && decide (site.poolSize ≤ ((trellisOf s f).pools.filter (fun v => v.site = site)).length))

/-- A packet kept in the field where it was injected or came in over a bridge. -/
def park (v : Parcel) : State → State := updTrellis v.field (Trellis.keep v)

/-- A packet at the end of its way, or kept where it may not go on: `kept` says what its sender notes then. -/
def arrive (legs : List Leg) (cls : Nat) (goal : Goal) (cargo : Cargo) (kept deliver : State → State) (s : State) : State :=
  match legs.find? (keptBack s cls goal) with
  | some l => park ⟨l.field, l.site, l.vc, cls, goal, cargo⟩ (kept s)
  | none => deliver s

/-- A packet sent along its way: the outputs that it takes are granted. -/
def carryLegs (legs : List Leg) (cls : Nat) (goal : Goal) (cargo : Cargo) (kept deliver : State → State) (s : State) : State :=
  arrive legs cls goal cargo kept deliver (grantHops cls (openHops s cls goal legs) s)

/-- A packet injected for its goal. -/
def carry (f : Nat) (site : Site) (cls : Nat) (goal : Goal) (cargo : Cargo) (kept deliver : State → State) (s : State) : State :=
  carryLegs (legsTo s f site 0 goal) cls goal cargo kept deliver s

/-- The hold bits of positions set (R188 step 1). -/
def setHold (f : Nat) (l : List Nat) : State → State := updTrellis f (fun t => { t with hold := l })

/-- The way on of a kept packet. -/
def Parcel.legs (s : State) (v : Parcel) : List Leg := legsTo s v.field v.site v.vc v.goal

/-- The packets that leave the hold pools of a field, and then those of the agents that stalled, when no hold bit stands any more: the state, and
the packets in the order in which they have crossed the field (R188 step 4, R429). They are translated now (R180), and those of one class leave one place in the
order in which they arrived there (R189). -/
def leaveHold (f : Nat) (s : State) : State × List Parcel :=
  let t := trellisOf s f
  let l := (t.pools ++ t.stalled).map (fun v => Flight.mk ((v.legs s).headD ⟨f, v.site, v.vc, []⟩).hops 0 false v)
  let r := flyAll (l.foldl (fun n v => n + v.hops.length + 1) 0 + 64) t.turns l
  (updTrellis f (fun t => { t with hold := [], pools := [], stalled := [], turns := r.2 }) s, r.1)

end Sys2Proof.Machine
end

