-- ==== Sys2Proof/Machine/Track.lean ====
section
/-! DEFINITION. Tracked requests (R194): where the answer to a request lands, and how a request ends, whether a stack
controller of this module or a remote module answers it. -/

namespace Sys2Proof.Machine

open Sys2Proof

def transferOf (s : State) (f t : Nat) : Option Transfer := Tab.find (fieldOf s f).transfers t
def commitOf (s : State) (f c : Nat) : Option Commit := Tab.find (fieldOf s f).commits c
def requestOf (s : State) (f r : Nat) : Option MemReq := Tab.find (fieldOf s f).requests r

def updTransfer (f t : Nat) (g : Transfer → Transfer) : State → State :=
  updField f (fun fl => match Tab.find fl.transfers t with
    | none => fl
    | some v => { fl with transfers := Tab.set fl.transfers t (g v) })

def updCommit (f c : Nat) (g : Commit → Commit) : State → State :=
  updField f (fun fl => match Tab.find fl.commits c with
    | none => fl
    | some v => { fl with commits := Tab.set fl.commits c (g v) })

def updRequest (f r : Nat) (g : MemReq → MemReq) : State → State :=
  updField f (fun fl => match Tab.find fl.requests r with
    | none => fl
    | some v => { fl with requests := Tab.set fl.requests r (g v) })

/-- The slice whose slot part a request fills. -/
def requestTarget (s : State) (f r : Nat) : Option (Nat × Nat) :=
  match requestOf s f r with
  | none => none
  | some q => match q.dest with
    | .fill _ p i _ => some (p, i)
    | _ => none

/-- A new tracked request of a field: its number. -/
def addRequest (f : Nat) (r : MemReq) : State → State :=
  updField f (fun fl => { fl with requests := Tab.set fl.requests fl.nextId r, nextId := fl.nextId + 1 })

/-- A request whose answer has come leaves the table (R194). -/
def endRequest (f r : Nat) : State → State :=
  updField f (fun fl => { fl with requests := Tab.erase fl.requests r })

/-- Data of a fill lands in its slot part: clean bytes are stored; poisoned ones become uncorrectable words and set the part's
poison bit at once (R65, R82). The flag travels with a piece of a transfer as a whole: every word of a poisoned piece becomes
uncorrectable (log entry 102, DESIGN CHOICE). -/
def landFill (f t off : Nat) (bs : List Byte) (poisoned : Bool) (s : State) : State :=
  match transferOf s f t with
  | none => s
  | some tr =>
    let a := (sliceOf s tr.plot tr.slice).partBase tr.slot tr.part + off
    if poisoned then
      updTransfer f t (fun v => { v with poisoned := true })
        (updSlice tr.plot tr.slice (fun sl => sl.poisonPart tr.slot tr.part) (spadPoison tr.plot tr.slice a bs.length s))
    else (spadStore tr.plot tr.slice a bs 0 (sourceSlice s tr.plot tr.slice) s).1

/-- One more packet of a tracked request kept in a hold pool, or one fewer. -/
def holdOne (f rid : Nat) : State → State := updRequest f rid (fun v => { v with held := v.held + 1 })
def freeOne (f rid : Nat) : State → State := updRequest f rid (fun v => { v with held := v.held - 1 })

/-- The router of a slice's core. -/
def sliceSite (s : State) (p i : Nat) : Site := .router (sliceCore s p i).1 (sliceCore s p i).2

/-- The column or row in which a packet that enters a field at a place stands, for an edge (R178: 'straight to the edge in its current column or row'). -/
def Site.lane (edge : Nat) : Site → Nat
  | .router c r => if edge % 2 = 0 then c else r
  | .gateway e i => if edge % 2 = 0 then (edgeRouter e i).1 else (edgeRouter e i).2

/-- The answer to a write of a commit: a Failed one is remembered until every write has been answered (R104). -/
def landCommit (f c : Nat) (failed : Bool) : State → State :=
  onlyIf failed (updCommit f c (fun v => { v with bad := true }))

/-- A request to a slice's scratchpad ends: its data lands, or its write has been made; poisoned or failed on a double-bit error (R82). -/
def endAccess (f rid : Nat) (data : List Byte) (failed : Bool) (s : State) : State :=
  match requestOf s f rid with
  | none => s
  | some q =>
    let s1 := endRequest f rid s
    match q.dest with
    | .fill t _ _ off => landFill f t off data failed s1
    | .commit c => landCommit f c failed s1
    | .window _ _ => s1

/-- The answer of a scratchpad on its way: the data of a read to the slice that it fills, in whose hold pool's reach it may have to wait (R188), the
acknowledgement of a write to the DMA engine, beside the outward edge of its field (R193; log entry 101). -/
def answerAccess (f rid p i : Nat) (data : List Byte) (failed : Bool) (s : State) : State :=
  match requestOf s f rid with
  | none => s
  | some q =>
    let site := sliceSite s p i
    carry (fieldOfPlot p) site 1 (if q.write then .edge f (outwardEdge f) (site.lane 0) else .slice q.plot q.slice) (.data f rid data failed) (holdOne f rid)
      (endAccess f rid data failed) s

/-- A request to a scratchpad of a field that is lost. -/
def failAccess (f rid : Nat) (s : State) : State :=
  endAccess f rid (List.replicate (((requestOf s f rid).map (·.len)).getD 0) 0#8) true s

/-- Do requests of a field still wait for a fill or a commit? -/
def ReqDest.isFill (d : ReqDest) (t : Nat) : Bool := match d with | .fill t' _ _ _ => t' = t | _ => false
def ReqDest.isCommit (d : ReqDest) (c : Nat) : Bool := match d with | .commit c' => c' = c | _ => false

def fillPending (s : State) (f t : Nat) : Bool :=
  (fieldOf s f).requests.any (fun e => e.2.dest.isFill t) || s.mesh.remote.any (fun e => e.2.field = f && e.2.dest.isFill t)

def commitPending (s : State) (f c : Nat) : Bool :=
  (fieldOf s f).requests.any (fun e => e.2.dest.isCommit c) || s.mesh.remote.any (fun e => e.2.field = f && e.2.dest.isCommit c)

/-- A remote request ends with its answer: data for a read, of which the request asked from the 64-byte line on (none: Failed, which
delivers poison, R255, R296), the outcome for a write. -/
def landRemote (tag : Nat) (data : Option (List Byte)) (poisoned failed : Bool) (s : State) : State :=
  match Tab.find s.mesh.remote tag with
  | none => s
  | some r =>
    let s := mapMesh (fun m => { m with remote := Tab.erase m.remote tag }) s
    match r.dest with
    | .fill t _ _ off => landFill r.field t off (bytesAt (data.getD []) (r.addr % 64) r.len) (poisoned || data.isNone) s
    | .commit c => landCommit r.field c (failed || data.isNone) s
    | .window _ _ => s

/-- The answer of a remote module arrives. It enters the trellis of the requesting field at the west edge, in the destination's row (log entry 101),
and is held while its plot is (R194: its request stays tracked). -/
def answerRemote (tag : Nat) (data : Option (List Byte)) (poisoned failed : Bool) (s : State) : State :=
  match Tab.find s.mesh.remote tag with
  | none => s
  | some r =>
    if r.held then s
    else match r.dest with
      | .fill _ p i _ =>
        carry r.field (.gateway 3 (sliceCore s p i).2) 1 (.slice p i) (.answer tag data poisoned failed)
          (mapMesh (fun m => { m with remote := Tab.set m.remote tag { r with held := true } })) (landRemote tag data poisoned failed) s
      | _ => landRemote tag data poisoned failed s

/-- A remote request answered Failed (R255, R296). -/
def failRemote (tag : Nat) : State → State := answerRemote tag none true true

end Sys2Proof.Machine
end

