-- ==== Sys2Proof/Machine/Ports.lean ====
section
/-! DEFINITION. The operations of a port that several commands share: flits and credits (R247 to R254), the choice of a route
(R287, R288), a port that goes down (R255, R265, R289), narrowing (R261, R267), and the port report (R264). -/

namespace Sys2Proof.Machine

open Sys2Proof

/-! ## State of a port -/

/-- UP or NARROW. -/
def Port.carries (p : Port) : Bool := p.pstate = 0 || p.pstate = 1

/-- The active lanes that both ends hold healthy: they carry flits, and the next change narrows to them (R267). -/
def Port.remaining (p : Port) : BitVec 8 := p.active &&& p.laneMask

/-- Receive buffers of a class, in flits (R251). -/
def classBuffers (cls : Nat) : Nat :=
  match cls with
  | 0 => 8192
  | 1 => 2048
  | 2 => 512
  | _ => 1536

def laneCount (m : BitVec 8) : Nat := (bitsOf m.toNat 8).length

/-- The width that a number of lanes allows: the largest of 8, 6, 4 and 2 (R261), or 0. -/
def widthOf (n : Nat) : Nat := if 8 ≤ n then 8 else if 6 ≤ n then 6 else if 4 ≤ n then 4 else if 2 ≤ n then 2 else 0

/-- The lowest-numbered lanes of a mask, as many as its width (R261). -/
def lowestLanes (m : BitVec 8) : BitVec 8 :=
  BitVec.ofNat 8 (maskOf ((bitsOf m.toNat 8).take (widthOf (laneCount m))))

/-- UP at width 8, NARROW at 6, 4 or 2, DOWN otherwise (R261). -/
def stateOfWidth (w : Nat) : Nat := if w = 8 then 0 else if w = 0 then 2 else 1

/-- The cable serial in the identity record of port `p` (R386, R387). -/
def cableSerial (s : State) (p : Nat) : Nat := numAt ((idRecord s (7 + p)).getD []) 0x08 12

/-- Word 0x00 of a port report (R264). A port that is still training reports DOWN without a reason (log entry 12). -/
def Port.reportWord (p : Port) : Nat :=
  pack [(2, if p.pstate = 3 then 2 else p.pstate), (2, p.trainedBy), (4, if p.pstate = 2 then p.reason else 0),
    (8, p.active.toNat), (8, p.qualified.toNat), (1, flag p.hostRole), (1, flag p.forbidDrop)]

/-- A port report (R264). -/
def portReport (s : State) (i : Nat) : List Byte :=
  let p := portOf s i
  lay [(4, p.reportWord), (4, ((p.partnerMesh.map (·.toNat)).getD 0xFFFF)), (12, cableSerial s i), (12, p.partnerSerial.toNat)]

/-- PORT_CHANGE with word 0x00 of the report (R345); MODULE when the port now degrades the module, else INFO (R484). -/
def notePort (i : Nat) (s : State) : State :=
  let p := portOf s i
  record ((ev 0x0301 (if p.degrades then 4 else 0) [(32, p.reportWord)]).atPort i) s

/-! ## Frames and alignment blocks (R245, R246) -/

/-- `FRAME_NO`: whole lane frames of 10.88 µs, 272 ticks of 40 ns, since the end of training (R245, R246). -/
def frameOf (now : U64) (p : Port) : Nat := (now - p.trainedAt).toNat / 272 % 2 ^ 32

/-- The value of `MARKER` (R246). -/
def alignMarker : Nat := 0x3C5AE1960FF0A55A

/-- The bits of a sequence that a shift register of `n` bits feeds back from taps `a` and `b`, where `mix` says what enters beside the taps. -/
def lfsrBits (n a b : Nat) (mix : List Bool) (st : Nat) : List Bool :=
  match mix with
  | [] => []
  | m :: r =>
    let o := m ^^ bit st (a - 1) ^^ bit st (b - 1)
    o :: lfsrBits n a b r ((2 * st + flag o) % 2 ^ n)

/-- The state of the register after the bits. -/
def lfsrEnd (n : Nat) (out : List Bool) (st : Nat) : Nat := out.foldl (fun st o => (2 * st + flag o) % 2 ^ n) st

/-- The bits of bytes, the least significant of each byte first, and back (log entry 123). -/
def bitsOfBytes (l : List Byte) : List Bool := l.flatMap (fun b => (List.range 8).map (bit b.toNat))

def bytesOfBits (l : List Bool) : List Byte :=
  (List.range (l.length / 8)).map (fun i => BitVec.ofNat 8 (maskOf ((List.range 8).filter (fun k => (l.drop (8 * i + k)).head?.getD false))))

/-- `FILL`: PRBS31 (x^31 + x^28 + 1), restarted at each block (R246). -/
def alignFill : List Byte := bytesOfBits (lfsrBits 31 31 28 (List.replicate (8 * 1674) false) Config.prbsStart.toNat)

/-- `LINK_STATE`: 2 RUNNING of a port that has trained, 1 QUALIFYING in step 6 of a training, else 0 TRAINING (R246, R256). -/
def linkState (p : Port) (qualifying : Bool) : Nat := if p.carries then 2 else flag qualifying

/-- The alignment block that lane `lane` of port `i` sends (R246): `info` are the equaliser requests and responses, zero outside TRAINING. -/
def alignBytes (s : State) (i lane : Nat) (qualifying : Bool) (info : List Byte) : List Byte :=
  let p := portOf s i
  lay [(8, alignMarker), (1, lane % 8), (1, i % 16), (2, (s.mesh.addr.getD 0xFFFF#16).toNat), (4, frameOf s.ctl.localTime p), (12, Config.serial.toNat),
    (1, p.remaining.toNat), (1, linkState p qualifying)]
  ++ (if linkState p qualifying = 0 then (info ++ List.replicate 226 0#8).take 226 else List.replicate 226 0#8) ++ alignFill

/-- The self-synchronous scrambler of polynomial x^58 + x^39 + 1 (R245). -/
def scramble (l : List Byte) : List Byte := bytesOfBits (lfsrBits 58 58 39 (bitsOfBytes l) Config.scramblerStart.toNat)

/-! ## Packets as bytes (R168, R274, R275, R293, R367) -/

/-- Bytes of a packet: header, body, and the GCM tag of one that is still to be sealed. -/
def pktBytes (p : Pkt) : Nat := 24 + p.body.length + (if p.key.isSome then 16 else 0)

/-- The header of a packet (R274). -/
def pktHeader (p : Pkt) : List Byte :=
  lay [(1, p.ptype), (1, pack [(1, flag p.poison), (1, flag p.failed), (6, bits p.rsv 0 6)]), (2, pktBytes p - 24),
    (2, pack [(12, p.window), (4, bits p.rsv 6 4)]), (2, p.reqTag), (8, pack [(48, p.address), (4, p.atomicOp), (1, flag p.w8), (11, bits p.rsv 10 11)]),
    (8, p.nonce)]

/-- The IV of a protected packet (R293, R367): sender, direction, window and three zero bits, or the reader's channel and eight zero bits, and the counter. -/
def pktIv (p : Pkt) : BitVec 96 :=
  BitVec.ofNat 96 (p.src.toNat * 2 ^ 80 + p.nonce % 2 ^ 64 +
    (if 0x10 ≤ p.ptype then numAt p.body 0 1 * 2 ^ 72 else flag (decide (4 ≤ p.ptype)) * 2 ^ 79 + p.window % 4096 * 2 ^ 67))

/-- The additional authenticated data (R293). -/
def pktAad (p : Pkt) : List Byte := pktHeader p ++ le 2 p.src.toNat ++ le 2 p.dest.toNat

/-- Bytes of a protected body that stand in the clear before its ciphertext: the length of a READ_REQ, the channel of a message or report (R275; log
entry 124). -/
def clearBytes (p : Pkt) : Nat := if p.ptype = 1 then 2 else if 0x10 ≤ p.ptype then 1 else 0

/-- The body of a packet as its flits carry it (R275). -/
def wireBody (p : Pkt) : List Byte :=
  match p.key with
  | none => p.body
  | some k => gcmSeal (clearBytes p) k (pktIv p) (pktAad p) p.body

/-- A packet as its flits carry it. -/
def wireBytes (p : Pkt) : List Byte := pktHeader p ++ wireBody p

/-- The body of a packet that has arrived, opened with a key (R168, R293, R295); none: it fails authentication. -/
def openBody (key : BitVec 256) (p : Pkt) : Option (List Byte) := gcmOpen (clearBytes p) key (pktIv p) (pktAad p) p.body

/-! ## Sending -/

/-- Flits that an item takes: 236 payload bytes each (R247); frames and control packets take one (log entry 13). -/
def OutItem.flits : OutItem → Nat
  | .pkt p => (pktBytes p + 235) / 236
  | .frame _ _ => 1
  | .ctl _ _ _ _ => 1

def OutItem.cls : OutItem → Nat
  | .pkt p => p.cls
  | .frame _ _ => 2
  | .ctl _ _ _ _ => 2

/-- The bytes of an item: a packet, a LINK frame from its code on, a control packet from its header on (log entry 13). -/
def OutItem.bytes : OutItem → List Byte
  | .pkt p => wireBytes p
  | .frame code content => BitVec.ofNat 8 code :: Config.frameBytes code content
  | .ctl ptype _ path content =>
    let body := Config.frameBytes ptype (path ++ content)
    lay [(1, ptype), (1, 0), (2, body.length), (20, 0)] ++ body

/-- Bytes 0x00 to 0xFB of a flit (R247). -/
def flitBody (f : Flit) : List Byte :=
  lay [(1, pack [(2, f.ftype), (2, f.cls), (1, flag f.first), (1, flag f.last), (2, bits f.rsv 0 2)]), (1, f.payLen), (2, bits f.rsv 2 16),
    (4, pack [(20, f.seq), (12, bits f.rsv 18 12)]), (2, f.dest.toNat), (2, f.src.toNat), (4, pack [(6, f.hops), (26, bits f.rsv 30 26)])] ++ f.payload.take 236 ++ List.replicate (236 - f.payload.length) 0#8

def flitGood (f : Flit) : Bool := f.crc = crc32 (flitBody f)

/-- A flit as it goes out (R247, R248): this module is the source of what it sends itself, with 63 hops (R286). -/
def sentFlit (s : State) (t : TxFlit) : Flit :=
  let own := s.mesh.addr.getD 0#16
  let bytes := (t.item.bytes.drop (236 * t.part)).take 236
  let head := match t.item with
    | .pkt p => (1, p.dest, p.src, p.hops)
    | .frame _ _ => (2, 0#16, own, 0)
    | .ctl _ dest _ _ => (1, BitVec.ofNat 16 dest, own, 63)
  let f : Flit := ⟨t.lane, head.1, t.cls, decide (t.part = 0), t.last, bytes.length, t.seq, head.2.1, head.2.2.1, head.2.2.2, 0, bytes, 0#32⟩
  { f with crc := crc32 (flitBody f) }

/-- The control word's bytes 0x00 to 0x0B (R250). -/
def controlBody (w : CtrlWord) : List Byte :=
  lay [(3, pack [(20, w.ackSeq), (1, flag w.nak), (3, bits w.rsv 0 3)]), (1, w.laneMask.toNat), (1, w.creditData), (1, w.creditMsg), (1, w.creditCtrl),
    (1, w.creditHost), (2, w.changeFrame), (2, pack [(1, flag w.changeValid), (15, bits w.rsv 3 15)])]

/-- A slot of a lane frame: a 256-byte flit, then a 14-byte control word (R245). -/
def slotBytes (f : Flit) (w : CtrlWord) : List Byte := flitBody f ++ le 4 f.crc.toNat ++ controlBody w ++ le 2 w.crc.toNat

/-- A NULL flit, which fills an empty slot (R247). -/
def nullFlit (lane : Nat) : Flit :=
  let f : Flit := ⟨lane, 0, 0, false, false, 0, 0, 0#16, 0#16, 0, 0, [], 0#32⟩
  { f with crc := crc32 (flitBody f) }

/-- A lane frame (R245): the alignment block, then 2,125 slots, scrambled; slots without a flit of their own carry NULL flits. -/
def laneFrame (s : State) (i lane : Nat) (slots : List (Flit × CtrlWord)) (idle : CtrlWord) : List Byte :=
  alignBytes s i lane false []
    ++ scramble ((slots.take 2125 ++ List.replicate (2125 - slots.length) (nullFlit lane, idle)).flatMap (fun e => slotBytes e.1 e.2))

/-- Credits left in a class: one per buffer of the partner, used by each flit and returned as buffers free (R252). -/
def Port.credits (p : Port) (cls : Nat) : Nat := classBuffers cls + Tab.get p.creditSeen cls 0 - Tab.get p.creditUsed cls 0

/-- A class with a flit and a credit. -/
def Port.canSend (p : Port) (cls : Nat) : Bool := p.txq.any (fun e => e.cls = cls) && decide (0 < p.credits cls)

/-- Slots of a round that a class may take: message 4, data 11, host 1 (R252). -/
def classWeight (cls : Nat) : Nat :=
  match cls with
  | 0 => 11
  | 1 => 4
  | 3 => 1
  | _ => 0

/-- Has a class slots left in the round? -/
def Port.inRound (p : Port) (cls : Nat) : Bool := decide (Tab.get p.turns cls 0 < classWeight cls)

/-- The class of the next flit and the rounds after it (R252): control first, at most one slot in 8 while another class waits; then by weights 4, 11 and 1,
where the order inside a round is open (log entry 5). A round ends when no class that can send has slots left in it. -/
def Port.nextClass (p : Port) : Option (Nat × Port) :=
  let others := [1, 0, 3].filter p.canSend
  if p.canSend 2 && (others.isEmpty || decide (7 ≤ p.sinceCtl)) then some (2, { p with sinceCtl := 0 })
  else
    let now := if (others.filter p.inRound).isEmpty then { p with turns := [] } else p
    let l := others.filter now.inRound
    match l with
    | [] => none
    | d :: _ =>
      let c := nth l (Config.classPick p.slotNo % l.length) d
      some (c, { now with turns := Tab.upd now.turns c 0 (· + 1), sinceCtl := p.sinceCtl + 1 })

/-- The first queued item of a class, and the queue without it. -/
def takeClass (cls : Nat) (q : List QItem) : Option (QItem × List QItem) :=
  match q with
  | [] => none
  | e :: r =>
    if e.cls = cls then some (e, r)
    else match takeClass cls r with
      | none => none
      | some (j, r') => some (j, e :: r')

/-- `FLIT_SEQ` counts modulo 2^20 (R247). -/
def nextSeq (n : Nat) : Nat := (n + 1) % 2 ^ 20

/-- The lane after `last`, of the lanes that carry flits, in turn (R249). -/
def nextLane (lanes : BitVec 8) (last : Nat) : Nat :=
  (((rangeFrom (last + 1) 8).map (· % 8)).find? (fun l => bit lanes.toNat l)).getD 0

/-- One slot of a port: a flit of the chosen class goes out on the next lane and into the replay buffer; a full buffer or no class sends a NULL
flit (R249, R252, R254). A flit of a packet of another port leaves that port's receive buffer. None: nothing was sent. -/
def Port.sendSlot (p : Port) : Option Port :=
  if !p.carries || 8192 ≤ p.replay.length then none
  else match p.nextClass with
    | none => none
    | some (c, q) => match takeClass c p.txq with
      | none => none
      | some (e, rest) =>
        let part := Tab.get p.txPart c 0
        let last := decide (e.item.flits ≤ part + 1)
        let lane := nextLane p.remaining p.txLane
        some { q with
          txSeq := nextSeq p.txSeq
          replay := p.replay ++ [⟨nextSeq p.txSeq, lane, c, part, last, e.item, 0⟩]
          creditUsed := Tab.upd p.creditUsed c 0 (· + 1)
          txPart := Tab.set p.txPart c (if last then 0 else part + 1)
          txq := if last then rest else p.txq
          txLane := lane
          left := p.left ++ (match e.source with
            | some i => [(i, c)]
            | none => [])
          slotNo := p.slotNo + 1 }

/-- Slots until nothing more can be sent, at most `n`; then NULL flits go out, and a control flit may follow at once. -/
def Port.pump (p : Port) (n : Nat) : Port :=
  match n with
  | 0 => p
  | n + 1 => match p.sendSlot with
    | none => { p with sinceCtl := 7 }
    | some p' => p'.pump n

/-- Flits that wait in a queue. -/
def queuedFlits (q : List QItem) : Nat :=
  match q with
  | [] => 0
  | e :: r => e.item.flits + queuedFlits r

def Port.drain (p : Port) : Port := p.pump (queuedFlits p.txq + 1)

/-- Receive buffers of a class freed at a port (R252). -/
def freeBuffers (i cls n : Nat) : State → State :=
  updPort i (fun p => { p with rxUsed := Tab.upd p.rxUsed cls 0 (· - n), freed := Tab.upd p.freed cls 0 (· + n) })

/-- As much sent on a port as credits allow; what leaves frees the buffers that it came by. -/
def drainPort (i : Nat) (s : State) : State :=
  let p := (portOf s i).drain
  forEach p.left (fun e => freeBuffers e.1 e.2 1) (setPort i { p with left := [] } s)

/-- An item queued at a port, which still occupies the receive buffer of `source`, and as much sent as credits allow. -/
def queueItem (i : Nat) (source : Option Nat) (item : OutItem) (s : State) : State :=
  drainPort i (updPort i (fun p => { p with txq := p.txq ++ [⟨item.cls, item, source⟩] }) s)

/-- An item of this module queued at a port. -/
def sendItem (i : Nat) (item : OutItem) : State → State := queueItem i none item

/-- A LINK frame on a port that carries traffic (R277, R300). -/
def sendFrame (i code : Nat) (content : List Nat) (s : State) : State :=
  if (portOf s i).carries then sendItem i (.frame code content) s else s

/-! ## Routing (R287, R288) -/

/-- Does a port carry packets: not one that is DOWN, nor one that was refused the host role, which carries LINK flits only (R276, R287)? -/
def Port.serves (p : Port) : Bool := p.carries && p.hostReason = 0

/-- Ports that carry packets, of a mask. -/
def upPorts (s : State) (mask : Nat) : List Nat := (bitsOf mask 16).filter (fun i => (portOf s i).serves)

/-- The port set for a destination in another module (R287 steps 2 and 3, R286). -/
def portSet (s : State) (d : Nat) : List Nat :=
  let own := (s.mesh.addr.getD 0#16).toNat
  upPorts s (if d / 64 = own / 64 then (Tab.get s.mesh.memberTable (d % 64) 0#16).toNat
    else (Tab.get s.mesh.groupTable (d / 64) 0#16).toNat)

/-- The hash of a data packet (R288). -/
def routeHash (d addr : Nat) : Nat := d ^^^ bits addr 8 16 ^^^ bits addr 24 16 ^^^ bits addr 40 8

/-- The port with the most message credits; a tie goes to the lower port (R288). -/
def mostCredits (s : State) (best : Nat) (l : List Nat) : Nat :=
  match l with
  | [] => best
  | i :: r => mostCredits s (if (portOf s best).credits 1 < (portOf s i).credits 1 then i else best) r

/-- The port chosen from a set, by class (R288). -/
def choosePort (s : State) (cls d addr : Nat) (l : List Nat) : Option Nat :=
  match l with
  | [] => none
  | i :: r =>
    match cls with
    | 0 => some (nth (i :: r) (routeHash d addr % (r.length + 1)) i)
    | 1 => some (mostCredits s i r)
    | 2 => some i
    | _ => none

/-- A packet without a route is dropped and counted at a port, with one event per destination per second (R287). -/
def noRoute (at_ d : Nat) (s : State) : State :=
  let s1 := updPort at_ (fun p => { p with noRoute := satInc 64 p.noRoute }) s
  let due := match Tab.find s.mesh.noRouteAt d with
    | none => true
    | some t => decide (25000000 ≤ (s.ctl.localTime - t).toNat)
  if due then
    mapMesh (fun m => { m with noRouteAt := Tab.set m.noRouteAt d s.ctl.localTime }) (record (ev 0x0303 0 [(16, d)]) s1)
  else s1

/-- The port by which a packet leaves the module (R287, R288). -/
def exitPort (s : State) (p : Pkt) : Option Nat := choosePort s p.cls p.dest.toNat p.address (portSet s p.dest.toNat)

/-- The edge gateway of a port (R178): west or east of its field, and there the row in which the packet stands. -/
def portGoal (port : Nat) (site : Site) : Goal :=
  let e := if port % 2 = 0 then 3 else 1
  .edge (port / 2) e (site.lane e)

/-- A packet for another module on its way from a place in a field to the gateway of the port by which it leaves (R178). -/
def carryOut (f : Nat) (site : Site) (cls : Nat) (p : Pkt) (cargo : Cargo) (deliver : State → State) (s : State) : State :=
  match exitPort s p with
  | none => deliver s
  | some i => carry f site cls (portGoal i site) cargo id deliver s

/-- The buffers of a packet that arrived at a port and is dropped. -/
def dropBuffers (source : Option Nat) (cls n : Nat) (s : State) : State :=
  match source with
  | some i => freeBuffers i cls n s
  | none => s

/-- A packet routed; `at_` is the port where a drop counts, `source` the port whose buffers it occupies (R287, R288). -/
def routePkt (at_ : Nat) (source : Option Nat) (p : Pkt) (s : State) : State :=
  match choosePort s p.cls p.dest.toNat p.address (portSet s p.dest.toNat) with
  | none => noRoute at_ p.dest.toNat (dropBuffers source p.cls (OutItem.pkt p).flits s)
  | some i => queueItem i source (.pkt p) s

/-- A packet of this module sent on towards another (log entry 14). -/
def sendPkt (at_ : Nat) (p : Pkt) (s : State) : State := routePkt at_ none p s

/-- A control packet to a module: MGMT and relays, on the lowest port of the set (R288). -/
def sendCtl (ptype dest : Nat) (content : List Nat) (s : State) : State :=
  match portSet s dest with
  | [] => noRoute 0 dest s
  | i :: _ => sendItem i (.ctl ptype dest [] content) s

/-- A source-routed ENUM packet: out of the first port of its path (R281). -/
def sendEnum (path content : List Nat) (s : State) : State :=
  match path with
  | [] => s
  | i :: r => if (portOf s i).serves then sendItem i (.ctl 0x20 0 r content) s else s

/-! ## A port that goes down -/

/-- Tags of this module's remote requests among flits held unacknowledged (R255). -/
def heldTags (s : State) (l : List TxFlit) : List Nat :=
  l.filterMap (fun t => match t.item with
    | .pkt p => if (p.ptype = 1 || p.ptype = 2) && some p.src = s.mesh.addr then some p.reqTag else none
    | _ => none)

/-- The first item of a class of which some flits have been sent is begun; the others wait whole. -/
def waitingItems (begun : List Nat) (q : List QItem) : List QItem :=
  match q with
  | [] => []
  | e :: r => if begun.contains e.cls then waitingItems (begun.filter (· ≠ e.cls)) r else e :: waitingItems begun r

def Port.begun (p : Port) : List Nat := (List.range 4).filter (fun c => Tab.get p.txPart c 0 ≠ 0)

/-- A queued item of a port that has gone down is routed again (R289); what is bound to the port, a LINK frame or a source-routed packet, is lost. -/
def routeAgain (i : Nat) (e : QItem) (s : State) : State :=
  match e.item with
  | .pkt p => routePkt i e.source p s
  | .ctl ptype dest _ content => if ptype = 0x20 then s else sendCtl ptype dest content s
  | .frame _ _ => s

/-- Tags of requests whose packet was begun and not finished. -/
def startedTags (s : State) (p : Port) : List Nat :=
  p.begun.filterMap (fun c =>
    match (takeClass c p.txq).map (fun e => e.1.item) with
    | some (OutItem.pkt k) => if (k.ptype = 1 || k.ptype = 2) && some k.src = s.mesh.addr then some k.reqTag else none
    | _ => none)

/-- Packets begun at a port and not finished: the port they came by, their class, the flits not sent, which hold its buffers (R252). -/
def Port.cutOff (p : Port) : List (Nat × Nat × Nat) :=
  p.begun.filterMap (fun c =>
    match takeClass c p.txq with
    | none => none
    | some (e, _) => e.source.map (fun i => (i, c, e.item.flits - Tab.get p.txPart c 0)))

/-- What becomes of the queue that a port had: the packets of which flits had been sent are lost, their buffers freed and the requests of this module among them
answered Failed; the others are routed again (R252, R255, R289). -/
def clearQueue (i : Nat) (p : Port) (s : State) : State :=
  let s1 := forEach p.cutOff (fun e => freeBuffers e.1 e.2.1 e.2.2) s
  forEach (waitingItems p.begun p.txq) (routeAgain i) (forEach (startedTags s p) failRemote s1)

/-- Saved settings no longer to be trusted at the next start (R258). -/
def distrust (i : Nat) : State → State :=
  mapFlash (fun fl => { fl with portSettings := match Tab.find fl.portSettings i with
    | none => fl.portSettings
    | some v => Tab.set fl.portSettings i { v with intact := false } })

/-- A port goes DOWN with a reason: lasers off but for those of R263, replay buffer discarded, its unacknowledged requests answered Failed, its queued
packets routed again, PORT_CHANGE recorded; its saved settings are no longer trusted when it was in service (R244, R255, R258, R265, R289). A port that is
DOWN already keeps its state. -/
def portDown (i reason : Nat) (s : State) : State :=
  let p := portOf s i
  if p.pstate = 2 then s
  else
    let s1 := setPort i { p with pstate := 2, reason := reason, lasers := if reason = 5 then 0xFF#8 else 0#8, active := 0#8, laneMask := 0#8,
                                 replay := [], txq := [], txPart := [], changeFrame := none, rxPart := [], rxHeld := [], hostWait := false } s
    let s2 := onlyIf (p.carries && s.ctl.mode ≠ .testing) (distrust i) s1
    let s3 := notePort i s2
    clearQueue i p (forEach (heldTags s p.replay) failRemote s3)

/-! ## Narrowing (R267) -/

/-- Serials in byte order: is `a` below `b`? -/
def serialBytes (a : Serial) : List Nat := (le 12 a.toNat).map (·.toNat)

def bytesBelow (a b : List Nat) : Bool :=
  match a, b with
  | x :: r, y :: q => if x = y then bytesBelow r q else decide (x < y)
  | _, _ => false

/-- Does this end propose the frame of change? -/
def proposes (p : Port) : Bool := bytesBelow (serialBytes Config.serial) (serialBytes p.partnerSerial)

/-- Does a flit stand at eight resends (R255)? -/
def Port.spent (p : Port) : Bool := p.replay.any (fun t => decide (8 ≤ t.resent))

/-- Flits of the replay buffer sent again in order, one per lane in turn (R249, R254). -/
def resendOn (lanes : BitVec 8) (last : Nat) (l : List TxFlit) : List TxFlit :=
  match l with
  | [] => []
  | t :: r => { t with lane := nextLane lanes last, resent := t.resent + 1 } :: resendOn lanes (nextLane lanes last) r

/-- The sender resends from `ACK_SEQ` + 1 in order; a flit that has been resent eight times takes the port down (R254, R255). -/
def resend (port : Nat) (s : State) : State :=
  if (portOf s port).spent then portDown port 9 s
  else updPort port (fun p => { p with
    replay := resendOn p.remaining p.txLane p.replay
    txLane := ((resendOn p.remaining p.txLane p.replay).getLast?.map (·.lane)).getD p.txLane }) s

/-- Flits on a lane that has failed are replayed on the others (R267 step 1). -/
def replayLost (i : Nat) (s : State) : State :=
  if (portOf s i).replay.any (fun t => !bit (portOf s i).remaining.toNat t.lane) then resend i s else s

/-- An active lane has been lost at this end or at the other: POLICY under FORBID_DROP, WIDTH below 2 lanes, else its flits are replayed and the lower end
proposes the frame of change (R267 steps 1 and 2, R268). -/
def narrow (i : Nat) (s : State) : State :=
  let p := portOf s i
  if p.forbidDrop then portDown i 8 s
  else if widthOf (laneCount p.remaining) = 0 then portDown i 7 s
  else
    let s1 := replayLost i (distrust i s)
    let q := portOf s1 i
    if q.carries && q.changeFrame.isNone && proposes q then
      setPort i { q with changeFrame := some ((frameOf s.ctl.localTime q + 2) % 2 ^ 32), nextActive := lowestLanes q.remaining } s1
    else s1

end Sys2Proof.Machine
end

