-- ==== Sys2Proof/Machine/Groups.lean ====
section
/-! DEFINITION. Groups and their enumeration by a root (R279 to R285, R289): what the commands of the mesh share. -/

namespace Sys2Proof.Machine

open Sys2Proof

/-! ## Content of control packets (log entry 13): the first number says what the packet carries -/

def mgmtPortState : Nat := 1
def mgmtMemberTable : Nat := 2
def mgmtRoute : Nat := 3
def enumClaim : Nat := 1
def enumAccepted : Nat := 2
def enumRefused : Nat := 3

/-- The address of member `m` of this module's group (R271). -/
def memberAddr (s : State) (m : Nat) : Nat := (s.mesh.addr.getD 0#16).toNat / 64 * 64 + m

def memberOf (s : State) (m : Nat) : Member := Tab.get s.mesh.members m ⟨[], [], []⟩

def updMember (m : Nat) (g : Member → Member) : State → State :=
  mapMesh (fun x => { x with members := Tab.set x.members m (g (Tab.get x.members m ⟨[], [], []⟩)) })

/-- An internal link from a port of member `m` to member `k` (R281). -/
def addLink (m p k : Nat) : State → State :=
  updMember m (fun v => { v with links := v.links.filter (fun l => l.1 ≠ p) ++ [(p, k)] })

def dropLink (m p : Nat) : State → State :=
  updMember m (fun v => { v with links := v.links.filter (fun l => l.1 ≠ p), outside := v.outside.filter (fun l => l.1 ≠ p) })

/-- A link from a port of member `m` to another group (R281). -/
def addOutside (m p group : Nat) : State → State :=
  updMember m (fun v => { v with outside := v.outside.filter (fun l => l.1 ≠ p) ++ [(p, group)] })

/-- A partner with an address: an internal link when it lies in the group, else a link to its group (R281). -/
def noteLink (m p a : Nat) (s : State) : State :=
  if a / 64 = memberAddr s 0 / 64 then addLink m p (a % 64) s else addOutside m p (a / 64) s

/-! ## Member tables (R285) -/

/-- One round of a breadth-first search towards a target: members not yet reached with a link to one at distance `r`. -/
def hopRound (ms : Tab Member) (dist : Tab Nat) (r : Nat) : Tab Nat :=
  ms.foldl (fun d e =>
    if (Tab.find dist e.1).isNone && e.2.links.any (fun l => Tab.find dist l.2 = some r) then Tab.set d e.1 (r + 1) else d) dist

def hopRounds (ms : Tab Member) (dist : Tab Nat) (r n : Nat) : Tab Nat :=
  match n with
  | 0 => dist
  | n + 1 => hopRounds ms (hopRound ms dist r) (r + 1) n

/-- Distances of the group's members to `target` over internal links. -/
def hopDist (ms : Tab Member) (target : Nat) : Tab Nat := hopRounds ms [(target, 0)] 0 ms.length

/-- The entry of member `m` for member `n`: its ports on a shortest path; empty for itself and for an unreachable one. -/
def memberEntry (ms : Tab Member) (m n : Nat) : U16 :=
  if m = n then 0#16
  else
    let d := hopDist ms n
    match Tab.find d m with
    | none => 0#16
    | some k => BitVec.ofNat 16 (maskOf (((Tab.get ms m ⟨[], [], []⟩).links.filter
        (fun l => Tab.find d l.2 = some (k - 1) && decide (0 < k))).map (·.1)))

def memberMasks (ms : Tab Member) (m : Nat) : List U16 := (List.range 64).map (memberEntry ms m)

/-- A member table as kept: empty entries are not listed. -/
def tableOf (masks : List U16) : Tab U16 :=
  ((List.range 64).map (fun n => (n, nth masks n 0#16))).filter (fun e => e.2 ≠ 0#16)

/-- The root writes its own table, and those of its members by MGMT packets (R283 step 3, R289). -/
def writeTables (s : State) : State :=
  let ms := s.mesh.members
  let s1 := mapMesh (fun m => { m with memberTable := tableOf (memberMasks ms 0) }) s
  forEach (ms.filter (fun e => e.1 ≠ 0)) (fun e =>
    sendCtl 0x21 (memberAddr s e.1) (mgmtMemberTable :: (memberMasks ms e.1).map (·.toNat))) s1

/-! ## Enumeration (R281) -/

/-- Enumeration is over: tables are computed and written. -/
def enumDone (s : State) : State :=
  writeTables (mapMesh (fun m => { m with enumAt := none, addressingDone := true }) s)

/-- A module over the limit of 64: GROUP_FULL with the path to it, for each (R283). -/
def overLimit (m p : Nat) (s : State) : State :=
  let path := (memberOf s m).path ++ [p]
  mapMesh (fun x => { x with groupFull := true })
    (recordLong (ev 0x0304 0 ((8, path.length) :: (path.take 30).map (fun q => (4, q))))
      (if 30 < path.length then [((path.drop 30).take 32).map (fun q => (4, q)), ((path.drop 62).take 32).map (fun q => (4, q))] else []) s)

/-- What the root does at port `p` of member `m`, and onwards until it waits for an answer. -/
def enumGo (fuel m p : Nat) (s : State) : State :=
  match fuel with
  | 0 => s
  | fuel + 1 =>
    if 16 ≤ p then
      match s.mesh.enumQueue with
      | [] => enumDone s
      | k :: r => enumGo fuel k 0 (mapMesh (fun x => { x with enumQueue := r }) s)
    else if m = 0 then
      let port := portOf s p
      if !port.carries || port.hostRole || port.hostAdapter then enumGo fuel m (p + 1) s
      else match port.partnerMesh with
        | none =>
          if s.mesh.nextMember ≤ 63 then
            mapMesh (fun x => { x with enumAt := some (0, p) })
              (sendFrame p 0x43 [memberAddr s s.mesh.nextMember, memberAddr s 0, p] s)
          else enumGo fuel m (p + 1) (overLimit m p s)
        | some a =>
          enumGo fuel m (p + 1) (noteLink m p a.toNat s)
    else
      match (memberOf s m).path with
      | [] => enumGo fuel m (p + 1) s
      | q :: r =>
        if (portOf s q).serves then
          mapMesh (fun x => { x with enumAt := some (m, p) })
            (sendEnum (q :: r) [enumClaim, p, if s.mesh.nextMember ≤ 63 then memberAddr s s.mesh.nextMember else 0x10000] s)
        else enumGo fuel m (p + 1) s

/-- Enumeration goes on after port `p` of member `m`. -/
def enumNext (m p : Nat) (s : State) : State :=
  enumGo (18 * (s.mesh.enumQueue.length + 2)) m (p + 1) (mapMesh (fun x => { x with enumAt := none }) s)

/-- The root takes member 0 of a group and starts its queue (R281, R283 step 1); the group is saved with the carrier's record
(R279, R399). -/
def startEnum (group : Nat) (s : State) : State :=
  let s1 := mapMesh (fun m => { m with addr := some (BitVec.ofNat 16 (group * 64)), members := [(0, ⟨[], [], []⟩)], enumQueue := [],
                                       nextMember := 1, groupFull := false, addressingDone := false }) s
  let s2 := mapFlash (fun fl => { fl with savedGroup := some (group, (idRecord s 0).getD []) }) s1
  enumGo 40 0 0 s2

/-- CLAIM_ACK at the root for port `p` of member `m`: a new member (R281). -/
def addMember (m p a : Nat) (s : State) : State :=
  let k := a % 64
  let path := (memberOf s m).path ++ [p]
  let s1 := mapMesh (fun x => { x with members := Tab.set x.members k ⟨path, [], []⟩, enumQueue := x.enumQueue ++ [k], nextMember := k + 1 })
    (addLink m p k s)
  if m = 0 then updPort p (fun v => { v with partnerMesh := some (BitVec.ofNat 16 a) }) s1 else s1

/-- A port-state report at the root (R284, R289): a lost port leaves the links; a partner in the group adds one; an unaddressed
partner is claimed as the next free member. -/
def applyPortState (m p : Nat) (up : Bool) (partner : Option Nat) (s : State) : State :=
  if !up then dropLink m p s
  else match partner with
    | some a => noteLink m p a s
    | none =>
      if s.mesh.enumAt.isSome then mapMesh (fun x => { x with enumQueue := x.enumQueue ++ [m] }) s
      else enumGo 40 m p s

/-- A member tells its root of a port that changed; a root takes it up itself (R284). -/
def reportPort (i : Nat) (s : State) : State :=
  match s.mesh.addr with
  | none => s
  | some a =>
    let p := portOf s i
    if s.mesh.root then
      (if p.hostAdapter then s else applyPortState 0 i p.carries (p.partnerMesh.map (·.toNat)) s)
    else if p.hostAdapter then s
    else sendCtl 0x21 (a.toNat / 64 * 64) [mgmtPortState, a.toNat % 64, i, flag p.carries,
      flag p.partnerMesh.isSome, (p.partnerMesh.getD 0#16).toNat] s

/-! ## Settling (R262, R279, R282) -/

def portsSettled (s : State) : Bool := s.links.all (fun e => e.2.pstate ≠ 3)

/-- When the last port settles, the start's duration is taken (R394), and a root that holds a `mesh.assign` fixes its group (R279 source 1). -/
def settleCheck (s : State) : State :=
  if s.ctl.mode = .train && portsSettled s && !s.mesh.settled then
    let s1 := mapCtl (fun c => { c with startMs := (s.ctl.localTime - s.ctl.bootStart).toNat / 25000 })
      (mapMesh (fun m => { m with settled := true }) s)
    match s.mesh.assigned with
    | some g => if s.mesh.root && s.mesh.addr.isNone then startEnum g s1 else s1
    | none => s1
  else s

/-! ## A port that goes down -/

/-- A port goes down: its state, DEGRADED, and the root's knowledge of it (R262, R284, R289); in TRAIN it has settled. One that is DOWN already takes FIELD_FENCED in place of its
reason and stops its training frames (R269). -/
def takeDown (i reason : Nat) (s : State) : State :=
  if (portOf s i).pstate = 2 then (if reason = 0xB then updPort i (fun p => { p with reason := 0xB, lasers := 0#8 }) s else s)
  else settleCheck (reportPort i (watchDegraded (portDown i reason) s))

end Sys2Proof.Machine
end

