-- ==== Sys2Proof/Machine/Codes.lean ====
section
/-! DEFINITION. Regions and where they lie (R206 to R212), and the three code classes: what a read of a word with given errors decodes to
(R215, R216, R217, R220), and the parity of an archive block (R219). -/

namespace Sys2Proof.Machine

open Sys2Proof

/-! ## Regions and placement -/

/-- Regions of the module (R208). -/
def regionOf (s : State) (id : Nat) : Option Region := Tab.find s.hbm.regions id

def Region.bytes (r : Region) : Nat := r.size * 65536

def Region.covers (r : Region) (a : Nat) : Bool := decide (r.base ≤ a) && decide (a < r.base + r.bytes)

/-- The region that a local address lies in. -/
def regionAt (l : Tab Region) (a : Nat) : Option (Nat × Region) :=
  match l with
  | [] => none
  | (id, r) :: t => if r.covers a then some (id, r) else regionAt t a

/-- Pages that a FIELD or MODULE region takes in each pseudo-channel that it uses (R209, R211). -/
def Region.pages (r : Region) : Nat := if r.interleave = 0 then r.size / 120 * 16 else r.size / 960 * 16

/-- Data blocks that an ARCHIVE region takes in each of its two pseudo-channels (R212). -/
def Region.blocks (r : Region) : Nat := r.size * 16

/-- Physical byte address: stack, channel, pseudo-channel, byte, from the most significant end (R211, R212). -/
def physAddr (stack j byte : Nat) : Nat := (stack * 32 + j) * 2 ^ 31 + byte

/-- The physical byte of a local address in a region (R211, R212). -/
def Region.phys (r : Region) (a : Nat) : Nat :=
  let o := a - r.base
  match r.interleave with
  | 0 => let b := o / 4096; physAddr (4 * r.place + b % 120 % 4) (b % 120 / 4) ((r.start + b / 120) * 4096 + o % 4096)
  | 1 => let b := o / 4096; physAddr (b % 960 % 32) (b % 960 / 32) ((r.start + b / 960) * 4096 + o % 4096)
  | _ => let n := o / 2048; physAddr r.place (30 + n % 2) ((r.start + n / 2) * 2048 + o % 2048)

def stackOfPhys (x : Nat) : Nat := x / 2 ^ 36
def pcOfPhys (x : Nat) : Nat := x / 2 ^ 31
def granuleOf (x : Nat) : Nat := x / 65536

/-- Does a region use a pseudo-channel? -/
def Region.usesPc (r : Region) (pc : Nat) : Bool :=
  match r.interleave with
  | 0 => pc / 128 = r.place && decide (pc % 32 < 30)
  | 1 => decide (pc % 32 < 30)
  | _ => pc / 32 = r.place && decide (30 ≤ pc % 32)

/-- Does a region hold a granule (R222)? -/
def Region.holdsGranule (r : Region) (g : Nat) : Bool :=
  r.usesPc (g / 32768) &&
    (if r.interleave = 2 then decide (r.start ≤ g % 32768 * 32) && decide (g % 32768 * 32 < r.start + r.blocks)
     else decide (r.start ≤ g % 32768 * 16) && decide (g % 32768 * 16 < r.start + r.pages))

/-- Fields whose stacks hold blocks of a region (R238). -/
def Region.usesField (r : Region) (f : Nat) : Bool :=
  match r.interleave with
  | 0 => r.place = f
  | 1 => true
  | _ => r.place / 4 = f

/-- The first byte of the parity of the block that holds physical byte `x`: in the top eighth of its pseudo-channel (R212). -/
def parityAt (x : Nat) : Nat := x / 2 ^ 31 * 2 ^ 31 + 1879048192 + x % 2 ^ 31 / 2048 * 256

/-! ## What a word decodes to -/

/-- How one 64-byte word decodes. -/
inductive WordOutcome where
  | clean
  | corrected (symbols : Nat)
  | retried (symbols : Nat)
  | blockDecoded (symbols : Nat)
  | failed
  deriving DecidableEq, Repr

/-- Wrong symbols that read `k` of a word finds: a failed lane corrupts exactly two (R216). -/
def wrongIn (e : WordErrors) (k : Nat) : Nat := 2 * e.lanes + nth e.symbols k 0

/-- A read under a code that corrects up to `cap` symbols, with up to two re-reads (R217). -/
def symbolDecode (e : WordErrors) (cap : Nat) : WordOutcome :=
  if wrongIn e 0 = 0 then .clean
  else if wrongIn e 0 ≤ cap then .corrected (wrongIn e 0)
  else if wrongIn e 1 ≤ cap then .retried (wrongIn e 1)
  else if wrongIn e 2 ≤ cap then .retried (wrongIn e 2)
  else .failed

/-- Symbols that a code class corrects in a word: strong 4, also in the system area, light 1 (R207, R215). -/
def Region.corrects (r : Region) : Nat := if r.code = 0 || r.code = 3 then 4 else 1

/-- The symbols of 12 bits that a word of a block covers (R220). -/
def symbolsOf (word : Nat) : List Nat := rangeFrom (word * 512 / 12) ((word * 512 + 511) / 12 - word * 512 / 12 + 1)

/-- Erased symbols of a list of words: one that two of them share is erased once (R220). -/
def erased (words : List Nat) : Nat := ((words.flatMap symbolsOf).eraseDups).length

/-- The words of the block of physical byte `x` that carry a marker. -/
def markedWords (poison : List Nat) (x : Nat) : List Nat := (poison.filter (fun w => w / 32 = x / 2048)).map (· % 32)

/-- The words of a block that fail their CRC and carry no marker, with the wrong symbols of each. -/
def badWordsOf (e : WordErrors) (marked : List Nat) : Tab Nat := e.badWords.filter (fun w => decide (w.1 < 32) && !marked.contains w.1)

/-- Check symbols of each block of an archive region (R208 `PAGE_CHECK_M1`). -/
def Region.checks (r : Region) : Nat := 16 * (r.pageCheck + 1)

/-- Does a block decode: 2e + f at most the check count, with every failed and every marked word erased; or, as the worked example of R220 has it, with the
scattered wrong symbols of the failed words taken as errors (log entry 114)? -/
def blockDecodes (checks : Nat) (bad : Tab Nat) (marked : List Nat) (unknown : Nat) : Bool :=
  decide (2 * unknown + erased (bad.map (·.1) ++ marked) ≤ checks) ||
    decide (2 * (unknown + (bad.map (·.2)).foldl (· + ·) 0) + erased marked ≤ checks)

/-- The decoding of a block in which words fail their CRC; `SYMBOLS` is the largest number corrected in one word. -/
def Region.decodeBlock (r : Region) (e : WordErrors) (marked : List Nat) : WordOutcome :=
  let bad := badWordsOf e marked
  if bad.isEmpty then .clean
  else if blockDecodes r.checks bad marked e.unknown then .blockDecoded ((bad.map (·.2)).foldl max 0) else .failed

/-- Can a block be read for a write of a part of it, of which no word fails its CRC: its marked words are erased in its decode (R220, R221)? -/
def Region.rewritable (r : Region) (e : WordErrors) (marked : List Nat) : Bool := marked.isEmpty || blockDecodes r.checks [] marked e.unknown

/-- What a read of the word at physical byte `x` decodes to: an archive word whose CRC passes is returned directly (R217, R220). -/
def Region.decodeWord (r : Region) (poison : List Nat) (x : Nat) (e : WordErrors) : WordOutcome :=
  if r.code = 2 then
    (if e.badWords.any (fun w => w.1 = x % 2048 / 64) then r.decodeBlock e (markedWords poison x) else .clean)
  else symbolDecode e r.corrects

/-! ## The parity of an archive block (R219) -/

/-- The 256 bytes of parity over a block's 2,048 bytes: check symbols packed, unused ones zero, CRC-64, the check count over 16 less 1, zeros. -/
def parityBytes (pageCheck : Nat) (block : List Byte) : List Byte :=
  let n := 16 * (pageCheck + 1)
  lay [(192, pack ((List.range n).map (fun i => (12, Config.pageSymbol n block i)))), (8, (Config.crc64 block).toNat), (1, pageCheck), (55, 0)]

/-- The parity that the block of physical byte `x` holds; one that no write has reached since its granule was filled is that of zeros. -/
def blockParity (h : Hbm) (r : Region) (x : Nat) : List Byte :=
  (Tab.find h.parity (x / 2048)).getD (parityBytes r.pageCheck (List.replicate 2048 0#8))

/-- The block of physical byte `x` encoded from the data that it holds. -/
def encodeBlock (r : Region) (x : Nat) (h : Hbm) : Hbm :=
  { h with parity := Tab.set h.parity (x / 2048) (parityBytes r.pageCheck (Mem.read h.data (x / 2048 * 2048) 2048)) }

end Sys2Proof.Machine
end

