-- ==== Sys2Proof/Machine/Hbm.lean ====
section
/-! DEFINITION. HBM as the stack controllers serve it: regions and where they lie (R205 to R212), words and their codes (R213 to
R221), the written-region map and zero fill (R222, R223), read merging (R197 to R202), the error log (R231 to R233). Data is
held in the clear by physical address (log entry 16). -/

namespace Sys2Proof.Machine

open Sys2Proof

/-! ## The error log (R231 to R233) -/

/-- The page of a physical byte, general or archive (R206). -/
def pageOfPhys (x : Nat) : Nat := x % 2 ^ 31 / 4096

/-- The page that holds the data of page `p` of a pseudo-channel now: its spare once retired (R234). -/
def presentPage (h : Hbm) (pc p : Nat) : Nat :=
  match h.pages.find? (fun e => e.1.pc = pc && e.1.number = p) with
  | some e => e.2
  | none => p

/-- Bank index (0 to 63) and row of a physical byte (R206, R234). -/
def bankRow (h : Hbm) (x : Nat) : Nat × Nat :=
  let pc := pcOfPhys x
  let line := x % 4096 / 1024
  if 30 ≤ pc % 32 then (pageOfPhys x % 64, 4 * (pageOfPhys x / 64) + line)
  else
    let p := presentPage h pc (pageOfPhys x)
    (if h.banks.any (fun b => b.pc = pc && b.number = p % 63) then 63 else p % 63, 4 * (p / 63) + line)

/-- Does a record describe the same event at the same location, from `STACK` to `ROW` (R233)? -/
def LogRec.sameAs (a b : LogRec) : Bool :=
  a.stack = b.stack && a.channel = b.channel && a.pc = b.pc && a.bank = b.bank && a.row = b.row && a.event = b.event

/-- The index of the record that a full log gives up: the oldest CE or CE_RETRY, else the oldest of any kind (R233). -/
def oldestIndex (l : List LogRec) (soft : Bool) (i : Nat) (best : Option (Nat × Nat)) : Option (Nat × Nat) :=
  match l with
  | [] => best
  | r :: t =>
    let fits := !soft || r.event = 1 || r.event = 2
    let better := match best with
      | none => true
      | some (_, tm) => decide (r.first.toNat < tm)
    oldestIndex t soft (i + 1) (if fits && better then some (i, r.first.toNat) else best)

def mergeLog (l : List LogRec) (r : LogRec) : List LogRec :=
  l.map (fun a => if a.sameAs r then { a with count := satInc 16 a.count, last := r.last, symbols := max a.symbols r.symbols } else a)

/-- A record into the log of its field: merged, added, or in place of the oldest (R233). -/
def Field.keepLog (f : Field) (r : LogRec) : Field :=
  if f.log.any (fun a => a.sameAs r) then { f with log := mergeLog f.log r }
  else if f.log.length < 4096 then { f with log := f.log ++ [r] }
  else
    let i := match oldestIndex f.log true 0 none with
      | some (i, _) => i
      | none => ((oldestIndex f.log false 0 none).map (·.1)).getD 0
    { f with log := f.log.set i r, logLost := satInc 64 f.logLost }

/-- Is it an event that `CE_LAST_HOUR` counts: CE or CE_RETRY (R449)? -/
def LogRec.isCorrected (r : LogRec) : Bool := r.event = 1 || r.event = 2

/-- A record logged; the time of a corrected event counts for its stack for an hour (R233, R449). -/
def Field.addLog (f : Field) (r : LogRec) : Field :=
  { f.keepLog r with
    corrected := if r.isCorrected then Tab.upd f.corrected r.stack [] (fun l => l.filter (within r.last 3600) ++ [r.last]) else f.corrected }

/-- The 32 bytes of a log record (R231). -/
def LogRec.bytes (r : LogRec) : List Byte :=
  lay [(8, r.last.toNat),
    (4, pack [(5, r.stack), (4, r.channel), (1, r.pc), (2, r.bank / 16), (2, r.bank / 4), (2, r.bank), (15, r.row)]),
    (4, pack [(4, r.col), (4, 0), (8, r.event), (8, r.symbols), (4, r.source), (2, r.code)]),
    (4, pack [(16, r.count), (10, r.region)]), (4, 0), (8, r.first.toNat)]

/-- Records that are copied to the flash summary as MEMORY_LOG: uncorrectable errors, retirements, repairs (R233, R484). -/
def copiedEvent (e : Nat) : Bool := e = 0x03 || e = 0x06 || e = 0x07 || e = 0x08 || e = 0x09 || e = 0x0A

/-- One event into the log of the stack's field, with its copy where R233 asks for one. -/
def logEvent (r : LogRec) (s : State) : State :=
  let r := { r with last := s.ctl.localTime, first := s.ctl.localTime, count := 1 }
  let s1 := updField (r.stack / 4) (fun f => f.addLog r) s
  if copiedEvent r.event then
    recordLong ((ev 0x0201 4 [(128, leNat (r.bytes.take 16))]).atStack r.stack) [[(128, leNat (r.bytes.drop 16))]] s1
  else s1

/-- The log record of an event at a physical byte. -/
def logAt (s : State) (x event symbols source code region : Nat) : LogRec :=
  let br := bankRow s.hbm x
  ⟨0#64, 0#64, stackOfPhys x, pcOfPhys x % 32 / 2, pcOfPhys x % 2, br.1, br.2, x % 1024 / 64, event, symbols, source, code, 0, region⟩

/-! ## Words -/

def Hbm.isWritten (h : Hbm) (g : Nat) : Bool := h.written.contains g
def Hbm.isMarked (h : Hbm) (x : Nat) : Bool := h.poison.contains (x / 64)

/-- Is a block of a region out of reach: its field fenced, or the region DAMAGED and the block on a lost field (R238, R239)? -/
def unreachable (s : State) (r : Region) (x : Nat) : Bool :=
  (fieldOf s (stackOfPhys x / 4)).fenced || (r.state = 2 && bit r.lost.toNat (stackOfPhys x / 4))

/-- Before a line changes or is marked, each of its open merge entries whose data is still out keeps the line as it is now, which is what it answers from
(R199). -/
def saveLine (x : Nat) (s : State) : State :=
  updStack (stackOfPhys x) (fun k =>
    { k with merge := k.merge.map (fun e =>
        if e.2.line = x / 64 && e.2.copy.isNone then
          (e.1, { e.2 with copy := some (Mem.read s.hbm.data (x / 64 * 64) 64), poison := s.hbm.isMarked x })
        else e) }) s

/-- A word marked as uncorrectable (R217); an open merge entry answers from before (R199). -/
def markWord (x : Nat) (s : State) : State :=
  mapHbm (fun h => if h.isMarked x then h else { h with poison := h.poison ++ [x / 64] }) (saveLine x s)

/-- What a DRAM read of one word gives: the state with its log, the data, and whether it is poisoned. -/
abbrev WordRead := State × List Byte × Bool

/-! ## The commit ledger area (R103, R207) -/

/-- Is a physical byte in the system area of a general pseudo-channel (R205)? -/
def inSystemArea (x : Nat) : Bool := decide (pcOfPhys x % 32 < 30) && decide (515072 ≤ pageOfPhys x) && decide (pageOfPhys x < 515584)

/-- The n-th of the 128 granules of a field's ledger area: one in the system area of each general pseudo-channel of the field in turn (log entry 125). -/
def ledgerGranule (f n : Nat) : Nat := granuleOf (physAddr (4 * f + n % 120 % 4) (n % 120 / 4) ((515072 + 16 * (n / 120)) * 4096))

/-- The byte that holds the bit of a tile of a run: each run's bitmap is two granules (R103). -/
def ledgerByte (f run tile : Nat) : Nat := 65536 * ledgerGranule f (2 * run + tile / 2 ^ 19) + tile % 2 ^ 19 / 8

/-- The field and the number of the ledger granule that holds a physical byte. -/
def ledgerNumber (x : Nat) : Option (Nat × Nat) :=
  let n := pcOfPhys x % 32 * 4 + stackOfPhys x % 4 + 120 * ((pageOfPhys x - 515072) / 16)
  if inSystemArea x && n < 128 then some (stackOfPhys x / 4, n) else none

/-- Is a granule of the system area written: one of the ledger area when a bit of its half of the bitmap is set (R103)? -/
def systemWritten (s : State) (x : Nat) : Bool :=
  match ledgerNumber x with
  | none => true
  | some (f, n) => (Tab.get (fieldOf s f).runs (n / 2) Run.empty).bits.any (fun t => t / 2 ^ 19 = n % 2)

/-- The bitmap of a run cleared: its granules are clear in the written-region map, and their marks go (R98, R103, R222). -/
def clearLedger (f run : Nat) : State → State :=
  mapHbm (fun h => { h with poison := h.poison.filter (fun w => w / 1024 ≠ ledgerGranule f (2 * run) && w / 1024 ≠ ledgerGranule f (2 * run + 1)) })

/-- What the log shows for words of the system area: strong-coded, code 3, region 0x3FF (R207, R231). -/
def systemRegion : Region := ⟨0, 0, 0, 0, 3, 0, false, 0, 0, 0, 0#8, 0, 0#384, 0, false⟩

/-- The region of a word, or that of the system area. -/
def wordRegion (s : State) (x : Nat) : Option (Nat × Region) :=
  if inSystemArea x then some (0x3FF, systemRegion) else s.hbm.regions.find? (fun p => p.2.holdsGranule (granuleOf x))

/-- The event that a DRAM read of a word with outcome `o` logs (R217, R220). -/
def logOutcome (id : Nat) (r : Region) (x : Nat) (o : WordOutcome) (src : Nat) (s : State) : State :=
  match o with
  | .clean => s
  | .corrected n => logEvent (logAt s x 0x01 n src r.code id) s
  | .retried n => logEvent (logAt s x 0x02 n src r.code id) s
  | .blockDecoded n => logEvent (logAt s x 0x05 n src r.code id) s
  | .failed => logEvent (logAt s x (if r.code = 2 then 0x06 else 0x03) 0 src r.code id) s

/-- A read of the word at physical byte `x` of region (id, r) that finds `e`, for source `src` (R217, R220, R222, R238). -/
def readWord (id : Nat) (r : Region) (x : Nat) (e : WordErrors) (src : Nat) (s : State) : WordRead :=
  let zero := List.replicate 64 0#8
  if unreachable s r x then (s, zero, true)
  else if !s.hbm.isWritten (granuleOf x) then (s, zero, false)
  else if s.hbm.isMarked x then (s, zero, true)
  else
    let data := Mem.read s.hbm.data (x / 64 * 64) 64
    let o := r.decodeWord s.hbm.poison x e
    let s1 := logOutcome id r x o src s
    if o = .failed then (markWord x s1, zero, true) else (s1, data, false)

/-- Before a write, the open merge entry of its line takes no further requester; one whose data has not returned keeps the line
as it was, also when its 256 cycles are over (R198, R199). -/
def closeLine (x : Nat) (s : State) : State :=
  updStack (stackOfPhys x) (fun k =>
    { k with merge := (k.merge.filter (fun e => !(e.2.line = x / 64 && e.2.returned))).map (fun e =>
        if e.2.line = x / 64 then (e.1, { e.2 with takes := false }) else e) }) (saveLine x s)

/-- Bytes stored in one word, which clears its mark when they cover it (R213). -/
def storeWord (x : Nat) (bs : List Byte) : State → State :=
  mapHbm (fun h => { h with
    data := Mem.write h.data x bs
    poison := if bs.length = 64 then h.poison.filter (fun w => w ≠ x / 64) else h.poison })

/-- A write within one word: whole, or a read-modify-write that finds `e`. The flag says that it was left unwritten (R213). -/
def writeWord (id : Nat) (r : Region) (x : Nat) (bs : List Byte) (e : WordErrors) (s : State) : State × Bool :=
  let s := closeLine x s
  if bs.length = 64 then (storeWord x bs s, false)
  else
    let w := readWord id r x e 2 s
    if w.2.2 then (logEvent (logAt w.1 x 0x04 0 2 r.code id) w.1, true) else (storeWord x bs w.1, false)

/-- The bytes of a write, cut at word ends. -/
def cutWords (x : Nat) (bs : List Byte) (fuel : Nat) : List (Nat × List Byte) :=
  match fuel with
  | 0 => []
  | n + 1 => if bs.isEmpty then [] else
    (x, bs.take (64 - x % 64)) :: cutWords (x / 64 * 64 + 64) (bs.drop (64 - x % 64)) n

/-- Words written one by one: every one that can be written is, and the write fails when one was left (R213). `es` is what the
reads of these words find, in order. -/
def writeWords (id : Nat) (r : Region) (l : List (Nat × List Byte)) (es : List WordErrors) (s : State) : State × Bool :=
  match l with
  | [] => (s, false)
  | (x, bs) :: t =>
    let a := writeWord id r x bs (es.headD {}) s
    let b := writeWords id r t (es.drop 1) a.1
    (b.1, a.2 || b.2)

/-- Words of the block of `x` marked, whose numbers are listed. -/
def markWords (x : Nat) (words : List Nat) (s : State) : State :=
  forEach words (fun w => markWord (x / 2048 * 2048 + w * 64)) s

/-- The read of a whole block, for a read-modify-write or a scrub: what decodes is corrected, else the words that failed are marked
(R220, R221). The flag says that the block does not decode. -/
def readBlock (id : Nat) (r : Region) (x : Nat) (e : WordErrors) (src : Nat) (s : State) : State × Bool :=
  let marked := markedWords s.hbm.poison x
  let bad := (badWordsOf e marked).map (·.1)
  let o := r.decodeBlock e marked
  let s1 := logOutcome id r (x / 2048 * 2048 + bad.headD 0 * 64) o src s
  if o = .failed then (markWords x bad s1, true) else (s1, false)

/-- A write to a block of an archive region: encoded directly when the whole write covers the block, else a read-modify-write, which
leaves a block that cannot be decoded unwritten (R221). -/
def writeBlock (id : Nat) (r : Region) (x : Nat) (bs : List Byte) (direct : Bool) (e : WordErrors) (s : State) : State × Bool :=
  let words := cutWords x bs 8
  let b := if direct then (s, false) else readBlock id r x e 2 (forEach words (fun w => closeLine w.1) s)
  if b.2 || (!direct && !r.rewritable e (markedWords s.hbm.poison x)) then (logEvent (logAt b.1 x 0x04 0 2 r.code id) b.1, true)
  else
    let w := writeWords id r words [] b.1
    (mapHbm (encodeBlock r x) w.1, w.2)

/-- A write of at most 256 bytes within one 256-byte block: the state, and whether it is answered Failed (R213, R221, R238). -/
def writeBytes (id : Nat) (r : Region) (x : Nat) (bs : List Byte) (direct : Bool) (es : List WordErrors) (s : State) : State × Bool :=
  if (fieldOf s (stackOfPhys x / 4)).fenced then (s, true)
  else if r.code = 2 then writeBlock id r x bs direct (es.headD {}) s
  else writeWords id r (cutWords x bs 8) es s

/-- A granule filled with zero words, and blocks of zeros with their parity, and its bit set (R223). -/
def fillGranule (g : Nat) : State → State :=
  mapHbm (fun h => { h with
    data := Mem.clear h.data (g * 65536) 65536
    parity := h.parity.filter (fun e => e.1 / 32 ≠ g)
    poison := h.poison.filter (fun w => w / 1024 ≠ g)
    written := if h.written.contains g then h.written else h.written ++ [g] })

/-! ## Answers -/

/-- The number of a counter of this module (R293, R367): for requests to a window of a target, answers of a window, messages to a channel, reports of a channel. -/
def requestCounter (target window : Nat) : Nat := 4 * (target * 4096 + window)
def answerCounter (window : Nat) : Nat := 4 * window + 1
def messageCounter (channel : Nat) : Nat := 4 * channel + 2
def reportCounter (channel : Nat) : Nat := 4 * channel + 3

/-- The next value of a counter, which is never used again, not even after a start (R293, log entry 17). -/
def nextNonce (key : Nat) (s : State) : Nat × State :=
  (Tab.get s.flash.nonces key 0, mapFlash (fun fl => { fl with nonces := Tab.upd fl.nonces key 0 (· + 1) }) s)

/-- An authenticated response to a window request, which carries the window's key since the target took it (R293, R295, R297). -/
def respondWindow (p : Pkt) (ptype : Nat) (poison failed : Bool) (body : List Byte) (s : State) : State :=
  let n := nextNonce (answerCounter p.window) s
  sendPkt 0 { p with ptype := ptype, poison := poison, failed := failed, nonce := n.1, src := s.mesh.addr.getD 0#16, dest := p.src,
                     hops := 63, rsv := 0, body := body } n.2

/-- A response on its way from where a window request was served to its port. -/
def replyFrom (f : Nat) (site : Site) (p : Pkt) (ptype : Nat) (poison failed : Bool) (body : List Byte) (s : State) : State :=
  carryOut f site 1 { p with dest := p.src } (.reply { p with ptype := ptype, poison := poison, failed := failed, body := body })
    (respondWindow p ptype poison failed body) s

/-- The gateway of the stack that holds a local address; the first column of the outward edge of the field when none does. -/
def addressGateway (s : State) (f a : Nat) : Nat × Site :=
  match regionAt s.hbm.regions a with
  | none => (f, .gateway (outwardEdge f) 0)
  | some (_, r) => stackGateway (r.phys a)

/-- The acknowledgement of a commit's write reaches its engine: the request ends. -/
def concludeWrite (f rid : Nat) (s : State) : State :=
  match requestOf s f rid with
  | none => s
  | some q => match q.dest with
    | .commit c => landCommit f c q.failed (endRequest f rid s)
    | _ => endRequest f rid s

/-- A tracked request whose last part has been answered ends (R194), and its answer goes where it belongs: the acknowledgement of a write to the engine beside
the outward edge of its field, the answer of a window to its port. -/
def finishRequest (f rid : Nat) (s : State) : State :=
  match requestOf s f rid with
  | none => s
  | some q =>
    if !q.issued || !q.waiting.isEmpty || q.held ≠ 0 then s
    else
      let g := addressGateway s f q.addr
      match q.dest with
      | .fill _ _ _ _ => endRequest f rid s
      | .commit _ => carry g.1 g.2 1 (.edge f (outwardEdge f) (g.2.lane 0)) (.done f rid) (holdOne f rid) (concludeWrite f rid) s
      | .window _ p =>
        if q.write then replyFrom g.1 g.2 p 0x05 false q.failed [] (endRequest f rid s)
        else replyFrom g.1 g.2 p 0x04 q.failed false (if q.failed then List.replicate q.len 0#8 else q.data) (endRequest f rid s)

/-- A tracked request that is lost on its way to the stack controller ends in another field's fence: a read delivers poison, a write fails (R238). -/
def failRequest (f rid : Nat) (s : State) : State :=
  match requestOf s f rid with
  | none => s
  | some q => match q.dest with
    | .fill t _ _ off => landFill f t off (List.replicate q.len 0#8) true (endRequest f rid s)
    | .commit c => landCommit f c true (endRequest f rid s)
    | .window _ _ => endRequest f rid s

/-- The data of one line lands for a request; the line starts at local offset `off` of the request. -/
def landPiece (f rid off : Nat) (bs : List Byte) (poisoned : Bool) (s : State) : State :=
  match requestOf s f rid with
  | none => s
  | some q =>
    match q.dest with
    | .fill t _ _ o =>
      landFill f t (o + off) bs poisoned (updRequest f rid (fun v => { v with failed := v.failed || poisoned }) s)
    | _ => updRequest f rid (fun v => { v with
        failed := v.failed || poisoned
        data := v.data.take off ++ bs ++ v.data.drop (off + bs.length) }) s

/-- The data of a line at the end of its way to a request: it lands in its slot part, or waits in a hold pool (R188, R194). -/
def landLine (f rid off : Nat) (bs : List Byte) (poisoned : Bool) (legs : List Leg) (s : State) : State :=
  match requestTarget s f rid with
  | some (p, i) => arrive legs 1 (.slice p i) (.line f rid off bs poisoned) (holdOne f rid) (landPiece f rid off bs poisoned) s
  | none => landPiece f rid off bs poisoned s

/-- The way of a line's data from the gateway of the stack channel that holds physical byte `x` to the request's slot part. -/
def lineLegs (s : State) (x f rid : Nat) : List Leg :=
  match requestTarget s f rid with
  | some (p, i) => legsTo s (stackGateway x).1 (stackGateway x).2 0 (.slice p i)
  | none => []

/-- The hops that a line's data makes to a request. -/
def lineHops (s : State) (f rid : Nat) (legs : List Leg) : List Hop :=
  match requestTarget s f rid with
  | some (p, i) => openHops s 1 (.slice p i) legs
  | none => []

/-- The data of a line carried to one request. -/
def sendLine (f rid off : Nat) (bs : List Byte) (poisoned : Bool) (x : Nat) (s : State) : State :=
  let legs := lineLegs s x f rid
  landLine f rid off bs poisoned legs (grantHops 1 (lineHops s f rid legs) s)

/-- A copy that is held stays with the router behind the gateway, which replicates it (R190), unless that router is a pass-through router, which has no
pool (R182). -/
def Leg.attached (s : State) (l : Leg) : Leg :=
  match l.site with
  | .router _ _ => l
  | .gateway e i => if (fieldOf s l.field).routerLive (edgeRouter e i).1 (edgeRouter e i).2 then { l with site := .router (edgeRouter e i).1 (edgeRouter e i).2 } else l

/-- The way of a copy of a multicast response: as far as the field of its destination that of the first copy for that field, so that each bridge carries
one copy for each destination field beyond it (R200; log entry 120), and there its own. -/
def copyLegs (s : State) (x : Nat) (requesters : List (Nat × Nat)) (q : Nat × Nat) : List Leg :=
  let first := (requesters.find? (fun r => (requestTarget s r.1 r.2).map (fun t => fieldOfPlot t.1) = (requestTarget s q.1 q.2).map (fun t => fieldOfPlot t.1))).getD q
  let way := lineLegs s x first.1 first.2
  let own := match way.getLast?, requestTarget s q.1 q.2 with
    | some l, some (p, i) => legsTo s l.field l.site l.vc (.slice p i)
    | _, _ => []
  (way.dropLast ++ own).map (Leg.attached s)

/-- A kept line leaves its hold (R188 step 4): it lands, and its request ends if it was the last part. -/
def landKept (f rid off : Nat) (bs : List Byte) (poisoned : Bool) (s : State) : State :=
  finishRequest f rid (landPiece f rid off bs poisoned (freeOne f rid s))

/-- The pieces of a read: for each line that it touches, the physical byte where the piece starts, its offset in the request and
its length. -/
def linePieces (x off len fuel : Nat) : List (Nat × Nat × Nat) :=
  match fuel with
  | 0 => []
  | n + 1 => if len = 0 then [] else
    let k := min len (64 - x % 64)
    (x, off, k) :: linePieces (x + k) (off + k) (len - k) n

/-- May a read join an entry (R197, R198)? -/
def MergeEntry.joins (e : MergeEntry) (line : Nat) : Bool := e.line = line && e.takes && decide (e.requesters.length < 64)

def findJoin (l : Tab MergeEntry) (line : Nat) : Option (Nat × MergeEntry) :=
  match l with
  | [] => none
  | (k, e) :: r => if e.joins line then some (k, e) else findJoin r line

/-- A read of one piece without merging. -/
def readPiece (id : Nat) (r : Region) (f rid : Nat) (pc : Nat × Nat × Nat) (e : WordErrors) (s : State) : State :=
  let w := readWord id r pc.1 e 0 s
  sendLine f rid pc.2.1 ((w.2.1.drop (pc.1 % 64)).take pc.2.2) w.2.2 pc.1 w.1

/-- A read of one piece at its controller: poison from a lost block, zero from an unwritten granule, a merge entry joined or opened
for a whole line of a DMA engine, else one DRAM read (R197, R222, R238). -/
def servePiece (id : Nat) (r : Region) (f rid : Nat) (merges : Bool) (pc : Nat × Nat × Nat) (er : WordErrors) (s : State) : State :=
  let x := pc.1
  let k := stackOfPhys x
  if unreachable s r x || !s.hbm.isWritten (granuleOf x) || !merges || pc.2.2 ≠ 64 then readPiece id r f rid pc er s
  else match findJoin (stackOf s k).merge (x / 64) with
    | some (e, m) =>
      let s1 := updStack k (fun v => { v with
        joined := satInc 64 v.joined
        merge := Tab.set v.merge e { m with requesters := m.requesters ++ [(f, rid)] } }) s
      if m.returned then sendLine f rid pc.2.1 (m.copy.getD []) m.poison x s1
      else updRequest f rid (fun v => { v with waiting := v.waiting ++ [x / 64] }) s1
    | none =>
      if (stackOf s k).merge.length < 512 then
        updRequest f rid (fun v => { v with waiting := v.waiting ++ [x / 64] })
          (updStack k (fun v => { v with
            opened := satInc 64 v.opened
            nextEntry := v.nextEntry + 1
            merge := Tab.set v.merge v.nextEntry ⟨x / 64, [(f, rid)], true, false, none, false⟩ }) s)
      else readPiece id r f rid pc er (updStack k (fun v => { v with full := satInc 64 v.full }) s)

def servePieces (id : Nat) (r : Region) (f rid : Nat) (merges : Bool) (l : List (Nat × Nat × Nat)) (es : List WordErrors) (s : State) :
    State :=
  match l with
  | [] => s
  | p :: t => servePieces id r f rid merges t (es.drop 1) (servePiece id r f rid merges p (es.headD {}) s)

/-- Reads that merge come from DMA engines of this module (R197). -/
def ReqDest.merges (d : ReqDest) : Bool := match d with | .fill _ _ _ _ => true | _ => false

/-- A read request served by its controller (R217, R197). A request whose region has gone reads zero. -/
def performRead (f rid : Nat) (merging : Bool) (es : List WordErrors) (s : State) : State :=
  match requestOf s f rid with
  | none => s
  | some q =>
    let s0 := updRequest f rid (fun v => { v with issued := true }) s
    match regionAt s.hbm.regions q.addr with
    | none => finishRequest f rid (sendLine f rid 0 (List.replicate q.len 0#8) false (f * 2 ^ 38) s0)
    | some (id, r) =>
      finishRequest f rid (servePieces id r f rid (merging && q.dest.merges) (linePieces (r.phys q.addr) 0 q.len 8) es s0)

/-- Do the rows of a transfer cover a range of local addresses? -/
def rowsCover (rows : List (Int × Nat)) (a n fuel : Nat) : Bool :=
  if n = 0 then true
  else match fuel with
    | 0 => false
    | k + 1 => match rows.find? (fun r => decide (r.1 ≤ (a : Int)) && decide ((a : Int) < r.1 + (r.2 : Int))) with
      | none => false
      | some r => rowsCover rows (r.1 + (r.2 : Int)).toNat (n - ((r.1 + (r.2 : Int)).toNat - a)) k

/-- Does the write that a request is part of cover the request's whole aligned 2 KiB block (R221)? -/
def wholeBlock (s : State) (f : Nat) (q : MemReq) : Bool :=
  match q.dest with
  | .commit c => match commitOf s f c with
    | some v => rowsCover v.rows (q.addr / 2048 * 2048) 2048 65
    | none => false
  | _ => false

/-- A write request served by its controller (R213). -/
def performWrite (f rid : Nat) (es : List WordErrors) (s : State) : State :=
  match requestOf s f rid with
  | none => s
  | some q =>
    let s0 := updRequest f rid (fun v => { v with issued := true }) s
    match regionAt s.hbm.regions q.addr with
    | none => finishRequest f rid s0
    | some (id, r) =>
      let w := writeBytes id r (r.phys q.addr) q.data (wholeBlock s f q) es s0
      finishRequest f rid (updRequest f rid (fun v => { v with failed := v.failed || w.2 }) w.1)

/-- What the reads of a request find that the model serves without an operand for it (log entry 18). -/
def freeErrors (s : State) : List WordErrors := (List.range 5).map (Config.readErrors s.free)

/-- A waiting request served, whatever its reads find. -/
def serveNow (f rid : Nat) (merging : Bool) (s : State) : State :=
  match requestOf s f rid with
  | none => s
  | some q => if q.write then performWrite f rid (freeErrors s) (drawFree s) else performRead f rid merging (freeErrors s) (drawFree s)

/-- The zero fill of a granule ends: its bit is set, queued writes run in order, held reads are released (R223). -/
def completeFill (g : Nat) (s : State) : State :=
  match Tab.find s.hbm.filling g with
  | none => s
  | some l =>
    let s1 := fillGranule g (mapHbm (fun h => { h with filling := Tab.erase h.filling g }) s)
    let isWrite := fun (e : Nat × Nat) => match requestOf s1 e.1 e.2 with
      | some q => q.write
      | none => false
    let s2 := forEach (l.filter isWrite) (fun e => serveNow e.1 e.2 true) s1
    forEach (l.filter (fun e => !isWrite e)) (fun e => serveNow e.1 e.2 true) s2

/-- A filler of a granule's stack for one more fill: when four granules fill there, one of them ends first (R223; log entry 18). -/
def freeFiller (g : Nat) (s : State) : State :=
  match s.hbm.filling.filter (fun e => e.1 / 2 ^ 20 = g / 2 ^ 20) with
  | e :: _ :: _ :: _ :: _ => completeFill e.1 s
  | _ => s

/-- A granule as a write or an atomic finds it: a fill under way completes, and a first write fills it (R222, R223). -/
def readyGranule (g : Nat) (s : State) : State :=
  if (Tab.find s.hbm.filling g).isSome then completeFill g s
  else if s.hbm.isWritten g || (fieldOf s (g / 2 ^ 20 / 4)).fenced then s
  else fillGranule g (freeFiller g s)

/-- DRAM data returns for a merge entry: every requester recorded is answered from one read, logged once (R198 to R201), by
one multicast response that each link carries once (R200). -/
def returnEntry (stack entry : Nat) (er : WordErrors) (s : State) : State :=
  match Tab.find (stackOf s stack).merge entry with
  | none => s
  | some e =>
    if e.returned then s
    else
      let x := e.line * 64
      let reg := s.hbm.regions.find? (fun p => p.2.holdsGranule (granuleOf x))
      let rd : WordRead := match e.copy with
        | some c => match reg with
          | some (id, r) =>
            let o := r.decodeWord s.hbm.poison x er
            if unreachable s r x then (s, List.replicate 64 0#8, true)
            else (if e.poison then s else logOutcome id r x o 0 s, c, e.poison || decide (o = .failed))
          | none => (s, c, e.poison)
        | none => match reg with
          | some (id, r) => readWord id r x er 0 s
          | none => (s, List.replicate 64 0#8, false)
      let s1 := updStack stack (fun k => { k with
      merge :=
        if e.takes then Tab.set k.merge entry { e with returned := true, copy := some rd.2.1, poison := rd.2.2 }
        else Tab.erase k.merge entry }) rd.1
      let way := copyLegs s1 x e.requesters
      forEach e.requesters (fun q s =>
        match requestOf s q.1 q.2 with
        | none => s
        | some v =>
          let off := match regionAt s.hbm.regions v.addr with
            | some (_, r) => x - r.phys v.addr
            | none => 0
          finishRequest q.1 q.2
            (landLine q.1 q.2 off rd.2.1 rd.2.2 (way q) (updRequest q.1 q.2 (fun u => { u with waiting := u.waiting.filter (· ≠ e.line) }) s)))
        (grantUnion 1 (e.requesters.map (fun q => lineHops s1 q.1 q.2 (way q))) s1)

/-! ## Waiting for the requests of a region (R224 step 2, R227 step 2) -/

/-- A merge entry's data returns, whatever its read finds. -/
def returnNow (stack entry : Nat) (s : State) : State := returnEntry stack entry (Config.readErrors s.free 0) (drawFree s)

/-- One request still tracked at a region that is going: served, a write that is the first to its granule after the granule's fill. -/
def serveLast (r : Region) (f : Nat) (e : Nat × MemReq) (s : State) : State :=
  serveNow f e.1 false (onlyIf e.2.write (readyGranule (granuleOf (r.phys e.2.addr))) s)

/-- A line that a hold pool keeps for a read of a region that is going returns zero: its requester is held, and the granule may be clear already when it
arrives (R228). -/
def zeroLine (r : Region) (s : State) (v : Parcel) : Parcel :=
  match v.cargo with
  | .line f rid off bs _ =>
    if (requestOf s f rid).any (fun q => r.covers q.addr) then { v with cargo := .line f rid off (List.replicate bs.length 0#8) false } else v
  | _ => v

def zeroHeld (r : Region) (s : State) : State :=
  forEach (List.range 8) (fun f s => updTrellis f (fun t => { t with pools := t.pools.map (zeroLine r s), stalled := t.stalled.map (zeroLine r s) }) s) s

/-- Every tracked request to a region answered: fills end, merge entries return, and what is left is served (log entry 18); the reads of a plot whose traffic is
held return zero after its resume (R228). -/
def settleRegion (r : Region) (s : State) : State :=
  let inside := fun (line : Nat) => r.holdsGranule (granuleOf (line * 64))
  let s1 := forEach (s.hbm.filling.filter (fun e => r.holdsGranule e.1)) (fun e => completeFill e.1) s
  let s2 := forEach (List.range 32) (fun k s =>
    forEach ((stackOf s k).merge.filter (fun e => inside e.2.line && !e.2.returned)) (fun e => returnNow k e.1) s) s1
  zeroHeld r (forEach (List.range 8) (fun f s =>
    forEach ((fieldOf s f).requests.filter (fun e => r.covers e.2.addr)) (serveLast r f) s) s2)

/-- Granules wiped from the map, with their merge entries (R224 step 3, R199). -/
def Hbm.wipe (h : Hbm) (gone : Nat → Bool) : Hbm :=
  { h with
    data := h.data.filter (fun e => !gone (granuleOf e.1))
    parity := h.parity.filter (fun e => !gone (e.1 / 32))
    poison := h.poison.filter (fun w => !gone (w / 1024))
    written := h.written.filter (fun g => !gone g)
    stks := h.stks.map (fun k => (k.1, { k.2 with merge := k.2.merge.filter (fun e => !gone (granuleOf (e.2.line * 64))) })) }

/-- The map bits of every granule of a region cleared, and its merge entries closed (R224 step 3, R199); those of a fenced field's stacks cannot
be reached (R228). -/
def clearGranules (r : Region) (s : State) : State :=
  mapHbm (fun h => h.wipe (fun g => r.holdsGranule g && !(fieldOf s (g / 2 ^ 20 / 4)).fenced)) s

/-- A pending clear for the stacks of fenced fields that hold blocks of a region (R228). -/
def pendClears (r : Region) (s : State) : State :=
  let fs := (List.range 8).filter (fun f => r.usesField f && (fieldOf s f).fenced)
  mapFlash (fun fl => { fl with pendingClears := fl.pendingClears ++ fs.map (fun f => (f, r)) }) s

/-- Pending clears applied, before any region uses the stacks; those of a field that is fenced again go on waiting (R228). -/
def applyClears (s : State) : State :=
  let due := s.flash.pendingClears.filter (fun e => !(fieldOf s e.1).fenced)
  mapFlash (fun fl => { fl with pendingClears := fl.pendingClears.filter (fun e => (fieldOf s e.1).fenced) })
    (forEach due (fun e => mapHbm (fun h => h.wipe (fun g => e.2.holdsGranule g && g / 2 ^ 20 / 4 = e.1))) s)

/-- REGION_STATE (R345). -/
def noteRegion (id : Nat) (s : State) : State :=
  match regionOf s id with
  | none => s
  | some r => record (ev 0x0202 0 [(16, id), (8, r.state), (8, r.lost.toNat)]) s

def updRegion (id : Nat) (g : Region → Region) : State → State :=
  mapHbm (fun h => match Tab.find h.regions id with
    | none => h
    | some r => { h with regions := Tab.set h.regions id (g r) })

/-- `memory.region.clear` (R224, R239): CLEARING, every tracked request answered, the map bits cleared, ACTIVE again. -/
def clearRegion (id : Nat) (s : State) : State :=
  match regionOf s id with
  | none => s
  | some r =>
    let s1 := noteRegion id (updRegion id (fun v => { v with state := 1 }) s)
    let s2 := pendClears r (clearGranules r (settleRegion r s1))
    noteRegion id (updRegion id (fun v => { v with state := 0, lost := 0#8 }) s2)

/-! ## Key slots and teardown (R226, R227, R351, R375) -/

/-- Does a region have blocks on a stack? -/
def Region.usesStack (r : Region) (k : Nat) : Bool :=
  match r.interleave with
  | 0 => k / 4 = r.place
  | 1 => true
  | _ => k = r.place

/-- The key slots that a stack controller needs: the module's own and those of the regions on its stack (R226). -/
def slotsOn (l : Tab Region) (k : Nat) : List Nat := (0 :: (l.filter (fun e => e.2.usesStack k)).map (·.2.keySlot)).eraseDups

/-- Every controller that can be reached caches the slots in use on its stack (R226, R227 step 4); a fenced one has lost its contents (R228). -/
def loadKeys (s : State) : State :=
  forEach (List.range 32) (fun k => updStack k (fun v => { v with
    keys := if (fieldOf s (k / 4)).fenced then [] else (slotsOn s.hbm.regions k).map (fun n => (n, slotKey s n)) })) s

/-- A key slot destroyed: its owner, its residency record and its copies. The destruction record that R375 writes first is gone
when the destruction is complete. -/
def destroySlot (k : Nat) : State → State :=
  mapGate (fun g => { g with keySlots := Tab.erase g.keySlots k, residency := Tab.erase g.residency k })

/-- Windows that overlap a range of local addresses close (R297). -/
def closeWindows (base size : Nat) : State → State :=
  mapMesh (fun m => { m with
  windows := Tab.mapVals m.windows (fun _ w =>
    if !w.aperture && decide (w.base < base + size) && decide (base < w.base + w.size) then { w with closed := true } else w) })

/-- Tenant teardown of a region (R227, R228). -/
def teardownRegion (id : Nat) (s : State) : State :=
  match regionOf s id with
  | none => s
  | some r =>
    let s1 := pendClears r (clearGranules r (settleRegion r (closeWindows r.base r.bytes s)))
    let s2 := loadKeys (mapHbm (fun h => { h with regions := Tab.erase h.regions id }) s1)
    if s2.hbm.regions.any (fun e => e.2.keySlot = r.keySlot && e.2.resident) then s2
    else if s2.hbm.regions.any (fun e => e.2.keySlot = r.keySlot) then
      mapGate (fun g => { g with residency := Tab.erase g.residency r.keySlot }) s2
    else destroySlot r.keySlot s2

def teardownAll (ids : List Nat) (s : State) : State := forEach ids teardownRegion s

/-- Region ids, ascending, that meet a condition. -/
def regionsWhere (s : State) (p : Region → Bool) : List Nat := (s.hbm.regions.filter (fun e => p e.2)).map (·.1)

end Sys2Proof.Machine
end

