-- ==== Sys2Proof/Machine/Tokens.lean ====
section
/-! DEFINITION. Tokens of a plot's array: node keys, operand stores with their reserved entries, output registers, tags, retirement, which
firing a unit takes (R112 to R121, R125 to R127, R131), and messages in a ring (R158 to R163). -/

namespace Sys2Proof.Machine

open Sys2Proof

/-! ## Nodes -/

/-- The section number in the active store slot. -/
def Arr.activeNum (a : Arr) : Option Nat := match a.active with
  | none => none
  | some k => Tab.find a.store k

/-- The active section of a plot. -/
def activeSection (s : State) (p : Nat) : Option Section := match (plotOf s p).arr.activeNum with
  | none => none
  | some n => Tab.find s.job.sections n

/-- The key of a node: (8 × slice + position) × 16 + node. -/
def nodeKey (slice pos node : Nat) : Nat := (8 * slice + pos) * 16 + node
def refKey (n : NodeRef) : Nat := nodeKey n.slice n.pos n.node
def Dest.key (d : Dest) : Nat := nodeKey d.slice d.pos d.node

/-- Slice and position of a key. -/
def keySlice (k : Nat) : Nat := k / 128
def keyPos (k : Nat) : Nat := k / 16 % 8

/-- The constant that feeds a port (R124). -/
def Node.constPort (nd : Node) (port : Nat) : Option Nat :=
  if nd.kport0 = port then some nd.kidx0 else if nd.kport1 = port then some nd.kidx1 else none

/-- Ports that take tokens. -/
def Node.openPorts (nd : Node) : List Nat := (List.range nd.inCount).filter (fun q => (nd.constPort q).isNone)

/-- A source (R117): no port takes tokens. -/
def Node.isSource (nd : Node) : Bool := nd.openPorts.isEmpty

/-- A constant in every lane of its port (R126). -/
def Section.constLanes (sec : Section) (slice idx : Nat) : List U32 := List.replicate 16 (Tab.get sec.consts (slice * 128 + idx) 0#32)

/-! ## Tags (R116, R127) -/

def tagCtx (t : BitVec 16) : Nat := t.toNat / 4096
def tagIter (t : BitVec 16) : Nat := t.toNat % 4096
def mkTag (ctx iter : Nat) : BitVec 16 := BitVec.ofNat 16 (ctx % 16 * 4096 + iter % 4096)

/-- `TAG_OP` on the tag of a result. -/
def Node.resultTag (nd : Node) (t : BitVec 16) : BitVec 16 :=
  match nd.tagOp with
  | 0 => t
  | 1 => mkTag (tagCtx t) (tagIter t + 1)
  | 2 => mkTag (tagCtx t) 0
  | _ => mkTag nd.ctx (tagIter t)

/-! ## Operand stores and output registers (R119, R120) -/

/-- Ports of the valid nodes of a unit that reserve an entry. -/
def Section.unitPorts (sec : Section) (unit : Nat) : Nat :=
  (sec.nodes.filter (fun e => e.1 / 16 = unit)).foldl (fun n e => n + e.2.openPorts.length) 0

/-- Is the entry reserved for a port free? -/
def Arr.reservedFree (a : Arr) (key port : Nat) : Bool := !a.toks.any (fun t => t.key = key && t.port = port && !t.shared)

/-- Is one of the shared entries of a port's unit free? -/
def Arr.sharedFree (sec : Section) (a : Arr) (key : Nat) : Bool :=
  decide ((a.toks.filter (fun t => t.key / 16 = key / 16 && t.shared)).length < 64 - sec.unitPorts (key / 16))

/-- Is an entry of the unit's 64 free for a token at a port: its reserved one, or a shared one? -/
def Arr.room (sec : Section) (a : Arr) (key port : Nat) : Bool := a.reservedFree key port || a.sharedFree sec key

/-- A token in its operand store: in the reserved entry of its port when that is free, else in a shared one (R120). -/
def Arr.store_ (a : Arr) (t : Tok) : Arr := { a with toks := a.toks ++ [{ t with stamp := a.clock, shared := !a.reservedFree t.key t.port }] }

/-- The slice that a token in a slice goes to next, and the direction in which it enters it: along the slice row first, then along the column
(R113). -/
def nextSlice (at_ target : Nat) : Nat × Nat :=
  if at_ % 4 < target % 4 then (at_ + 1, 1) else if target % 4 < at_ % 4 then (at_ - 1, 2)
  else if at_ < target then (at_ + 4, 3) else (at_ - 4, 4)

/-- Is one of the four pass-through registers of a slice and an incoming direction free (R113)? -/
def Arr.passFree (a : Arr) (slice dir : Nat) : Bool := decide ((a.pass.filter (fun q => q.slice = slice && q.dir = dir)).length < 4)

/-- One step of a token that leaves a slice: into the operand store of its own slice or of a neighbour, or into a pass-through register of the
next slice on its way; none while there is no room (R113, R120). -/
def Arr.forward (sec : Section) (a : Arr) (at_ : Nat) (t : Tok) : Option Arr :=
  let n := nextSlice at_ (keySlice t.key)
  if at_ = keySlice t.key || n.1 = keySlice t.key then (if a.room sec t.key t.port then some (a.store_ t) else none)
  else if a.passFree n.1 n.2 then some { a with pass := a.pass ++ [⟨n.1, n.2, t⟩] } else none

/-- A token in a pass-through register goes on, or stays. -/
def Arr.relay (sec : Section) (a : Arr) (q : PassTok) : Arr :=
  let b : Arr := { a with pass := a.pass.erase q }
  (b.forward sec q.slice q.tok).getD { b with pass := b.pass ++ [q] }

/-- A result leaves its output register, or stays. -/
def Arr.deliver (sec : Section) (a : Arr) (o : OutTok) : Arr :=
  (a.forward sec (keySlice o.src) o.tok).getD { a with outs := a.outs ++ [o] }

/-- Every token on its way tried once, in the order sent: those in pass-through registers before those in output registers. -/
def Arr.pumpOnce (sec : Section) (a : Arr) : Arr :=
  let b := a.pass.foldl (fun b q => b.relay sec q) a
  b.outs.foldl (fun b o => b.deliver sec o) { b with outs := [] }

/-- Tokens on their way move until none can (a token crosses at most six slices). -/
def Arr.pumpFor (sec : Section) (n : Nat) (a : Arr) : Arr :=
  match n with
  | 0 => a
  | n + 1 => if a.pass.isEmpty && a.outs.isEmpty then a
    else
      let b := a.pumpOnce sec
      if b.pass = a.pass && b.outs = a.outs then b else b.pumpFor sec n

/-- Every token on its way moved as far as there is room. -/
def Arr.pump (sec : Section) (a : Arr) : Arr := a.pumpFor sec (8 * (a.pass.length + a.outs.length) + 8)

/-- A token as a node sends it in an epoch. -/
def Arr.token (a : Arr) (d : Dest) (tag : BitVec 16) (lanes : List U32) : Tok := ⟨d.key, d.port, tag, a.epoch, lanes, 0, false⟩

/-- A result sent to destinations with a tag. -/
def Arr.emit (sec : Section) (key : Nat) (dests : List Dest) (tag : BitVec 16) (lanes : List U32) (a : Arr) : Arr :=
  ({ a with outs := a.outs ++ dests.map (fun (d : Dest) => OutTok.mk key (a.token d tag lanes)) }).pump sec

/-- The destinations of a node. -/
def Node.dests (nd : Node) : List Dest := nd.dest0.toList ++ nd.dest1.toList

/-- Does a result of the node still wait in its output register? -/
def Arr.blocked (a : Arr) (key : Nat) : Bool := a.outs.any (fun o => o.src = key)

/-- The earliest token at a port with a tag. -/
def Arr.at_ (a : Arr) (key port : Nat) (tag : BitVec 16) : Option Tok :=
  a.toks.find? (fun t => t.key = key && t.port = port && t.tag = tag)

/-- The earliest token at each of some ports with a tag leaves the store. -/
def Arr.takeToks (a : Arr) (key : Nat) (ports : List Nat) (tag : BitVec 16) : Arr :=
  { a with toks := ports.foldl (fun l q => match a.at_ key q tag with
    | none => l
    | some t => l.erase t) a.toks }

/-! ## Retirement (R121) -/

/-- The retire counter of a context over consecutive retired iterations. -/
def advanceRetired (need : Nat) (fired : Tab Nat) (ctx r fuel : Nat) : Tab Nat × Nat :=
  match fuel with
  | 0 => (fired, r)
  | n + 1 =>
    if need ≤ Tab.get fired (ctx * 4096 + r % 4096) 0 then
      advanceRetired need (Tab.erase fired (ctx * 4096 + r % 4096)) ctx (r + 1) n
    else (fired, r)

/-- A firing of a node marked `RETIRE` counts for its tag. -/
def Arr.retire (sec : Section) (nd : Node) (tag : BitVec 16) (a : Arr) : Arr :=
  if sec.windowEn && nd.retire then
    let fired := Tab.upd a.retFired tag.toNat 0 (· + 1)
    let r := advanceRetired sec.retireCount fired (tagCtx tag) (Tab.get a.retired (tagCtx tag) 0) 4096
    { a with retFired := r.1, retired := Tab.set a.retired (tagCtx tag) r.2 }
  else a

/-- May a source in a context emit its n-th iteration (R121)? An iteration that retires before an earlier one stays unretired until that one retires (log entry 126, DESIGN
CHOICE). -/
def Arr.windowOpen (sec : Section) (ctx n : Nat) (a : Arr) : Bool :=
  !sec.windowEn || decide (n - Tab.get a.retired ctx 0 < sec.iterWindow)

/-! ## Which firing a unit takes (R117, R118) -/

/-- Group size of the reduce unit and of SPREAD (R130). -/
def Node.group (nd : Node) : Nat := 2 ^ bits nd.arg.toNat 0 4

/-- Ports whose tokens a firing takes: all open ports, but MERGE takes its control and the port that the control selects. -/
def Arr.firingPorts (sec : Section) (a : Arr) (key : Nat) (nd : Node) (tag : BitVec 16) : List Nat :=
  if keyPos key = 4 && nd.op = 2 then
    let ctl := match nd.constPort 0 with
      | some c => (sec.constLanes (keySlice key) c).headD 0#32
      | none => ((a.at_ key 0 tag).map (fun t => t.lanes.headD 0#32)).getD 0#32
    let data := if ctl = 0#32 then 2 else 1
    [0, data].filter (fun q => (nd.constPort q).isNone)
  else nd.openPorts

/-- Does a node of the reduce unit that works across iterations take this one next (R131)? -/
def Arr.inOrder (a : Arr) (key : Nat) (nd : Node) (tag : BitVec 16) : Bool :=
  if keyPos key = 3 && 8 ≤ nd.op then
    let c := Tab.get a.accs (key * 16 + tagCtx tag) Acc.empty
    decide ((c.groups * nd.group + c.count) % 4096 = tagIter tag)
  else true

/-- When the operands of a firing arrived: the clock of the earliest and of the last; none when one is missing. -/
def Arr.readyAt (sec : Section) (a : Arr) (key : Nat) (nd : Node) (tag : BitVec 16) : Option (Nat × Nat) :=
  let ports := a.firingPorts sec key nd tag
  if nd.isSource || a.blocked key || !a.inOrder key nd tag || (ports.contains 0 && (a.at_ key 0 tag).isNone) then none
  else
    let l := ports.map (fun q => (a.at_ key q tag).map (·.stamp))
    if l.contains none then none
    else some ((l.filterMap id).foldl min ((l.filterMap id).headD 0), (l.filterMap id).foldl max 0)

/-- The order of preference of a ready firing of a unit, compared from its first number on, lower first (R118): with `WINDOW_EN` the iterations
after the retire counter, the node, the arrival of the earliest operand; else the arrival of the last operand, the node. -/
def Arr.score (sec : Section) (a : Arr) (key : Nat) (tag : BitVec 16) (at_ : Nat × Nat) : List Nat :=
  if sec.windowEn then [(tagIter tag + 4096 - Tab.get a.retired (tagCtx tag) 0 % 4096) % 4096, key % 16, at_.1]
  else [at_.2, key % 16]

/-- Numbers compared from the first on. -/
def scoreLe : List Nat → List Nat → Bool
  | a :: r, b :: t => decide (a < b) || (a = b && scoreLe r t)
  | [], _ => true
  | _, _ => false

/-- A completion token (R138): 1 in lane 0. -/
def doneLanes : List U32 := 1#32 :: List.replicate 15 0#32

/-! ## Rings (R158 to R163) -/

/-- Occupied entries, pads included. -/
def Queue.occupied (q : Queue) : Nat := q.msgs.foldl (fun n m => n + m.len) 0

/-- Where R161 places m entries in a ring of S with tail T and F free entries: the place and whether a pad covers the rest
of the ring first; none: the writer waits. -/
def placeInRing (m t s f : Nat) : Option (Nat × Bool) :=
  if m ≤ s - t && m ≤ f then some (t, false)
  else if s - t < m && s - t ≤ f && m ≤ f - (s - t) then some (0, true)
  else none

/-- Pads at the head are skipped (R159). -/
def skipPads (ring head : Nat) (l : List QMsg) : List QMsg × Nat :=
  match l with
  | m :: r => if m.pad && m.start = head then skipPads ring ((head + m.len) % ring) r else (m :: r, head)
  | [] => ([], head)

def Queue.skip (ring : Nat) (q : Queue) : Queue := { q with msgs := (skipPads ring q.head q.msgs).1, head := (skipPads ring q.head q.msgs).2 }

/-- A message placed with its pad (R161): the queue, and the place of the pad and of the message. -/
def Queue.place (ring : Nat) (payload : List Byte) (seq : Nat) (q : Queue) : Option (Queue × Option Nat × Nat) :=
  let m := payload.length / 32
  match placeInRing m q.tail ring (ring - q.occupied) with
  | none => none
  | some (t, padded) =>
    let pad : List QMsg := if padded then [⟨true, q.tail, ring - q.tail, 0, [], 0#32, 0, true, 0, []⟩] else []
    let msg : QMsg := ⟨false, t, m, seq, payload, crc32 payload, 2 ^ m - 1, false, 0, []⟩
    let q' : Queue := { q with msgs := q.msgs ++ pad ++ [msg], tail := (t + m) % ring }
    some (q', if padded then some q.tail else none, t)

/-- The first message that is not yet readable, when it is written whole and none before it is missing (R163). -/
def nextUnread (ring pos : Nat) (l : List QMsg) : Option QMsg :=
  match l with
  | [] => none
  | m :: r =>
    if m.start ≠ pos || m.len = 0 then none
    else if m.pad || m.readable then nextUnread ring ((pos + m.len) % ring) r
    else if m.written = 2 ^ m.len - 1 then some m
    else none

/-- The message at the head, when it is readable. -/
def Queue.front (q : Queue) : Option QMsg :=
  match q.msgs with
  | m :: _ => if m.readable && !m.pad && m.start = q.head then some m else none
  | [] => none

/-- The message that starts at a position leaves the queue: its entries become free once every entry before them is. -/
def Queue.dropMsg (ring start : Nat) (q : Queue) : Queue :=
  ({ q with msgs := q.msgs.map (fun (m : QMsg) => if m.start = start then { m with pad := true, readable := true } else m) } : Queue).skip ring

/-- Partly read messages begin again at their first entry (R163). -/
def Queue.rewind (q : Queue) : Queue := { q with msgs := q.msgs.map (fun m => { m with read := 0 }) }

end Sys2Proof.Machine
end

