-- ==== Sys2Proof/Machine/Pensyn.lean ====
section
/-! DEFINITION. The Pensyn request path shared by every mailbox command: the tests of R310 in their order, the answers of
R314 to R319, and the response ring under R304, R307 and R311. -/

namespace Sys2Proof.Machine

open Sys2Proof

/-! ## Status codes (R319) -/

def stOk : Nat := 0x0000
def stOkClamped : Nat := 0x0001
def stWrongState : Nat := 0x0010
def stUnknown : Nat := 0x0011
def stBadLength : Nat := 0x0012
def stNotAuthorised : Nat := 0x0013
def stBusy : Nat := 0x0014
def stVerifyFailed : Nat := 0x0020
def stSignatureFailed : Nat := 0x0021
def stExhausted : Nat := 0x0030

/-- An answer: status, `CLAMP_REPORT`, payload. -/
structure Reply where
  status : Nat
  clamps : Nat
  payload : List Byte
  deriving DecidableEq, Repr

def Reply.good (r : Reply) : Bool := r.status = stOk || r.status = stOkClamped

/-- What a command does once the tests of R310 steps 1 to 6 have passed: the state it leaves and its answer. -/
abbrev Ans := State × Reply

/-- OK with a payload. -/
def ok (payload : List Byte) (s : State) : Ans := (s, ⟨stOk, 0, payload⟩)

/-- An answer by status alone, with no side effect. -/
def answer (status : Nat) (s : State) : Ans := (s, ⟨status, 0, []⟩)

/-- The diagnostic record (R318). -/
structure Diag where
  table : Nat
  rule : Nat
  entry : Nat
  plot : Nat
  slice : Nat
  pos : Nat
  node : Nat
  ruleRef : Nat
  value : Nat
  deriving DecidableEq, Repr

def Diag.bytes (d : Diag) : List Byte :=
  lay [(4, pack [(8, d.table), (8, d.rule), (16, d.entry)]),
    (4, pack [(9, d.plot), (4, d.slice), (3, d.pos), (4, d.node)]),
    (4, d.ruleRef), (4, 0), (16, d.value)]

/-- A diagnostic of a command field (`TABLE` 0x10): field number, binding statement, value. -/
def fieldDiag (entry ruleRef value : Nat) : Diag := ⟨0x10, 0, entry, 0x1FF, 0, 0, 0, ruleRef, value⟩

/-- A diagnostic of a bulk descriptor (`TABLE` 0x0A, R309). -/
def bulkDiag (value : Nat) : Diag := ⟨0x0A, 0, 0, 0x1FF, 0, 0, 0, 309, value⟩

/-- VERIFY_FAILED with its record (R318); nothing executes. -/
def verifyFailed (d : Diag) (s : State) : Ans := (s, ⟨stVerifyFailed, 0, d.bytes⟩)

/-- SIGNATURE_FAILED with its record, `VALUE` zero (R318). -/
def signatureFailed (d : Diag) (s : State) : Ans := (s, ⟨stSignatureFailed, 0, { d with value := 0 }.bytes⟩)

/-- One clamped field: the value applied, and whether it was clamped (R314). -/
structure Clamped where
  value : Nat
  clamped : Bool
  deriving DecidableEq, Repr

/-- A field clamped to the nearer end of its range (R324). -/
def clampNear (lo hi v : Nat) : Clamped :=
  if v < lo then ⟨lo, true⟩ else if hi < v then ⟨hi, true⟩ else ⟨v, false⟩

/-- A field whose clamped value is the top of its range. -/
def clampTo (hi v : Nat) : Clamped := if hi < v then ⟨hi, true⟩ else ⟨v, false⟩

/-- `CLAMP_REPORT` over the fields in order (R315). -/
def clampMask (cs : List Clamped) : Nat :=
  match cs with
  | [] => 0
  | c :: r => flag c.clamped + 2 * clampMask r

/-- The applied values of the clamped fields, 8 bytes each, in ascending bit order (R315). -/
def appliedValues (cs : List Clamped) : List Byte :=
  match cs with
  | [] => []
  | c :: r => (if c.clamped then le 8 c.value else []) ++ appliedValues r

/-- OK or OK_CLAMPED, with the applied values before the command's own payload (R314, R315). -/
def okClamped (cs : List Clamped) (payload : List Byte) (s : State) : Ans :=
  (s, ⟨if clampMask cs = 0 then stOk else stOkClamped, clampMask cs, appliedValues cs ++ payload⟩)

/-! ## The response ring -/

/-- Ring size in entries (R303). -/
def ringSize : Nat := 1020

/-- Entries of a record: header, payload rounded up, trailer when a session seals it (R304). -/
def recordEntries (payLen session : Nat) : Nat := 1 + (payLen + 31) / 32 + (if session = 0 then 0 else 1)

/-- Free entries of the response ring: one entry always stays free (R304). -/
def Mailbox.rspFree (b : Mailbox) : Nat := ringSize - 1 - (b.rspTail + ringSize - b.rspHead) % ringSize

def Rsp.padRecord : Rsp := ⟨true, 0, 0, 0, 0, 0, false, 0#64, [], none⟩

/-- A response header (R307). -/
def Rsp.header (r : Rsp) : List Byte :=
  lay [(4, pack [(16, r.command), (16, r.payload.length)]), (4, r.seq),
    (4, pack [(8, r.session), (1, flag r.pad), (7, 0), (16, r.status)]), (4, pack [(4, r.state), (1, flag r.degraded)]), (8, r.clamps.toNat), (8, 0)]

/-- The IV of a record under a session key (R308): mailbox, session, direction, `SEQ`. -/
def recordIv (mb session : Nat) (response : Bool) (seq : Nat) : BitVec 96 :=
  BitVec.ofNat 96 (mb % 2 ^ 8 * 2 ^ 88 + session % 2 ^ 8 * 2 ^ 80 + flag response * 2 ^ 79 + seq % 2 ^ 32)

/-- Zeros up to a whole number of entries. -/
def wholeEntries (bs : List Byte) : List Byte := bs ++ List.replicate ((32 - bs.length % 32) % 32) 0#8

/-- A response record as it stands in the ring (R304, R307, R308): with `K_RSP` the payload is ciphertext and the tag follows in a trailer. -/
def Rsp.bytes (r : Rsp) (mb : Nat) : List Byte :=
  match r.key with
  | none => r.header ++ wholeEntries r.payload
  | some k =>
    let iv := recordIv mb r.session true r.seq
    let text := gcmText k iv r.payload
    r.header ++ wholeEntries text ++ gcmTag k iv r.header text ++ List.replicate 16 0#8

/-- The state code and the DEGRADED flag that a response takes when it is written (R307), with the number of its mailbox. -/
structure Writing where
  mailbox : Nat
  state : Nat
  degraded : Bool
  deriving DecidableEq, Repr

def writing (mb : Nat) (s : State) : Writing := ⟨mb, s.ctl.mode.code, degraded s⟩

/-- A response placed in the ring, or none when it has no room. -/
def Mailbox.place (b : Mailbox) (w : Writing) (r : Rsp) : Option Mailbox :=
  let m := recordEntries r.payload.length r.session
  match placeInRing m b.rspTail ringSize b.rspFree with
  | none => none
  | some (t, padded) =>
    let b := if padded then
        { b with rsp := Tab.set b.rsp b.rspTail Rsp.padRecord, out := Mem.write b.out (32 * b.rspTail) Rsp.padRecord.header }
      else b
    let r := { r with state := w.state, degraded := w.degraded }
    some { b with
      rsp := Tab.set b.rsp t r
      rspTail := (t + m) % ringSize
      out := Mem.write b.out (32 * t) (r.bytes w.mailbox) }

/-- A response written, or delayed behind those that wait for room; nothing is lost (R311). -/
def Mailbox.deliver (b : Mailbox) (w : Writing) (r : Rsp) : Mailbox :=
  match b.delayed with
  | [] => match b.place w r with
    | some b' => b'
    | none => { b with delayed := [r] }
  | d => { b with delayed := d ++ [r] }

/-- The response that repeats a request; the state at the moment of writing goes in when it is placed (R307). -/
def respond (h : Hdr) (code : Nat) (r : Reply) (s : State) : State :=
  updBox h.mailbox
    (fun b => b.deliver (writing h.mailbox s) ⟨false, code, h.seq, h.session, r.status, s.ctl.mode.code, degraded s,
      BitVec.ofNat 64 r.clamps, r.payload, if h.session = 0 then none else (Tab.find s.gateh.sessions h.session).map (·.keys.rsp)⟩) s

/-! ## The tests of R310 -/

/-- A row of R323: code, request size, whether a plaintext request on mailbox 0 may issue it, which kinds of session may
(0 owner, 1 fleet operator, 2 tenant), the legal states, and any further ground for NOT_AUTHORISED. -/
structure Cmd where
  code : Nat
  size : Nat
  plain : Bool
  kinds : List Nat
  legal : List ModState
  allowed : Bool
  deriving DecidableEq, Repr

/-- The issuers of R323. -/
def anyKind : List Nat := [0, 1, 2]
def ownerKind : List Nat := [0]
def fleetKind : List Nat := [1]
def tenantKind : List Nat := [2]
def ownerFleet : List Nat := [0, 1]
def tenantFleet : List Nat := [2, 1]

/-- The session that a request names: open, bound to this mailbox, and still accepting (R302, R308, R374 step 1). -/
def sessionOf (h : Hdr) (s : State) : Option Session :=
  match Tab.find s.gateh.sessions h.session with
  | none => none
  | some e => if e.mailbox = h.mailbox && !e.closing then some e else none

/-- Which mailboxes the module serves: none without the auxiliary rail, mailbox 0 alone in LODGE and BOOT, all from TRAIN
on (R305, R473); in SEALED the plaintext set and owner sessions (R377). -/
def servedMailbox (mb : Nat) (s : State) : Bool :=
  s.pins.auxOn && (mb = 0 || (decide (mb < 32) && s.ctl.mode ≠ .lodge && s.ctl.mode ≠ .boot))

/-- `LEGAL_STATES` (R317). -/
def legalMask (l : List ModState) : Nat := maskOf (l.map ModState.code)

/-- What steps 1 to 6 of R310 make of a request. -/
inductive Verdict where
  | unserved
  | discard
  | refuse (r : Reply)
  | go
  deriving DecidableEq, Repr

/-- The largest `PAYLOAD_LEN` (R305, R310). -/
def maxPayload (s : State) : Nat := if s.ctl.mode = .lodge || s.ctl.mode = .boot then 256 else 4096

/-- Step 1: is the request authentic (R308)? A plaintext request is not tested. -/
def authentic (h : Hdr) (s : State) : Bool :=
  h.session = 0 ||
    (match sessionOf h s with
      | none => false
      | some e => h.tagOk && decide (e.minSeq ≤ h.seq))

/-- Step 4: may this principal issue the command on this mailbox (R302, R323)? -/
def authorised (h : Hdr) (c : Cmd) (s : State) : Bool :=
  c.allowed &&
    (if h.session = 0 then h.mailbox = 0 && c.plain
     else match sessionOf h s with
       | none => false
       | some e => c.kinds.contains e.kind)

/-- Steps 1 to 6 of R310 for a defined code. No other command runs while one does, so step 6 never answers BUSY (log
entry 10). -/
def judge (h : Hdr) (c : Cmd) (s : State) : Verdict :=
  if !servedMailbox h.mailbox s then .unserved
  else if !authentic h s then .discard
  else if !(decide (h.len ≤ maxPayload s) && h.len = c.size) then .refuse ⟨stBadLength, 0, []⟩
  else if !authorised h c s then .refuse ⟨stNotAuthorised, 0, []⟩
  else if !c.legal.contains s.ctl.mode then .refuse ⟨stWrongState, 0, le 8 (legalMask c.legal)⟩
  else .go

/-- An accepted request moves the session's least `SEQ` on (R308). -/
def accept (h : Hdr) (s : State) : State :=
  if h.session = 0 then s
  else mapGate (fun g => { g with sessions := match Tab.find g.sessions h.session with
    | none => g.sessions
    | some e => Tab.set g.sessions h.session { e with minSeq := h.seq + 1 } }) s

/-- A discarded request: no answer, counted for the owner as MAILBOX_DISCARD from the host (R308, R382, R383). -/
def discard (s : State) : State := violation 0x07 .none (sourceHost s) s

/-- A request from step 1 to its response, then what follows a good response (R310, R311). -/
def requestThen (h : Hdr) (c : Cmd) (body : State → Ans) (after : State → State) (s : State) : State :=
  match judge h c s with
  | .unserved => s
  | .discard => discard s
  | .refuse r => respond h c.code r (accept h s)
  | .go =>
    let a := body (accept h s)
    let s1 := respond h c.code a.2 a.1
    if a.2.good then after s1 else s1

/-- A request whose effects precede its response. -/
def request (h : Hdr) (c : Cmd) (body : State → Ans) (s : State) : State := requestThen h c body id s

/-- A code that R323 does not define (R310 step 2). -/
def unknownCommand (h : Hdr) (code : Nat) (s : State) : State :=
  if !servedMailbox h.mailbox s then s
  else if !authentic h s then discard s
  else respond h code ⟨stUnknown, 0, []⟩ (accept h s)

/-! ## Who asks -/

/-- The owner key hash in force is the owner's principal; a plaintext caller has none. -/
def issuer (h : Hdr) (s : State) : Option Session := sessionOf h s

def issuerHash (h : Hdr) (s : State) : Digest := ((sessionOf h s).map (·.principal)).getD 0#384

def issuerKind (h : Hdr) (s : State) : Nat := ((sessionOf h s).map (·.kind)).getD 3

/-- A tenant acts on its own job only (R323, R368; log entry 11). -/
def ownJob (h : Hdr) (s : State) : Bool :=
  !s.job.loaded || issuerKind h s ≠ 2 || issuerHash h s = s.job.principal

/-! ## Staging regions (R309) -/

/-- Region states (R208): 0 ACTIVE, 1 CLEARING, 2 DAMAGED. -/
def Region.isActive (r : Region) : Bool := r.state = 0

end Sys2Proof.Machine
end

