-- ==== Sys2Proof/Machine/Memory.lean ====
section
/-! DEFINITION. The memory commands (R208 to R212, R224, R227, R229, R234 to R237, R309, R332, R334), the requests and atomics of
the stack controllers (R213, R214, R217), their events (R198, R223, R229), and the stack error log reads (R231). -/

namespace Sys2Proof.Machine

open Sys2Proof

/-! ## Region records (R208, R209) -/

/-- A region record as sent: report fields ignored. -/
def regionInput (w : Rec4) : Region :=
  { base := bits w.w0.toNat 0 48, size := bits w.w1.toNat 0 32, interleave := bits w.w1.toNat 32 2, place := bits w.w1.toNat 34 5,
    code := bits w.w1.toNat 39 2, pageCheck := bits w.w1.toNat 41 3, resident := bit w.w1.toNat 44, rights := bits w.w1.toNat 45 3,
    keySlot := bits w.w2.toNat 0 8, state := 0, lost := 0#8, start := 0, owner := 0#384, session := 0, staging := false }

/-- A region record in report form (R208). -/
def Region.report (r : Region) (id : Nat) : List Byte :=
  lay [(8, r.base), (4, r.size),
    (4, pack [(2, r.interleave), (5, r.place), (2, r.code), (3, r.pageCheck), (1, flag r.resident), (3, r.rights)]),
    (4, pack [(8, r.keySlot), (10, id), (2, r.state), (8, r.lost.toNat)]), (12, 0)]

/-- The stripe of an interleave, in units of 64 KiB (R209). -/
def stripeOf (interleave : Nat) : Nat := match interleave with | 0 => 120 | 1 => 960 | _ => 2

/-- Do two regions lie in common pseudo-channels (R211, R212)? -/
def Region.meets (a b : Region) : Bool :=
  if a.interleave = 2 || b.interleave = 2 then a.interleave = 2 && b.interleave = 2 && a.place = b.place
  else a.interleave = 1 || b.interleave = 1 || a.place = b.place

/-- Pages or blocks that a region takes in each pseudo-channel. -/
def Region.extent (r : Region) : Nat := if r.interleave = 2 then r.blocks else r.pages

/-- Pages or blocks that a pseudo-channel offers (R205, R207, R351). -/
def offered (r : Region) : Nat :=
  if r.interleave = 2 then (if r.place = 0 || r.place = 16 then 917472 else 917504) else 515072

/-- Blocks of an archive channel not yet used. -/
def unusedExtent (l : Tab Region) (r : Region) : Nat :=
  offered r - ((l.filter (fun e => e.2.meets r)).map (fun e => e.2.extent)).foldl (· + ·) 0

/-- Is `st` a free place for a region: aligned to whole granules and clear of the others (R211, R212)? -/
def freeAt (l : Tab Region) (r : Region) (st : Nat) : Bool :=
  st % (if r.interleave = 2 then 32 else 16) = 0 && decide (st + r.extent ≤ offered r) &&
    l.all (fun e => !e.2.meets r || decide (e.2.start + e.2.extent ≤ st) || decide (st + r.extent ≤ e.2.start))

/-- The lowest free place: the start, or the end of a region that is there. -/
def lowestPlace (l : Tab Region) (r : Region) : Option Nat :=
  ((0 :: (l.filter (fun e => e.2.meets r)).map (fun e => e.2.start + e.2.extent)).filter (freeAt l r)).foldl
    (fun b st => match b with
      | none => some st
      | some c => some (min c st)) none

/-- Where Orulko places a region: the module's choice `pick` when it is free, else the lowest free place (log entry 1). -/
def placeRegion (l : Tab Region) (r : Region) (pick : Option Nat) : Option Nat :=
  match pick with
  | some st => if freeAt l r st then some st else lowestPlace l r
  | none => lowestPlace l r

/-- The first rule of R208 and R209 that a record breaks: byte offset of the failing word, the rule, the failing field's value. `strict`
asks for whole stripes (R210). -/
def regionFault (s : State) (w : Rec4) (r : Region) (owner : Digest) (strict : Bool) : Option (Nat × Nat × Nat) :=
  let flags := w.w1.toNat / 2 ^ 32
  let key := bits w.w2.toNat 0 32
  if r.base % 2 ^ 21 ≠ 0 then some (0x00, 208, r.base)
  else if 2 < r.interleave then some (0x0C, 208, r.interleave)
  else if (r.interleave = 0 && 7 < r.place) || (r.interleave = 1 && r.place ≠ 0) then some (0x0C, 208, r.place)
  else if 2 < r.code then some (0x0C, 208, r.code)
  else if decide (r.code = 2) != decide (r.interleave = 2) then some (0x0C, 209, r.code)
  else if r.interleave = 2 && bit r.rights 2 then some (0x0C, 209, r.rights)
  else if w.w0.toNat / 2 ^ 48 ≠ 0 then some (0x04, 209, w.w0.toNat / 2 ^ 48)
  else if flags / 2 ^ 16 ≠ 0 then some (0x0C, 209, flags / 2 ^ 16)
  else if key / 2 ^ 28 ≠ 0 then some (0x10, 209, key / 2 ^ 28)
  else if w.w2.toNat / 2 ^ 32 ≠ 0 then some (0x14, 209, w.w2.toNat / 2 ^ 32)
  else if w.w3.toNat % 2 ^ 32 ≠ 0 then some (0x18, 209, w.w3.toNat % 2 ^ 32)
  else if w.w3.toNat ≠ 0 then some (0x1C, 209, w.w3.toNat / 2 ^ 32)
  else if r.size = 0 || (strict && r.size % stripeOf r.interleave ≠ 0) then some (0x08, 209, r.size)
  else if 2 ^ 41 < r.base + r.bytes then some (0x00, 208, r.base)
  else if s.hbm.regions.any (fun e => decide (e.2.base < r.base + r.bytes) && decide (r.base < e.2.base + e.2.bytes)) then some (0x00, 209, r.base)
  else if r.interleave = 2 && decide (unusedExtent s.hbm.regions r < r.extent) then some (0x08, 209, r.size)
  else if r.keySlot = 0 then some (0x10, 208, r.keySlot)
  else match Tab.find s.gateh.keySlots r.keySlot with
    | none => none
    | some k => if k.owner = owner then none else some (0x10, 209, r.keySlot)

/-- Key slots that a principal holds. -/
def slotsHeld (s : State) (owner : Digest) : Nat := (s.gateh.keySlots.filter (fun e => e.2.owner = owner)).length

/-- Would a region take a further slot beyond the quota (R210)? The owner's quota is what the others leave. -/
def overQuota (s : State) (r : Region) (owner : Digest) (kind quota : Nat) : Bool :=
  (Tab.find s.gateh.keySlots r.keySlot).isNone
    && decide ((if kind = 0 then 255 - (s.gateh.keySlots.length - slotsHeld s owner) else quota) ≤ slotsHeld s owner)

/-- A region id: the module's choice when it is free, else the lowest free (log entry 1). -/
def pickRegionId (l : Tab Region) (pick : Option Nat) : Option Nat :=
  match pick with
  | some i => if i < 1024 && (Tab.find l i).isNone then some i else Tab.lowestFree l 0 1024
  | none => Tab.lowestFree l 0 1024

/-- The fenced fields on which a region has blocks, as `LOST_FIELDS` (R208, R238). -/
def lostOn (s : State) (r : Region) : BitVec 8 := BitVec.ofNat 8 (maskOf ((List.range 8).filter (fun f => r.usesField f && (fieldOf s f).fenced)))

/-- The slot that a region of an owner uses: as it stands, or a free one with a key from entropy (R348). -/
def slotFor (r : Region) (s : State) : KeySlot := (Tab.find s.gateh.keySlots r.keySlot).getD ⟨r.owner, entropyKey s.free⟩

/-- A region defined for an owner: its slot is taken, a resident one's slot enters the residency store, the controllers' caches follow, and the violation counter of
a reused id starts again (R210, R226, R348, R351, R383). -/
def defineRegion (id : Nat) (r : Region) (s : State) : State :=
  let s1 := mapHbm (fun h => { h with regions := Tab.set h.regions id { r with lost := lostOn s r } }) s
  loadKeys (drawFree (drawFree (mapGate (fun g => { g with
    keySlots := Tab.set g.keySlots r.keySlot (slotFor r s)
    residency := if r.resident then Tab.set g.residency r.keySlot (slotFor r s) else g.residency
    vRegion := Tab.erase g.vRegion id }) s1)))

/-- Rounded up to the stripe (R210). -/
def clampStripe (r : Region) : Clamped :=
  let k := stripeOf r.interleave
  if r.size % k = 0 then ⟨r.size, false⟩ else ⟨(r.size / k + 1) * k, true⟩

/-- A diagnostic for a record of R208 in a command: the byte offset of the failing word (R318). -/
def regionDiag (e : Nat × Nat × Nat) : Diag := fieldDiag e.1 e.2.1 e.2.2

/-- `memory.region.define` (R208 to R212). -/
def execMemoryRegionDefine (h : Hdr) (w : Rec4) (x : Ext) (s : State) : Host.Outcome State Fault Refusal :=
  .next (request h ⟨0x0500, 32, false, anyKind, active, true⟩
    (fun s =>
      let r0 := regionInput w
      let c := clampStripe r0
      let owner := issuerHash h s
      let r := { r0 with size := c.value, owner := owner, session := h.session }
      match regionFault s w r owner false with
      | some e => verifyFailed (regionDiag e) s
      | none =>
        if overQuota s r owner (issuerKind h s) (((issuer h s).map (·.quota)).getD 0) then answer stExhausted s
        else match pickRegionId s.hbm.regions x.picks.head?, placeRegion s.hbm.regions r (x.picks.drop 1).head? with
          | some id, some st => okClamped [c] [] (defineRegion id { r with start := st } s)
          | _, _ => answer stExhausted s) s)

/-- The region that a command names, when it belongs to the issuer (R316). -/
def ownRegion (h : Hdr) (v : Nat) (s : State) : Option Region :=
  match regionOf s v with
  | none => none
  | some r => if r.owner = issuerHash h s then some r else none

def execMemoryRegionClear (h : Hdr) (region : U64) (s : State) : Host.Outcome State Fault Refusal :=
  .next (request h ⟨0x0501, 8, false, anyKind, active, true⟩
    (fun s => match ownRegion h region.toNat s with
      | none => verifyFailed (fieldDiag 0 316 region.toNat) s
      | some _ => ok [] (clearRegion region.toNat s)) s)

def execMemoryRegionRelease (h : Hdr) (region : U64) (s : State) : Host.Outcome State Fault Refusal :=
  .next (request h ⟨0x0502, 8, false, anyKind, active, true⟩
    (fun s => match ownRegion h region.toNat s with
      | none => verifyFailed (fieldDiag 0 316 region.toNat) s
      | some _ => ok [] (teardownRegion region.toNat s)) s)

/-- Header and records of a list command (R334): count, next id, reserved, then up to 127 records. -/
def listReply (all : List (Nat × List Byte)) (limit : Nat) : List Byte :=
  let part := all.take 127
  lay [(8, part.length), (8, ((all.drop 127).head?.map (·.1)).getD limit), (16, 0)] ++ part.flatMap (·.2)

/-- `memory.region.list` (R334): the issuer's regions from a start id. -/
def execMemoryRegionList (h : Hdr) (start : U64) (s : State) : Host.Outcome State Fault Refusal :=
  .next (request h ⟨0x0503, 8, false, anyKind, active, true⟩
    (fun s =>
      if 1023 < start.toNat then verifyFailed (fieldDiag 0 334 start.toNat) s
      else ok (listReply ((s.hbm.regions.filter (fun e => decide (start.toNat ≤ e.1) && e.2.owner = issuerHash h s)).map
        (fun e => (e.1, e.2.report e.1))) 1024) s) s)

/-! ## Retirement and repair (R234 to R237) -/

/-- A location as R324 sends it: pseudo-channel, bank index, row. -/
structure MemLoc where
  stack : Nat
  channel : Nat
  pc : Nat
  bank : Nat
  row : Nat
  deriving DecidableEq, Repr

def memLoc (v : U64) : MemLoc :=
  ⟨bits v.toNat 0 5, bits v.toNat 5 4, bits v.toNat 9 1, bits v.toNat 10 2 * 16 + bits v.toNat 12 2 * 4 + bits v.toNat 14 2, bits v.toNat 16 15⟩

def MemLoc.pcIndex (l : MemLoc) : Nat := l.stack * 32 + l.channel * 2 + l.pc

/-- The page of a general row (R206). -/
def MemLoc.page (l : MemLoc) : Nat := 63 * (l.row / 4) + l.bank

/-- The next free spare page of a pseudo-channel (R205, R234). -/
def nextSpare (hb : Hbm) (pc : Nat) : Option Nat :=
  ((List.range 512).map (· + 515584)).find? (fun p => !hb.sparesGone.any (fun l => l.pc = pc && l.number = p))

/-- The copy of one written word: corrected on the way, or copied as marked (R234 step 2). -/
def copyWord (x : Nat) (e : WordErrors) (s : State) : State :=
  if (if inSystemArea x then !systemWritten s x else !s.hbm.isWritten (granuleOf x)) || s.hbm.isMarked x || (fieldOf s (stackOfPhys x / 4)).fenced then s
  else match wordRegion s x with
    | none => s
    | some (id, r) =>
      let o := r.decodeWord s.hbm.poison x e
      onlyIf (o = .failed) (markWord x) (logOutcome id r x o 3 s)

/-- The words of the pages that move, with what their copy finds. -/
def copyWords (moves : Nat → Bool) (errors : Tab WordErrors) (s : State) : State :=
  forEach (errors.filter (fun e => moves (e.1 * 64))) (fun e => copyWord (e.1 * 64) e.2) s

/-- One page to the next spare: data and marks follow the page's own index (R234, R235). The record names the place that the page leaves, with source 3 (log entry 126,
DESIGN CHOICE). -/
def retirePage (pc page spare : Nat) (s : State) : State :=
  let s1 := mapHbm (fun hb => { hb with
    pages := hb.pages.filter (fun e => !(e.1.pc = pc && e.1.number = page)) ++ [(⟨pc, page⟩, spare)]
    sparesGone := hb.sparesGone ++ [⟨pc, spare⟩] }) s
  let s2 := mapFlash (fun fl => { fl with retiredPages := s1.hbm.pages, spent := s1.hbm.sparesGone }) s1
  let x := pc * 2 ^ 31 + page * 4096
  let at_ := match s.hbm.regions.find? (fun p => p.2.holdsGranule (granuleOf x)) with
    | some (id, r) => (r.code, id)
    | none => (if page < 515072 then 0 else 3, 0x3FF)
  logEvent (logAt s x 0x07 0 3 at_.1 at_.2) s2

/-- `memory.retire` of a page (R234, R235, R324). -/
def execMemoryRetirePage (h : Hdr) (a : RetireArgs) (s : State) : Host.Outcome State Fault Refusal :=
  .next (request h ⟨0x0504, 16, false, fleetKind, active, true⟩
    (fun s =>
      let l := memLoc a.loc
      if l.channel = 15 || l.bank = 63 || 515584 ≤ l.page then answer stExhausted s
      else match nextSpare s.hbm l.pcIndex with
        | none => answer stExhausted s
        | some sp => ok [] (retirePage l.pcIndex l.page sp
            (copyWords (fun x => pcOfPhys x = l.pcIndex && pageOfPhys x = l.page) a.errors s))) s)

/-- `memory.retire` of a bank: to the spare bank of its pseudo-channel, page by page (R234, R235). Its record has row 0, column 0, CODE 0 and no region (log entry 126, DESIGN
CHOICE). -/
def execMemoryRetireBank (h : Hdr) (a : RetireArgs) (s : State) : Host.Outcome State Fault Refusal :=
  .next (request h ⟨0x0504, 16, false, fleetKind, active, true⟩
    (fun s =>
      let l := memLoc a.loc
      if l.channel = 15 || l.bank = 63 || s.hbm.banks.any (fun b => b.pc = l.pcIndex) then answer stExhausted s
      else
        let s0 := copyWords (fun x => pcOfPhys x = l.pcIndex && presentPage s.hbm l.pcIndex (pageOfPhys x) % 63 = l.bank) a.errors s
        let s1 := mapHbm (fun hb => { hb with banks := hb.banks ++ [⟨l.pcIndex, l.bank⟩] }) s0
        let s2 := mapFlash (fun fl => { fl with retiredBanks := s1.hbm.banks }) s1
        ok [] (logEvent { logAt s (l.pcIndex * 2 ^ 31) 0x08 0 3 0 0x3FF with bank := l.bank, row := 0, col := 0 } s2)) s)

/-- `memory.repair.request`: one row, at most 16 queued per stack, a duplicate adds nothing (R236). The kind byte is 2. -/
def execMemoryRepairRequest (h : Hdr) (loc kind : U64) (s : State) : Host.Outcome State Fault Refusal :=
  .next (request h ⟨0x0505, 16, false, fleetKind, active, true⟩
    (fun s =>
      let stack := (memLoc loc).stack
      let row := BitVec.ofNat 64 (bits loc.toNat 0 31)
      if kind.toNat % 256 ≠ 2 then verifyFailed (fieldDiag 1 324 kind.toNat) s
      else if s.flash.repairs.contains (stack, row) then ok [] s
      else if 16 ≤ (s.flash.repairs.filter (fun e => e.1 = stack)).length then answer stExhausted s
      else ok [] (mapFlash (fun fl => { fl with repairs := fl.repairs ++ [(stack, row)] }) s)) s)

/-! ## Scrub, staging -/

/-- `memory.scrub.set` (R229, R324): both intervals clamped to 1 to 168 h. -/
def execMemoryScrubSet (h : Hdr) (strong page : U64) (s : State) : Host.Outcome State Fault Refusal :=
  .next (request h ⟨0x0506, 16, false, fleetKind, active, true⟩
    (fun s =>
      let a := clampNear 1 168 strong.toNat
      let b := clampNear 1 168 page.toNat
      okClamped [a, b] [] (mapHbm (fun hb => { hb with strongHours := a.value, pageHours := b.value }) s)) s)

/-- The region that `memory.staging.set` takes: ACTIVE, no ARCHIVE region, the issuer's own (R332). -/
def stagingRegion (h : Hdr) (v : Nat) (s : State) : Option Region :=
  match ownRegion h v s with
  | none => none
  | some r => if r.state = 0 && r.interleave ≠ 2 then some r else none

/-- `MARK` 1 (R309, R332): at most four marks for one principal; marking again has no effect. -/
def execMemoryStagingMark (h : Hdr) (region : U64) (s : State) : Host.Outcome State Fault Refusal :=
  .next (request h ⟨0x0507, 16, false, anyKind, active, true⟩
    (fun s => match stagingRegion h region.toNat s with
      | none => verifyFailed (fieldDiag 0 332 region.toNat) s
      | some r =>
        if r.staging then ok [] s
        else if 4 ≤ (regionsWhere s (fun v => v.owner = r.owner && v.staging)).length then answer stExhausted s
        else ok [] (updRegion region.toNat (fun v => { v with staging := true }) s)) s)

/-- `MARK` 0 (R332). No bulk descriptor is in use between commands, so BUSY does not arise (log entry 10). -/
def execMemoryStagingUnmark (h : Hdr) (region : U64) (s : State) : Host.Outcome State Fault Refusal :=
  .next (request h ⟨0x0507, 16, false, anyKind, active, true⟩
    (fun s => match stagingRegion h region.toNat s with
      | none => verifyFailed (fieldDiag 0 332 region.toNat) s
      | some _ => ok [] (updRegion region.toNat (fun v => { v with staging := false }) s)) s)

/-- A bulk descriptor lies in one staging region of the issuer: `LOCAL_ADDR` a multiple of 64, a length of at least 1, the whole range
inside (R309). -/
def bulkOk (h : Hdr) (b : Bulk) (s : State) : Bool :=
  let a := bits b.addr.toNat 0 48
  a % 64 = 0 && decide (1 ≤ b.len.toNat) &&
    (match regionAt s.hbm.regions a with
      | none => false
      | some (_, r) => r.staging && r.owner = issuerHash h s && decide (a + b.len.toNat ≤ r.base + r.bytes))

/-- Bytes of a bulk descriptor's data, as they stand in its staging region (R309; log entry 128). -/
def bulkBytes (s : State) (a n : Nat) : List Byte :=
  match regionAt s.hbm.regions a with
  | none => []
  | some (_, r) => (List.range n).map (fun i => Mem.get s.hbm.data (r.phys (a + i)))

/-- The data that a bulk descriptor names. -/
def bulkData (b : Bulk) (s : State) : List Byte := bulkBytes s (bits b.addr.toNat 0 48) b.len.toNat

/-! ## Stack controllers -/

/-- Are two requests of one transfer, and so of one engine (R193)? -/
def ReqDest.sameTransfer (a b : ReqDest) : Bool :=
  match a, b with
  | .fill t _ _ _, .fill u _ _ _ => t = u
  | .commit c, .commit e => c = e
  | _, _ => false

/-- Does an earlier request of the same engine to a common 64-byte line still wait to be taken (R196)? -/
def blockedRequest (s : State) (f rid : Nat) (q : MemReq) : Bool :=
  (fieldOf s f).requests.any (fun e => decide (e.1 < rid) && !e.2.issued && e.2.dest.sameTransfer q.dest
    && decide (e.2.addr / 64 ≤ (q.addr + q.len - 1) / 64) && decide (q.addr / 64 ≤ (e.2.addr + e.2.len - 1) / 64))

/-- The granule of a request, if its region still stands. -/
def requestGranule (s : State) (q : MemReq) : Option Nat :=
  (regionAt s.hbm.regions q.addr).map (fun e => granuleOf (e.2.phys q.addr))

def waitOnFill (g f rid : Nat) : State → State :=
  mapHbm (fun hb => { hb with
  filling := Tab.set hb.filling g
    (let l := Tab.get hb.filling g []; if l.contains (f, rid) then l else l ++ [(f, rid)]) })

/-- A stack controller takes a read that has reached it (R217); one to a granule that fills is held (R223). -/
def execHbmRead (field rid : Nat) (errors : List WordErrors) (s : State) : Host.Outcome State Fault Refusal :=
  .next (match requestOf s field rid with
    | none => s
    | some q =>
      if q.write || q.issued || q.held ≠ 0 || blockedRequest s field rid q then s
      else match requestGranule s q with
        | none => performRead field rid true errors s
        | some g =>
          if (Tab.find s.hbm.filling g).isSome then waitOnFill g field rid s
          else performRead field rid true errors s)

/-- A stack controller takes a write (R213); the first write to a granule starts its fill, at most four at once on a stack, and
writes to a granule that fills are queued (R222, R223). -/
def execHbmWrite (field rid : Nat) (errors : List WordErrors) (s : State) : Host.Outcome State Fault Refusal :=
  .next (match requestOf s field rid with
    | none => s
    | some q =>
      if !q.write || q.issued || q.held ≠ 0 || blockedRequest s field rid q then s
      else match requestGranule s q with
        | none => performWrite field rid errors s
        | some g =>
          if (fieldOf s (g / 2 ^ 20 / 4)).fenced then performWrite field rid errors s
          else if (Tab.find s.hbm.filling g).isSome then waitOnFill g field rid s
          else if s.hbm.isWritten g then performWrite field rid errors s
          else if 4 ≤ (s.hbm.filling.filter (fun e => e.1 / 2 ^ 20 = g / 2 ^ 20)).length then s
          else waitOnFill g field rid s)

def execGranuleFillComplete (granule : Nat) (s : State) : Host.Outcome State Fault Refusal :=
  .next (completeFill granule s)

def execDramReadReturn (stack entry : Nat) (e : WordErrors) (s : State) : Host.Outcome State Fault Refusal :=
  .next (returnEntry stack entry e s)

/-- The 256th mesh cycle of an entry: it takes no more requesters, and it closes unless its data is still out (R198). -/
def execMergeEntryClose (stack entry : Nat) (s : State) : Host.Outcome State Fault Refusal :=
  .next (updStack stack (fun k => match Tab.find k.merge entry with
    | none => k
    | some e =>
      if e.returned then { k with merge := Tab.erase k.merge entry }
      else { k with merge := Tab.set k.merge entry { e with takes := false } }) s)

/-! ## Atomics (R214) -/

/-- The old operand, its poison, and the state after an atomic `f` on `n` bytes at a local address: the granule is filled first when
it is unwritten (R222), the line's merge entry closes (R199), and an uncorrectable word is left alone. -/
def atomicAt (id : Nat) (r : Region) (addr n : Nat) (f : Nat → Nat) (e : WordErrors) (s : State) : State × Nat × Bool :=
  let x := r.phys addr
  let g := granuleOf x
  let s0 := if (Tab.find s.hbm.filling g).isSome || !unreachable s r x then readyGranule g s else s
  let s1 := closeLine x s0
  let w := readWord id r x e 2 s1
  let old := numAt w.2.1 (x % 64) n
  if w.2.2 then (w.1, 0, true)
  else if f old = old then (w.1, old, false)
  else (storeWord x (le n (f old)) w.1, old, false)

/-- Operand bytes. -/
def widthBytes (w8 : Bool) : Nat := if w8 then 8 else 4

/-- The answer to an atomic of this module. -/
def atomicAnswer (old : Nat) (poison : Bool) : State → State :=
  mapHbm (fun hb => { hb with atomicOld := BitVec.ofNat 64 old, atomicPoison := poison })

/-- Addresses of the plot-queue and mailbox apertures, which no job access reaches (R166, R203, R305). -/
def closedRange (x : Nat) : Bool := (0x500000000000 ≤ x && x < 0x500008000000) || (0x600000000000 ≤ x && x < 0x600000200000)

/-- An atomic of the job at its controller: an aligned operand in a region of the job's owner with the atomic right; the old value is the
answer (R214). Any other is a silent violation, which reads zero and stores nothing (R56, R204); one that is not aligned counts as one without the
right (log entry 19). -/
def atomicRow (q : AtomicAddr) (n : Nat) (f : Nat → Nat) (e : WordErrors) (s : State) : State :=
  let src := sourceSlice s q.plot q.slice
  match regionAt s.hbm.regions q.addr with
  | none => atomicAnswer 0 false (violation (if closedRange q.addr then 0x03 else 0x01) .none src s)
  | some (id, r) =>
    if q.addr % n ≠ 0 || r.owner ≠ s.job.principal || !bit r.rights 2 then atomicAnswer 0 false (violation 0x02 (.region id) src s)
    else
      let a := atomicAt id r q.addr n f e s
      atomicAnswer a.2.1 a.2.2 a.1

/-- The operations of R214 on `n`-byte operands. -/
def fetchAddFn (n v old : Nat) : Nat := (old + v) % 256 ^ n
def swapFn (n v _old : Nat) : Nat := v % 256 ^ n
def compareSwapFn (v cmp old : Nat) : Nat := if old = cmp then v else old
def fetchMaxFn (n v old : Nat) : Nat := if ofBits (8 * n) old < ofBits (8 * n) v then v % 256 ^ n else old
def fetchOrFn (n v old : Nat) : Nat := (old ||| v) % 256 ^ n

def execFetchAdd (a : AtomicAddr) (w8 : Bool) (v : U64) (e : WordErrors) (s : State) : Host.Outcome State Fault Refusal :=
  .next (atomicRow a (widthBytes w8) (fetchAddFn (widthBytes w8) v.toNat) e s)

def execSwap (a : AtomicAddr) (w8 : Bool) (v : U64) (e : WordErrors) (s : State) : Host.Outcome State Fault Refusal :=
  .next (atomicRow a (widthBytes w8) (swapFn (widthBytes w8) v.toNat) e s)

def execCompareSwap (a : AtomicAddr) (v compare : U64) (e : WordErrors) (s : State) : Host.Outcome State Fault Refusal :=
  .next (atomicRow a 8 (compareSwapFn v.toNat compare.toNat) e s)

def execFetchMax (a : AtomicAddr) (w8 : Bool) (v : U64) (e : WordErrors) (s : State) : Host.Outcome State Fault Refusal :=
  .next (atomicRow a (widthBytes w8) (fetchMaxFn (widthBytes w8) v.toNat) e s)

def execFetchOr (a : AtomicAddr) (w8 : Bool) (v : U64) (e : WordErrors) (s : State) : Host.Outcome State Fault Refusal :=
  .next (atomicRow a (widthBytes w8) (fetchOrFn (widthBytes w8) v.toNat) e s)

/-! ## Patrol scrub (R229, R230) -/

/-- Does patrol scrub run: not while the stacks self-refresh (R230), nor in a shut-down test (R405 step 1)? -/
def scrubs (s : State) : Bool := [.train, .ready, .loaded, .running, .draining].contains s.ctl.mode

/-- The pass that the scrub of a code class is in: whole intervals since the passes began (R229). -/
def scrubPass (s : State) (code : Nat) : Nat :=
  let h := s.hbm
  if code = 2 then (s.ctl.localTime - h.pageFrom).toNat / (h.pageHours * 90000000000)
  else (s.ctl.localTime - h.strongFrom).toNat / (h.strongHours * 90000000000)

/-- SCRUB_LATE, once per pass (R230). -/
def noteLate (k code : Nat) (s : State) : State :=
  if Tab.find (stackOf s k).late code = some (scrubPass s code) then s
  else updStack k (fun v => { v with late := Tab.set v.late code (scrubPass s code) })
    (logEvent { logAt s (k * 2 ^ 36) 0x0B 0 1 code 0x3FF with bank := 0, row := 0 } s)

/-- What scrub logs for a strong word: two corrected symbols or more, a correction after a re-read, an uncorrectable word (R229). -/
def scrubWord (id : Nat) (r : Region) (x : Nat) (e : WordErrors) (s : State) : State :=
  match r.decodeWord s.hbm.poison x e with
  | .corrected n => if 2 ≤ n then logOutcome id r x (.corrected n) 1 s else s
  | .failed => markWord x (logOutcome id r x .failed 1 s)
  | o => logOutcome id r x o 1 s

/-- Scrub reads a written, unmarked word of a strong region, or the block of an archive region (`word` is its physical number); a pass that falls
behind logs SCRUB_LATE (R229, R230). -/
def execPatrolScrubRead (word : Nat) (e : WordErrors) (late : Bool) (s : State) : Host.Outcome State Fault Refusal :=
  .next (
    let x := word * 64
    match s.hbm.regions.find? (fun p => p.2.holdsGranule (granuleOf x)) with
    | none => s
    | some (id, r) =>
      if r.code = 1 || !scrubs s || (fieldOf s (stackOfPhys x / 4)).fenced then s
      else
        let s1 := onlyIf late (noteLate (stackOfPhys x) r.code) s
        if unreachable s r x || !s.hbm.isWritten (granuleOf x) then s1
        else if r.code = 2 then (readBlock id r x e 1 s1).1
        else if s.hbm.isMarked x then s1
        else scrubWord id r x e s1)

/-! ## The log (R231) -/

/-- `health.log.read` (R231, R324): a field's log from a position, at most 127 records. -/
def execHealthLogRead (h : Hdr) (field start count : U64) (s : State) : Host.Outcome State Fault Refusal :=
  .next (request h ⟨0x0901, 24, false, ownerFleet, served, true⟩
    (fun s =>
      let a := clampTo 4095 start.toNat
      let b := clampNear 1 127 count.toNat
      if 7 < field.toNat then verifyFailed (fieldDiag 0 324 field.toNat) s
      else okClamped [⟨field.toNat, false⟩, a, b]
        ((((fieldOf s field.toNat).log.drop a.value).take b.value).flatMap LogRec.bytes) s) s)

end Sys2Proof.Machine
end

