-- ==== Sys2Proof/Machine/Links.lean ====
section
/-! DEFINITION. The commands of the optical ports (R242 to R270): training, flits and control words, lane failures, the time
exchange, and the link reports and policy. -/

namespace Sys2Proof.Machine

open Sys2Proof

/-! ## Reports and policy -/

/-- `link.status`: 16 port reports (R264). -/
def execLinkStatus (h : Hdr) (s : State) : Host.Outcome State Fault Refusal :=
  .next (request h ⟨0x0600, 0, false, anyKind, served, true⟩
    (fun s => ok ((List.range 16).flatMap (portReport s)) s) s)

/-- The policy of the masked ports, in service and in the signed record area (R268). -/
def setWidthPolicy (mask : Nat) (forbid : Bool) (s : State) : State :=
  mapFlash (fun fl => { fl with
      forbidDrop := BitVec.ofNat 16
        (if forbid then fl.forbidDrop.toNat ||| mask else fl.forbidDrop.toNat &&& (65535 - mask)) })
    (forEach (bitsOf mask 16) (fun i => updPort i (fun p => { p with forbidDrop := forbid })) s)

/-- `link.width.policy` (R268, R324): bits above 15 of the mask are cleared, a policy above 1 becomes 1. -/
def execLinkWidthPolicy (h : Hdr) (mask policy : U64) (s : State) : Host.Outcome State Fault Refusal :=
  .next (request h ⟨0x0601, 16, false, ownerFleet, active, true⟩
    (fun s =>
      let m : Clamped := ⟨mask.toNat % 65536, decide (65535 < mask.toNat)⟩
      let v := clampTo 1 policy.toNat
      okClamped [m, v] [] (setWidthPolicy m.value (v.value = 1) s)) s)

/-! ## Training (R256 to R263) -/

/-- The second of the local time counter. -/
def secondOf (now : U64) : Nat := now.toNat / 25000000

/-- Line bits of step 6 in full training and with saved settings (R256). -/
def fullBits : Nat := 10 ^ 12
def quickBits : Nat := 2 * 10 ^ 11

/-- The fibres of a port's connector (R243): fibre l + 1 transmits lane l, and fibre 16 - l receives lane l. -/
def transmitFibre (l : Nat) : Nat := l + 1
def receiveFibre (l : Nat) : Nat := 16 - l
def receives (fibre : Nat) : Bool := (List.range 8).any (fun l => receiveFibre l = fibre)

/-- The fibres that a port lights (R243, R244, R261). -/
def Port.litFibres (p : Port) : List Nat := (bitsOf p.lasers.toNat 8).map transmitFibre

/-- Does a lane qualify in this end's direction: a receive fibre with light in the range of R242, lock, a pre-FEC bit error ratio of at most 1e-5, no uncorrectable
codeword (R242, R243, R256, R260; the power test: log entry 115)? -/
def laneQualifies (bits : Nat) (l : LaneTrain) : Bool :=
  receives l.settings.fibre && l.locked && decide (-700 ≤ l.rxPower) && decide (l.rxPower ≤ 500)
    && decide (l.corrected * 100000 ≤ bits) && decide (l.uncorrectable = 0)

/-- The lanes that qualify at this end, as a mask: a fibre carries the blocks of one lane (R243). -/
def qualifiedMask (bits : Nat) (l : List LaneTrain) : BitVec 8 :=
  BitVec.ofNat 8 (maskOf ((l.zipIdx.filter (fun e => laneQualifies bits e.1
    && (l.filter (fun v => v.settings.fibre = e.1.settings.fibre)).length = 1)).map (·.2)))

/-- Lanes, line bits and intersection mask of a training, with saved settings or in full (R256 steps 6 and 7, R261). -/
def trained (quick : Bool) (r : TrainResult) : List LaneTrain × Nat × BitVec 8 :=
  if quick then (r.quick, quickBits, qualifiedMask quickBits r.quick &&& r.quickMask) else (r.lanes, fullBits, qualifiedMask fullBits r.lanes &&& r.partnerMask)

/-- The saved settings of a port, if they are trusted (R258); a record whose signature fails counts as absent (R399). -/
def savedTrusted (s : State) (i : Nat) (partner : Serial) : Option PortSettings :=
  match Tab.find s.flash.portSettings i with
  | none => none
  | some v =>
    if s.ctl.fastStart && v.series = fwSeries && v.cable.toNat = cableSerial s i && v.partner = partner && v.intact then some v else none

/-- A port that has finished step 7: its masks, width and state, the lasers of its standby lanes off, its lanes and counters as at the start of a training, its
saved settings (R256 step 8, R259 to R261, R270). `by_` is 1 saved, 2 full, 3 LATE; `quick`: with saved settings. -/
def trainPort (i by_ : Nat) (quick : Bool) (r : TrainResult) (s : State) : State :=
  let m := trained quick r
  let q := m.2.2
  let act := lowestLanes q
  let w := widthOf (laneCount q)
  let old := portOf s i
  let forbid := bit s.flash.forbidDrop.toNat i
  let p : Port := { Port.empty with
    qualified := q, trainedBy := by_, forbidDrop := forbid, cableAtBoot := old.cableAtBoot, partnerSerial := r.partnerSerial,
    partnerMesh := r.partnerMesh, hostAdapter := r.hostAdapter, hostReason := old.hostReason,
    lanes := m.1.map (fun l => ⟨l.settings, 0, 0, [], secondOf s.ctl.localTime, 0, 0⟩), trainedAt := s.ctl.localTime,
    hopExpired := old.hopExpired, hostDrops := old.hostDrops, badPacket := old.badPacket, noRoute := old.noRoute,
    unaddressed := old.unaddressed, replayFull := old.replayFull }
  let s1 := if w = 0 then setPort i { p with pstate := 2, reason := 7, active := 0#8 } s
    else if forbid && w < 8 then setPort i { p with pstate := 2, reason := 8, active := 0#8 } s
    else mapFlash (fun fl => { fl with
        portSettings := Tab.set fl.portSettings i
          ⟨m.1.map (fun l => ⟨l.settings, l.corrected, m.2.1⟩), fwSeries, BitVec.ofNat 96 (cableSerial s i), r.partnerSerial, w, q, true⟩ })
      (setPort i { p with pstate := stateOfWidth w, reason := 0, active := act, laneMask := act, lasers := act, hostWait := true } s)
  notePort i s1

/-- The training of a port, from saved settings where they are trusted. When a lane that qualified before fails on them, the port falls back to full training, and the
start is then reported as a cold start with reason 7 (R256, R258, R398). `late`: its partner came late, as its report shows (R263). -/
def finishTraining (port : Nat) (late : Bool) (r : TrainResult) (s : State) : State :=
  let shown := fun by_ => if late then 3 else by_
  match savedTrusted s port r.partnerSerial with
  | none => trainPort port (shown 2) false r s
  | some v =>
    if v.qualified &&& (trained true r).2.2 = v.qualified then trainPort port (shown 1) true r s
    else trainPort port (shown 2) false r (mapCtl (fun c => { c with coldReason := 7 }) s)

/-- A port finishes training in TRAIN (R256, R258). -/
def execPortTrainingDone (port : Nat) (r : TrainResult) (s : State) : Host.Outcome State Fault Refusal :=
  .next (if s.ctl.mode = .train && (portOf s port).pstate = 3 then settleCheck (watchDegraded (finishTraining port false r) s) else s)

/-- A port that stops training for a reason (R257). -/
def stopTraining (port reason : Nat) (s : State) : State :=
  if s.ctl.mode = .train && (portOf s port).pstate = 3 then settleCheck (watchDegraded (portDown port reason) s) else s

/-- No training frame from the partner: NO_PARTNER; the lasers stay lit at the reduced duty cycle (R244, R257, R263). -/
def execNoPartnerTimeout (port : Nat) (s : State) : Host.Outcome State Fault Refusal :=
  .next (stopTraining port 5 s)

/-- Step 7 not finished within 25 s of entering TRAIN (R257). -/
def execTrainTimeout (port : Nat) (s : State) : Host.Outcome State Fault Refusal :=
  .next (stopTraining port 6 s)

/-- A partner answers a NO_PARTNER port in service: it trains as R256 gives, joins the routing and reports LATE (R263, R284). -/
def execLatePartnerTraining (port : Nat) (r : TrainResult) (s : State) : Host.Outcome State Fault Refusal :=
  .next (if active.contains s.ctl.mode && (portOf s port).pstate = 2 && (portOf s port).reason = 5 then
    reportPort port (watchDegraded (finishTraining port true r) s)
  else s)

/-- A cable mated in service is read at the next entry to BOOT; until then its port stays dark (R389, R481). -/
def execCableMated (_port : Nat) (s : State) : Host.Outcome State Fault Refusal :=
  .next s

/-! ## Receiving flits (R247 to R254, R273 to R275) -/

/-- The packet in the bytes of its flits (R274); the body keeps what `BODY_LEN` counts. -/
def parsePkt (b : List Byte) (cls : Nat) (src dest : U16) (hops : Nat) : Pkt :=
  { ptype := numAt b 0 1, cls := cls, poison := bit (numAt b 1 1) 0, failed := bit (numAt b 1 1) 1, window := bits (numAt b 4 2) 0 12,
    reqTag := numAt b 6 2, address := bits (numAt b 8 8) 0 48, atomicOp := bits (numAt b 8 8) 48 4, w8 := bit (numAt b 8 8) 52,
    nonce := numAt b 16 8, src := src, dest := dest, hops := hops,
    rsv := pack [(6, bits (numAt b 1 1) 2 6), (4, bits (numAt b 4 2) 12 4), (11, bits (numAt b 8 8) 53 11)], key := none, body := (b.drop 24).take (numAt b 2 2) }

/-- The class that a packet type travels in (R275); none for a reserved type. -/
def typeClass (t : Nat) : Option Nat :=
  if 0x01 ≤ t && t ≤ 0x06 then some 0
  else if t = 0x10 || t = 0x11 then some 1
  else if 0x20 ≤ t && t ≤ 0x23 then some 2
  else if t = 0x30 then some 3
  else none

/-- A packet for another module is forwarded, or dropped and counted when its hops have run out (R248, R287). -/
def forwardPkt (port : Nat) (source : Option Nat) (p : Pkt) (s : State) : State :=
  if p.hops = 0 then updPort port (fun v => { v with hopExpired := satInc 64 v.hopExpired }) s
  else routePkt port source { p with hops := p.hops - 1 } s

/-- A packet kept until the command that names it takes it; it occupies its receive buffers until then (R252). -/
def keepPkt (port flits : Nat) (p : Pkt) : State → State := mapMesh (fun m => { m with inbox := m.inbox ++ [⟨port, flits, p⟩] })

/-- A whole packet that has arrived on a port: dropped as a bad packet (R275), dropped by a module without an address unless it is ENUM (R273),
kept for the command that names its type, or forwarded. Host-class packets end here (R278). -/
def takePkt (port flits : Nat) (p : Pkt) (s : State) : State :=
  if typeClass p.ptype ≠ some p.cls then freeBuffers port p.cls flits (updPort port (fun v => { v with badPacket := satInc 64 v.badPacket }) s)
  else if p.ptype = 0x20 then keepPkt port flits p s
  else match s.mesh.addr with
    | none => freeBuffers port p.cls flits (updPort port (fun v => { v with unaddressed := satInc 64 v.unaddressed }) s)
    | some a => if p.dest = a || p.cls = 3 then keepPkt port flits p s else forwardPkt port (some port) p s

/-- A flit that is dropped frees its buffer at once. -/
def dropFlit (port cls : Nat) (count : Port → Port) (s : State) : State := freeBuffers port cls 1 (updPort port count s)

/-- The packet type that a flit belongs to: that of its packet's first byte (R274). -/
def flitType (f : Flit) (part : Partial) : Nat := if f.first then numAt f.payload 0 1 else numAt part.bytes 0 1

/-- What becomes of an accepted flit's content. LINK frames have commands of their own (log entry 13); a LINK flit with another code, and a flit of the reserved
type, count as bad (R275). A refused port takes LINK flits only (R276), a port without host role no host-class flit (R253). A flit without hops left for another module is
dropped (R248). The last flit of a packet completes it. -/
def takeFlit (port : Nat) (f : Flit) (s : State) : State :=
  let p := portOf s port
  let part := Tab.get p.rxPart f.cls ⟨[], 0⟩
  let bad := fun (v : Port) => { v with badPacket := satInc 64 v.badPacket }
  if f.cls = 3 && !p.hostRole then dropFlit port f.cls (fun v => { v with hostDrops := satInc 64 v.hostDrops }) s
  else if f.ftype = 2 then
    dropFlit port f.cls (if f.cls = 2 && decide (0x40 ≤ numAt f.payload 0 1) && decide (numAt f.payload 0 1 ≤ 0x47) then id else bad) s
  else if f.ftype = 3 then dropFlit port f.cls bad s
  else if p.hostReason ≠ 0 then dropFlit port f.cls id s
  else if f.hops = 0 && s.mesh.addr.isSome && s.mesh.addr ≠ some f.dest && f.cls ≠ 3 && flitType f part ≠ 0x20 then
    dropFlit port f.cls (fun v => { v with hopExpired := satInc 64 v.hopExpired }) s
  else
    let got := (if f.first then [] else part.bytes) ++ f.payload.take (min f.payLen 236)
    let n := (if f.first then 0 else part.flits) + 1
    if f.last then takePkt port n (parsePkt got f.cls f.src f.dest f.hops) (updPort port (fun p => { p with rxPart := Tab.erase p.rxPart f.cls }) s)
    else updPort port (fun p => { p with rxPart := Tab.set p.rxPart f.cls ⟨got, n⟩ }) s

/-- One flit accepted in order: it takes a receive buffer of its class (R251, R254). -/
def acceptFlit (port : Nat) (f : Flit) (s : State) : State :=
  takeFlit port f (updPort port (fun p => { p with
    rxSeq := f.seq, rxNak := false, dropping := false, rxUsed := Tab.upd p.rxUsed f.cls 0 (· + 1) }) s)

/-- Is there a receive buffer for a flit (R251)? -/
def Port.roomFor (p : Port) (f : Flit) : Bool := decide (Tab.get p.rxUsed f.cls 0 < classBuffers f.cls)

/-- A flit has been lost: NAK, and every later one is dropped up to the expected one (R254). -/
def loseFlit (port : Nat) : State → State := updPort port (fun v => { v with rxNak := true, dropping := true, rxHeld := [] })

/-- Flits that came ahead of their turn follow as soon as it is theirs (R249). -/
def acceptHeld (port fuel : Nat) (s : State) : State :=
  match fuel with
  | 0 => s
  | n + 1 => match (portOf s port).rxHeld.find? (fun g => g.seq = nextSeq (portOf s port).rxSeq) with
    | none => s
    | some g =>
      if !(portOf s port).carries then s
      else if !(portOf s port).roomFor g then loseFlit port s
      else acceptHeld port n (acceptFlit port g (updPort port (fun v => { v with rxHeld := v.rxHeld.erase g }) s))

/-- A flit arrives (R249, R254): NULL flits carry nothing; the next in order is accepted, with those held behind it; one that was received before is dropped; one that
is ahead is held while it can only have come on a faster lane, so one for each lane. A bad CRC, a second flit on a lane ahead of a gap, and a flit without a buffer (log
entry 116) are lost: NAK is set, and later flits are dropped up to the expected one. -/
def execFlitReceive (port : Nat) (f : Flit) (s : State) : Host.Outcome State Fault Refusal :=
  .next (
    let p := portOf s port
    let ahead := (f.seq + 2 ^ 20 - p.rxSeq) % 2 ^ 20
    if !p.carries || f.ftype = 0 then s
    else if !flitGood f then loseFlit port s
    else if ahead = 1 then (if p.roomFor f then acceptHeld port 8 (acceptFlit port f s) else loseFlit port s)
    else if ahead = 0 || decide (2 ^ 19 ≤ ahead) || p.dropping then s
    else if p.rxHeld.any (fun g => g.lane = f.lane) then loseFlit port s
    else updPort port (fun v => { v with rxHeld := v.rxHeld ++ [f] }) s)

/-! ## Control words and replay -/

/-- A running count brought up to the low 8 bits that a control word carries (R250). -/
def catchUp (seen low : Nat) : Nat := seen + (low + 256 - seen % 256) % 256

/-- Flits that an `ACK_SEQ` covers leave the replay buffer (R254). -/
def Port.acknowledge (p : Port) (ack : Nat) : Port :=
  let n := (ack + 2 ^ 20 - p.ackSeq) % 2 ^ 20
  if n = 0 || p.replay.length < n then p
  else { p with replay := p.replay.drop n, ackSeq := ack, nakSeen := none }

/-- A round trip in ticks: 1.2 µs and 10 ns per metre of the cable (R252). -/
def roundTrip (s : State) (port : Nat) : Nat := (1200 + numAt (Tab.get s.ctl.ids (7 + port) []) 0x20 2 + 39) / 40

/-- Is a NAK to be acted on: not one for the `ACK_SEQ` from which the sender resent less than a round trip ago (R254)? -/
def freshNak (s : State) (port ack : Nat) : Bool :=
  match (portOf s port).nakSeen with
  | none => true
  | some (a, t) => a ≠ ack || decide (roundTrip s port ≤ (s.ctl.localTime - t).toNat)

/-- The sender replays and notes from where and when (R254). -/
def replayFrom (port : Nat) (s : State) : State :=
  resend port (updPort port (fun p => { p with nakSeen := some (p.ackSeq, s.ctl.localTime) }) s)

/-- The control word that a port sends in every slot (R250). -/
def sentControl (s : State) (port : Nat) : CtrlWord :=
  let p := portOf s port
  let w : CtrlWord := ⟨p.rxSeq, p.rxNak, p.laneMask, Tab.get p.freed 0 0 % 256, Tab.get p.freed 1 0 % 256, Tab.get p.freed 2 0 % 256,
    Tab.get p.freed 3 0 % 256, p.changeFrame.getD 0 % 65536, p.changeFrame.isSome, 0, 0#16⟩
  { w with crc := crc16 (controlBody w) }

/-- The full frame number that the low 16 bits name, from the present frame on (R250, R267). -/
def fullFrame (now low : Nat) : Nat := (now + (low + 65536 - now % 65536) % 65536) % 2 ^ 32

/-- What a good control word does: acknowledgement, credits, NAK, the partner's lane mask, the frame of change (R250, R254, R266,
R267). -/
def takeControl (port : Nat) (w : CtrlWord) (s : State) : State :=
  let p0 := (portOf s port).acknowledge w.ackSeq
  let seen := fun c low (t : Tab Nat) => Tab.set t c (catchUp (Tab.get t c 0) low)
  let p1 := { p0 with creditSeen := seen 3 w.creditHost (seen 2 w.creditCtrl (seen 1 w.creditMsg (seen 0 w.creditData p0.creditSeen))) }
  let s1 := setPort port p1 s
  let s2 := if w.nak && freshNak s1 port w.ackSeq && !p1.replay.isEmpty then replayFrom port s1 else s1
  let lost := (portOf s2 port).active &&& (portOf s2 port).laneMask &&& ~~~w.laneMask
  let s3 := if lost ≠ 0#8 && (portOf s2 port).carries
    then narrow port (updPort port (fun p => { p with laneMask := p.laneMask &&& w.laneMask }) s2) else s2
  let p3 := portOf s3 port
  let s4 := if w.changeValid && p3.carries && p3.changeFrame.isNone && p3.remaining ≠ p3.active
    then setPort port { p3 with changeFrame := some (fullFrame (frameOf s.ctl.localTime p3) w.changeFrame), nextActive := lowestLanes p3.remaining } s3
    else s3
  drainPort port s4

/-- A port that a change took down is reported to the root (R284, R289). -/
def reportIfDown (port : Nat) (before after : State) : State :=
  if (portOf before port).carries && !(portOf after port).carries then reportPort port after else after

/-- A control word arrives; one whose CRC fails is ignored (R250). -/
def execControlWordReceive (port : Nat) (w : CtrlWord) (s : State) : Host.Outcome State Fault Refusal :=
  .next (if (portOf s port).carries && w.crc = crc16 (controlBody w)
    then reportIfDown port s (watchDegraded (takeControl port w) s) else s)

/-- `ACK_SEQ` has not advanced for 4 µs while flits are unacknowledged (R254). -/
def execAckTimeout (port : Nat) (s : State) : Host.Outcome State Fault Refusal :=
  .next (if (portOf s port).carries && !(portOf s port).replay.isEmpty
    then reportIfDown port s (watchDegraded (replayFrom port) s) else s)

/-! ## Alignment blocks, lanes, signal -/

/-- An alignment block on a port in service: the partner's frame number and address are taken; a changed serial on an active lane takes
the port down (R246, R269). -/
def execAlignmentBlockReceive (port : Nat) (b : AlignBlock) (s : State) : Host.Outcome State Fault Refusal :=
  .next (
    let p := portOf s port
    if !p.carries || b.marker.toNat ≠ alignMarker || !bit p.active.toNat b.lane then s
    else if b.senderSerial ≠ p.partnerSerial then takeDown port 0xA s
    else setPort port { p with
      partnerFrame := b.frameNo,
      partnerMesh := if b.senderMesh = 0xFFFF#16 then p.partnerMesh else some b.senderMesh } s)

/-- Corrected bits counted when second `k` runs: `a` before the last whole second, `b` in it, `c` since (R270 `CORRECTED_BITS`, `CORRECTED_1S`). -/
def LaneState.correct (k a b c : Nat) (l : LaneState) : LaneState :=
  if k = l.second then { l with corrected := satAdd 64 l.corrected c, thisSecond := l.thisSecond + c }
  else if k = l.second + 1 then
    { l with second := k, corrected := satAdd 64 l.corrected (b + c), lastSecond := l.thisSecond + b, thisSecond := c }
  else { l with second := k, corrected := satAdd 64 l.corrected (a + b + c), lastSecond := b, thisSecond := c }

/-- A lane's counters after what was found on it (R266, R270). -/
def countFault (now : U64) (f : LaneFault) (l : LaneState) : LaneState :=
  match f with
  | .codewords n => { l with
      uncorrectable := satAdd 32 l.uncorrectable n
      recent := (l.recent ++ List.replicate (min n 3) now).filter (fun t => decide ((now - t).toNat < 25000)) }
  | .bits n => l.correct (secondOf now) 0 0 n
  | _ => l

/-- Has a lane failed: no signal or lock, a laser fault, 3 uncorrectable codewords within 1 ms, or a ratio above 1e-4 of the 4.48e10 bits of 100 ms (R266)? -/
def laneFails (f : LaneFault) (l : LaneState) : Bool :=
  match f with
  | .codewords _ => decide (3 ≤ l.recent.length)
  | .bits n => decide (4480000 < n)
  | _ => true

def Port.lane (p : Port) (l : Nat) : LaneState := nth p.lanes l ⟨⟨0, 0, 0, 0, false, 0⟩, 0, 0, [], 0, 0, 0⟩

/-- What is found on active lanes: it is counted, and those that fail leave `LANE_MASK` (R266); the port narrows, or goes down under R267 and R268, with reason
LASER when laser faults take every remaining active lane (R265). -/
def execLaneFailure (port : Nat) (lanes : BitVec 8) (f : LaneFault) (s : State) : Host.Outcome State Fault Refusal :=
  .next (
    let p0 := portOf s port
    let hit := p0.remaining &&& lanes
    if !p0.carries || hit = 0#8 then s
    else
      let p : Port := { p0 with lanes := p0.lanes.zipIdx.map (fun e => if bit hit.toNat e.2 then countFault s.ctl.localTime f e.1 else e.1) }
      let failed := maskOf ((bitsOf hit.toNat 8).filter (fun l => laneFails f (p.lane l)))
      let s1 := setPort port { p with laneMask := p.laneMask &&& ~~~(BitVec.ofNat 8 failed) } s
      if failed = 0 then s1
      else
        let s2 := if f = .laser && !p.forbidDrop && (portOf s1 port).remaining = 0#8 then watchDegraded (portDown port 0xC) s1
          else watchDegraded (narrow port) s1
        if (portOf s2 port).carries then s2 else reportPort port s2)

/-- Frame `CHANGE_FRAME` begins: both ends use the narrower set; a failure detected meanwhile starts a new narrowing (R267). -/
def execWidthChange (port : Nat) (s : State) : Host.Outcome State Fault Refusal :=
  .next (
    let p := portOf s port
    match p.changeFrame with
    | none => s
    | some _ =>
      if !p.carries then s
      else
        let s1 := watchDegraded (fun s => notePort port (setPort port { p with
          active := p.nextActive, lasers := p.nextActive, changeFrame := none
          pstate := stateOfWidth (laneCount p.nextActive) } s)) s
        let s2 := if (portOf s1 port).remaining = (portOf s1 port).active then s1 else watchDegraded (narrow port) s1
        if (portOf s2 port).carries then s2 else reportPort port s2)

/-- A trained port without signal on every lane for 1 ms goes down with LASER (R244). -/
def execLossOfSignalAllLanes (port : Nat) (s : State) : Host.Outcome State Fault Refusal :=
  .next (if (portOf s port).carries then takeDown port 0xC s else s)

/-! ## Time exchange (R300) -/

/-- A TIME_PROBE goes out on an UP or NARROW port with the own send time. -/
def execTimeProbeSend (port : Nat) (s : State) : Host.Outcome State Fault Refusal :=
  .next (if (portOf s port).carries
    then sendFrame port 0x46 [s.ctl.localTime.toNat] (updPort port (fun p => { p with probeSent := s.ctl.localTime }) s) else s)

/-- A TIME_PROBE is answered with TIME_REPLY: the probe's time, and the own receive and send times. -/
def execTimeProbe (port sent : Nat) (s : State) : Host.Outcome State Fault Refusal :=
  .next (sendFrame port 0x47 [sent, s.ctl.localTime.toNat, s.ctl.localTime.toNat] s)

/-- A TIME_REPLY stores the four values of the exchange. -/
def execTimeReply (port probeSent partnerReceived partnerSent : Nat) (s : State) : Host.Outcome State Fault Refusal :=
  .next (if (portOf s port).carries then
    updPort port (fun p => { p with
      exchange :=
      some (BitVec.ofNat 64 probeSent, BitVec.ofNat 64 partnerReceived, BitVec.ofNat 64 partnerSent, s.ctl.localTime) }) s
  else s)

end Sys2Proof.Machine
end

