-- ==== Sys2Proof/Machine/Mesh.lean ====
section
/-! DEFINITION. The commands of the mesh (R271 to R289, R336 to R338): host role, enumeration, member and group tables,
forwarding and relays. -/

namespace Sys2Proof.Machine

open Sys2Proof

/-! ## Packets that have arrived -/

/-- The first packet of the inbox that meets a condition is taken; its flits leave their buffers (R252). -/
def takeFirst (ok : Pkt → Bool) (s : State) : State :=
  match s.mesh.inbox.find? (fun a => ok a.pkt) with
  | none => s
  | some a => freeBuffers a.port a.pkt.cls a.flits (mapMesh (fun m => { m with inbox := m.inbox.erase a }) s)

/-- One packet of the inbox taken by the command that names it. -/
def takeInbox (p : Pkt) : State → State := takeFirst (fun q => q = p)

/-- A packet of a type taken by a command that carries its content (log entry 13). -/
def takeType (ptype : Nat) : State → State := takeFirst (fun q => q.ptype = ptype)

/-- Host traffic for this module (R278): the HOST packet that carries a mailbox or a host DMA access is taken with it. -/
def takeHost (s : State) : State := takeFirst (fun q => q.ptype = 0x30 && s.mesh.addr = some q.dest) s

/-! ## Host role (R276) -/

/-- Why a HOST_HELLO on a port is refused: the lowest code that applies, or none (R276). -/
def helloFault (s : State) (port : Nat) : Option Nat :=
  if otpValue s 3 ≠ 1 then some 1
  else if hostAdapterPort s ≠ some port then some 2
  else if s.links.any (fun e => decide (e.1 < port) && e.2.hostRole) then some 3
  else none

/-- A refused port carries LINK flits only: the packets that wait there go elsewhere (R276). -/
def refusePort (port r : Nat) (s : State) : State :=
  let p := portOf s port
  let link := p.txq.filter (fun e => match e.item with
    | .frame _ _ => true
    | _ => false)
  clearQueue port { p with txq := p.txq.filter (fun e => !link.contains e) }
    (setPort port { p with hostWait := false, hostAdapter := true, hostReason := r, txPart := [], txq := link } s)

/-- HOST_HELLO within 2 s of training: HOST_ACCEPT and host role, or HOST_REFUSE with the reason; after 2 s no answer (R276). -/
def execHostHello (port : Nat) (_serial : Serial) (s : State) : Host.Outcome State Fault Refusal :=
  .next (
    let p := portOf s port
    if !p.carries || !p.hostWait then s
    else match helloFault s port with
      | none =>
        mapMesh (fun m => { m with root := true, hostPort := port, hostResult := 1 })
          (sendFrame port 0x41 [serialNat] (setPort port { p with hostRole := true, hostWait := false, hostAdapter := true } s))
      | some r =>
        let s1 := sendFrame port 0x42 [r] (refusePort port r s)
        if s.mesh.root then s1
        else mapMesh (fun m => { m with hostPort := (hostAdapterPort s).getD 0, hostResult := r + 1 }) s1)

/-- No HOST_HELLO within 2 s: the result is 5 for the port that a valid host-adapter record names (R276, R336). -/
def execHostHelloTimeout (port : Nat) (s : State) : Host.Outcome State Fault Refusal :=
  .next (if (portOf s port).hostWait then
    let s1 := updPort port (fun p => { p with hostWait := false }) s
    if hostAdapterPort s = some port && !s.mesh.root then mapMesh (fun m => { m with hostPort := port, hostResult := 5 }) s1 else s1
  else s)

/-! ## Groups and addresses -/

/-- `mesh.assign` (R279, R280): only at a root; the group in force is confirmed, another refused; before the ports have settled
the group is kept for that moment. -/
def execMeshAssign (h : Hdr) (group : U64) (s : State) : Host.Outcome State Fault Refusal :=
  .next (request h ⟨0x0700, 8, false, ownerFleet, [.train, .ready], s.mesh.root⟩
    (fun s =>
      let g := clampTo 1023 group.toNat
      match s.mesh.addr with
      | some a =>
        if a.toNat / 64 = g.value then okClamped [g] [] s
        else verifyFailed (fieldDiag 0 280 group.toNat) s
      | none =>
        if s.mesh.settled then okClamped [g] [] (startEnum g.value s)
        else okClamped [g] [] (mapMesh (fun m => { m with assigned := some g.value }) s)) s)

/-- Neighbour record of a port (R336). -/
def neighbourRecord (s : State) (i : Nat) : List Byte :=
  let p := portOf s i
  let a := (p.partnerMesh.getD 0#16).toNat
  let same := match s.mesh.addr with
    | none => false
    | some o => p.partnerMesh.isSome && o.toNat / 64 = a / 64
  lay [(4, pack [(16, a), (1, flag p.partnerMesh.isSome), (1, flag same), (1, flag p.hostAdapter),
    (2, if p.pstate = 3 then 2 else p.pstate)]), (4, 0)]

/-- Header and neighbour records of `mesh.status` (R336). -/
def meshStatusBytes (s : State) : List Byte :=
  lay [(4, pack [(16, (s.mesh.addr.getD 0#16).toNat), (1, flag s.mesh.addr.isSome), (1, flag s.mesh.root), (4, s.mesh.hostPort),
      (3, s.mesh.hostResult)]),
    (4, pack [(7, if s.mesh.root && s.mesh.addr.isSome then s.mesh.members.length else 0), (1, flag (s.mesh.root && s.mesh.groupFull))]),
    (8, 0)] ++ (List.range 16).flatMap (neighbourRecord s)

def execMeshStatus (h : Hdr) (s : State) : Host.Outcome State Fault Refusal :=
  .next (request h ⟨0x0701, 0, false, anyKind, served, true⟩ (fun s => ok (meshStatusBytes s) s) s)

/-- Group table entries written in order; a later entry for one group replaces an earlier one (R338). -/
def writeRoutes (entries : List (Nat × U16)) : State → State :=
  mapMesh (fun m => { m with
  groupTable := entries.foldl (fun t e =>
    if e.2 = 0#16 then Tab.erase t (e.1 % 1024) else Tab.set t (e.1 % 1024) e.2) m.groupTable })

/-- `mesh.route.write` (R286, R338): at a root, for itself or relayed to a member of its group in one MGMT packet. -/
def execMeshRouteWrite (h : Hdr) (target : U16) (entries : List (Nat × U16)) (x : Ext) (s : State) :
    Host.Outcome State Fault Refusal :=
  .next (request h ⟨0x0702, 8 + 8 * entries.length, false, ownerFleet, active, s.mesh.root⟩
    (fun s =>
      if entries.length = 0 || 511 < entries.length then verifyFailed (fieldDiag 1 338 entries.length) s
      else if s.mesh.addr = some target then ok (le 8 entries.length) (writeRoutes entries s)
      else if s.mesh.addr.isNone || target.toNat / 64 ≠ memberAddr s 0 / 64
          || (Tab.find s.mesh.members (target.toNat % 64)).isNone || (portSet s target.toNat).isEmpty then
        verifyFailed (fieldDiag 0 338 target.toNat) s
      else if x.pathFails then verifyFailed (fieldDiag 0 338 target.toNat) s
      else ok (le 8 entries.length)
        (sendCtl 0x21 target.toNat (mgmtRoute :: entries.length :: entries.flatMap (fun e => [e.1, e.2.toNat])) s)) s)

/-- Time records of the ports (R337). -/
def timeRecord (s : State) (i : Nat) : List Byte :=
  match (portOf s i).exchange with
  | none => lay [(32, 0)]
  | some (a, b, c, d) => lay [(8, a.toNat), (8, b.toNat), (8, c.toNat), (8, d.toNat)]

def execMeshTimeRead (h : Hdr) (s : State) : Host.Outcome State Fault Refusal :=
  .next (request h ⟨0x0703, 0, false, anyKind, served, true⟩ (fun s => ok ((List.range 16).flatMap (timeRecord s)) s) s)

/-- No `mesh.assign` 5 s after a root's ports settled: the saved group of a fast start with the same carrier record, else a valid
hint, else the root stays unaddressed and addressing has ended (R279). -/
def execMeshAssignWaitExpiry (s : State) : Host.Outcome State Fault Refusal :=
  .next (if s.ctl.mode = .train && s.mesh.root && s.mesh.settled && s.mesh.addr.isNone then
    let saved := match s.flash.savedGroup with
      | none => none
      | some (g, rec) => if s.ctl.fastStart && rec = (idRecord s 0).getD [] then some g else none
    match saved with
    | some g => startEnum g s
    | none => match groupHint s with
      | some g => startEnum g s
      | none => mapMesh (fun m => { m with addressingDone := true }) s
  else s)

/-- No CLAIM 20 s after the ports of a module that is no root settled: it stays unaddressed (R282). -/
def execClaimWaitExpiry (s : State) : Host.Outcome State Fault Refusal :=
  .next (if s.ctl.mode = .train && !s.mesh.root && s.mesh.settled && !s.mesh.claimed then
    mapMesh (fun m => { m with addressingDone := true }) s else s)

/-! ## Enumeration frames and packets (R281, R282) -/

/-- CLAIM: the first one is accepted, later ones refused with the current address; a root refuses (R277, R282; log entry 15). -/
def execClaim (port : Nat) (offered claimant : U16) (_claimantPort : Nat) (s : State) : Host.Outcome State Fault Refusal :=
  .next (if !(portOf s port).carries then s
    else
      let s0 := updPort port (fun p => { p with partnerMesh := some claimant }) s
      if !s.mesh.root && !s.mesh.claimed && s.mesh.addr.isNone then
        sendFrame port 0x44 [offered.toNat]
          (mapMesh (fun m => { m with addr := some offered, claimed := true, upPort := port }) s0)
      else sendFrame port 0x45 [(s.mesh.addr.getD 0xFFFF#16).toNat, flag s.mesh.addr.isSome] s0)

/-- A member sends the outcome of its CLAIM towards the root, on the port through which it was claimed (R281, log entry 13). -/
def answerUp (content : List Nat) (s : State) : State :=
  if (portOf s s.mesh.upPort).serves then sendItem s.mesh.upPort (.ctl 0x20 (memberAddr s 0) [] content) s else s

/-- Is this module the member of that number? Else it is one on the way, and passes the answer of another on (R281). -/
def ownMember (s : State) (member : Nat) : Bool := (s.mesh.addr.getD 0#16).toNat % 64 = member

/-- CLAIM_ACK: the root records the member and goes on (R281); a member that claimed for its root passes the answer up. -/
def execClaimAck (member port : Nat) (accepted : U16) (s : State) : Host.Outcome State Fault Refusal :=
  .next (
    let s := takeType 0x20 s
    if s.mesh.root then
    (if s.mesh.enumAt = some (member, port) then enumNext member port (addMember member port accepted.toNat s) else s)
  else if s.mesh.addr.isSome then
    answerUp [enumAccepted, member, port, accepted.toNat]
      (onlyIf (ownMember s member) (updPort port (fun p => { p with partnerMesh := some accepted })) s)
  else s)

/-- CLAIM_REFUSE: the partner is treated by the address that it gives (R281). -/
def execClaimRefuse (member port : Nat) (partner : U16) (addressed : Bool) (s : State) : Host.Outcome State Fault Refusal :=
  .next (
    let s := takeType 0x20 s
    if s.mesh.root then
    (if s.mesh.enumAt = some (member, port) then
      enumNext member port (if addressed then
        noteLink member port partner.toNat
          (if member = 0 then updPort port (fun p => { p with partnerMesh := some partner }) s else s) else s)
    else s)
  else if s.mesh.addr.isSome then
    answerUp [enumRefused, member, port, partner.toNat, flag addressed]
      (onlyIf (addressed && ownMember s member) (updPort port (fun p => { p with partnerMesh := some partner })) s)
  else s)

/-- ENUM: forwarded along its path, or executed at its end: a CLAIM with the offered address to an unaddressed partner, else a report of the port; an offer above
0xFFFF says that the group is full (R281, log entry 13). -/
def execEnum (path : List Nat) (port offered : Nat) (s : State) : Host.Outcome State Fault Refusal :=
  .next (
    let s := takeType 0x20 s
    match path with
    | q :: r => sendEnum (q :: r) [enumClaim, port, offered] s
    | [] =>
      let p := portOf s port
      match s.mesh.addr with
      | none => s
      | some a =>
        if p.carries && p.partnerMesh.isNone && !p.hostAdapter && decide (offered ≤ 0xFFFF) then sendFrame port 0x43 [offered, a.toNat, port] s
        else answerUp [mgmtPortState, a.toNat % 64, port, flag (p.carries && !p.hostAdapter), flag p.partnerMesh.isSome,
          (p.partnerMesh.getD 0#16).toNat] s)

/-- The root writes the member table of an addressed member, which ends its addressing (R283 step 4, R285). -/
def execMemberTableWrite (masks : List U16) (s : State) : Host.Outcome State Fault Refusal :=
  .next (
    let s := takeType 0x21 s
    if s.mesh.addr.isSome && !s.mesh.root then
      mapMesh (fun m => { m with memberTable := tableOf masks, addressingDone := true }) s
    else s)

/-- A member applies relayed route entries when the whole packet has arrived (R338). -/
def execMgmtRouteWrite (entries : List (Nat × U16)) (s : State) : Host.Outcome State Fault Refusal :=
  .next (
    let s := takeType 0x21 s
    if s.mesh.addr.isSome then writeRoutes entries s else s)

/-- A port-state report at the root: the answer that enumeration waits for, or a change in service (R281, R284); a member on the way passes it up. An unaddressed
partner that the root did not claim is one over the limit when the group is full (R283), else a host adapter. -/
def execPortStateReport (member port : Nat) (up : Bool) (partner : U16) (addressed : Bool) (s : State) :
    Host.Outcome State Fault Refusal :=
  .next (
    let s := takeFirst (fun q => q.ptype = 0x20 || q.ptype = 0x21) s
    if s.mesh.addr.isNone then s
    else if !s.mesh.root then answerUp [mgmtPortState, member, port, flag up, flag addressed, partner.toNat] s
    else if s.mesh.enumAt = some (member, port) then
      enumNext member port (if up && addressed then noteLink member port partner.toNat s
        else if up && decide (63 < s.mesh.nextMember) then overLimit member port s else s)
    else applyPortState member port up (if addressed then some partner.toNat else none) s)

/-- The root computes the member tables again and writes them (R289). -/
def execMemberTableRecompute (s : State) : Host.Outcome State Fault Refusal :=
  .next (if s.mesh.root && s.mesh.addr.isSome then writeTables s else s)

/-! ## Forwarding and relays -/

/-- R287: delivered to this module, forwarded, or dropped without a route; R273 for a module without an address. -/
def execPacketForward (a : Arrival) (s : State) : Host.Outcome State Fault Refusal :=
  .next (match s.mesh.addr with
    | none => updPort a.port (fun v => { v with unaddressed := satInc 64 v.unaddressed }) s
    | some o => if a.pkt.dest = o then keepPkt a.port 0 a.pkt s else forwardPkt a.port none a.pkt s)

end Sys2Proof.Machine
end

