-- ==== Sys2Proof/Machine/Windows.lean ====
section
/-! DEFINITION. Windows (R290 to R298): their records and commands, what a target does with a window request, and how an accessor takes
the answers. -/

namespace Sys2Proof.Machine

open Sys2Proof

/-! ## Scratchpad aperture (R80, R203) -/

def apertureBase : Nat := 0x400000000000

/-- Plot, slice and offset that an aperture address names. -/
def apertureOf (a : Nat) : Option (Nat × Nat × Nat) :=
  if apertureBase ≤ a && a < apertureBase + 0x100000000 then
    let o := a - apertureBase
    some (o / 2 ^ 23, o / 2 ^ 19 % 16, o % 2 ^ 19)
  else none

/-- Plots whose aperture a range touches. -/
def aperturePlots (a n : Nat) : List Nat :=
  if n = 0 then [] else rangeFrom ((a - apertureBase) / 2 ^ 23) ((a + n - 1 - apertureBase) / 2 ^ 23 - (a - apertureBase) / 2 ^ 23 + 1)

/-! ## Window records (R290, R291) -/

/-- A window record as sent. -/
def windowInput (w : Rec4) (key : BitVec 256) (owner : Digest) (session : Nat) (byImage : Bool) : Window :=
  { base := bits w.w0.toNat 0 48, size := bits w.w1.toNat 0 40, peerAddr := BitVec.ofNat 16 (bits w.w2.toNat 0 16),
    peerMask := BitVec.ofNat 16 (bits w.w2.toNat 16 16), rd := bit w.w2.toNat 32, wr := bit w.w2.toNat 33, atomic := bit w.w2.toNat 34,
    aperture := bit w.w2.toNat 35, closed := false, key := key, owner := owner, session := session, byImage := byImage }

/-- A window record in report form, without its key (R290, R334). -/
def Window.report (w : Window) (id : Nat) : List Byte :=
  lay [(8, w.base), (8, w.size),
    (8, pack [(16, w.peerAddr.toNat), (16, w.peerMask.toNat), (1, flag w.rd), (1, flag w.wr), (1, flag w.atomic), (1, flag w.aperture),
      (12, 0), (12, id), (2, flag w.closed)]), (8, 0)]

/-- Does a range lie in ACTIVE regions of an owner (R291 rule 2)? The list is in id order, so the walk is repeated once for each
region. -/
def coveredBy (l : List Region) (a e fuel : Nat) : Bool :=
  if e ≤ a then true
  else match fuel with
    | 0 => false
    | n + 1 => match l.find? (fun r => r.covers a) with
      | none => false
      | some r => coveredBy l (r.base + r.bytes) e n

/-- The first check of R291 that a record fails: rule number, byte offset of the failing word, value. `plots` are those that the
tenant's image assigns. -/
def windowFault (s : State) (r : Rec4) (w : Window) (plots : List Nat) : Option (Nat × Nat × Nat) :=
  let flags := r.w2.toNat / 2 ^ 32
  if r.w0.toNat / 2 ^ 48 ≠ 0 then some (1, 0x04, r.w0.toNat / 2 ^ 32)
  else if r.w1.toNat / 2 ^ 40 ≠ 0 then some (1, 0x0C, r.w1.toNat / 2 ^ 32)
  else if bits flags 4 12 ≠ 0 || flags / 2 ^ 30 ≠ 0 then some (1, 0x14, flags)
  else if r.w3.toNat % 2 ^ 32 ≠ 0 then some (1, 0x18, r.w3.toNat % 2 ^ 32)
  else if r.w3.toNat ≠ 0 then some (1, 0x1C, r.w3.toNat / 2 ^ 32)
  else if w.base % 4096 ≠ 0 then some (1, 0x00, w.base)
  else if w.size = 0 then some (1, 0x08, w.size)
  else if !w.aperture && !coveredBy ((s.hbm.regions.filter (fun e => e.2.isActive && e.2.owner = w.owner)).map (·.2))
      w.base (w.base + w.size) 1024 then some (2, 0x00, w.base)
  else if w.aperture && (w.base < apertureBase || apertureBase + 0x100000000 < w.base + w.size
      || !(aperturePlots w.base w.size).all (fun p => plots.contains p)) then some (2, 0x00, w.base)
  else if w.atomic && (w.aperture || s.hbm.regions.any (fun e => e.2.interleave = 2 && decide (e.2.base < w.base + w.size)
      && decide (w.base < e.2.base + e.2.bytes))) then some (3, 0x14, flags)
  else if s.mesh.addr.isNone then some (4, 0x00, 0)
  else none

/-- Plots that a loaded image of a principal assigns. -/
def imagePlots (s : State) (owner : Digest) : List Nat :=
  if s.job.loaded && s.job.principal = owner then s.job.plots else []

/-- A window opened under an id; the violation counter of a reused id starts again (R383), as its replay state does. -/
def openWindow (id : Nat) (w : Window) (s : State) : State :=
  mapGate (fun g => { g with vWindow := Tab.erase g.vWindow id })
    (mapMesh (fun m => { m with
      windows := Tab.set m.windows id w
      replays := m.replays.filter (fun r => r.response || r.window ≠ id) }) s)

/-- A window freed, its key zeroised with it (R297). -/
def freeWindow (id : Nat) : State → State := mapMesh (fun m => { m with windows := Tab.erase m.windows id })

def freeWindowsWhere (p : Window → Bool) : State → State :=
  mapMesh (fun m => { m with windows := m.windows.filter (fun e => !p e.2) })

/-- A window id: the module's choice when it is free, else the lowest free (log entry 1). -/
def pickWindowId (l : Tab Window) (pick : Option Nat) : Option Nat :=
  match pick with
  | some i => if i < 4096 && (Tab.find l i).isNone then some i else Tab.lowestFree l 0 4096
  | none => Tab.lowestFree l 0 4096

/-- Rounded up to 4 KiB (R291). -/
def clampWindow (size : Nat) : Clamped := if size % 4096 = 0 then ⟨size, false⟩ else ⟨(size / 4096 + 1) * 4096, true⟩

/-- `window.open` (R290, R291). -/
def execWindowOpen (h : Hdr) (r : Rec4) (key : BitVec 256) (x : Ext) (s : State) : Host.Outcome State Fault Refusal :=
  .next (request h ⟨0x0704, 64, false, tenantKind, active, true⟩
    (fun s =>
      let w0 := windowInput r key (issuerHash h s) h.session false
      let c := clampWindow w0.size
      let w := { w0 with size := c.value }
      match windowFault s r w (imagePlots s w.owner) with
      | some (rule, off, v) => verifyFailed { fieldDiag off 291 v with rule := rule } s
      | none => match pickWindowId s.mesh.windows x.picks.head? with
        | none => answer stExhausted s
        | some id => okClamped [c] [] (openWindow id w s)) s)

/-- The window that a command names, when it belongs to the issuer (R316). -/
def ownWindow (h : Hdr) (id : Nat) (s : State) : Option Window :=
  match Tab.find s.mesh.windows id with
  | none => none
  | some w => if w.owner = issuerHash h s then some w else none

/-- The `WINDOW_ID` that a value of `window.close` names: the value without `FREE`, bit 12 (R297, R316). -/
def windowId (v : U64) : Nat := v.toNat - 4096 * flag (bit v.toNat 12)

/-- `window.close` without `FREE` (R297): CLOSED, its key kept. -/
def execWindowClose (h : Hdr) (window : U64) (s : State) : Host.Outcome State Fault Refusal :=
  .next (request h ⟨0x0705, 8, false, tenantKind, active, true⟩
    (fun s => match ownWindow h (windowId window) s with
      | none => verifyFailed (fieldDiag 0 316 window.toNat) s
      | some w => ok [] (mapMesh (fun m => { m with windows := Tab.set m.windows (windowId window) { w with closed := true } }) s)) s)

/-- `window.close` with `FREE` (R297): closed, freed, its key zeroised. -/
def execWindowFree (h : Hdr) (window : U64) (s : State) : Host.Outcome State Fault Refusal :=
  .next (request h ⟨0x0705, 8, false, tenantKind, active, true⟩
    (fun s => match ownWindow h (windowId window) s with
      | none => verifyFailed (fieldDiag 0 316 window.toNat) s
      | some _ => ok [] (freeWindow (windowId window) s)) s)

/-- `window.list` (R334). -/
def execWindowList (h : Hdr) (start : U64) (s : State) : Host.Outcome State Fault Refusal :=
  .next (request h ⟨0x0706, 8, false, tenantKind, active, true⟩
    (fun s =>
      if 4095 < start.toNat then verifyFailed (fieldDiag 0 334 start.toNat) s
      else ok (listReply ((s.mesh.windows.filter (fun e => decide (start.toNat ≤ e.1) && e.2.owner = issuerHash h s)).map
        (fun e => (e.1, e.2.report e.1))) 4096) s) s)

/-! ## Replay (R294) -/

/-- Triples that the gatehouse and the system area hold. -/
def replayTriples : Nat := 16384 + 1048576

def Replay.isFor (r : Replay) (window : Nat) (sender : U16) (response : Bool) : Bool :=
  r.window = window && r.sender = sender && r.response == response

/-- Was a counter taken already, or is it below the bitmap? -/
def Replay.stale (r : Replay) (n : Nat) : Bool := n = r.highest || decide (n + 4096 < r.highest) || r.seen.contains n

def Replay.take (r : Replay) (n : Nat) : Replay :=
  let hi := max r.highest n
  { r with
    highest := hi
    seen := ((r.highest :: n :: r.seen).filter (fun k => decide (k < hi) && decide (hi ≤ k + 4096))).eraseDups }

/-- What the replay state makes of an authentic packet. -/
inductive ReplayVerdict where
  | fresh
  | replayed
  | full
  deriving DecidableEq, Repr

def replayVerdict (s : State) (window : Nat) (sender : U16) (response : Bool) (n : Nat) : ReplayVerdict :=
  match s.mesh.replays.find? (fun r => r.isFor window sender response) with
  | some r => if r.stale n then .replayed else .fresh
  | none => if replayTriples ≤ s.mesh.replays.length then .full else .fresh

/-- A counter taken into the replay state of its triple. -/
def takeNonce (window : Nat) (sender : U16) (response : Bool) (n : Nat) : State → State :=
  mapMesh (fun m => { m with
    replays :=
      if m.replays.any (fun r => r.isFor window sender response) then
        m.replays.map (fun r => if r.isFor window sender response then r.take n else r)
      else m.replays ++ [⟨window, sender, response, n, []⟩] })

/-- A packet from a further triple is counted in `REPLAY_TABLE_FULL` (at port 0: log entry 14). -/
def countReplayFull : State → State := updPort 0 (fun p => { p with replayFull := satInc 64 p.replayFull })

/-! ## Requests at the target (R295) -/

/-- Does an accessor match the peer pattern (R290)? -/
def Window.matchesPeer (w : Window) (a : U16) : Bool := a &&& w.peerMask = w.peerAddr &&& w.peerMask

/-- Row 2 of R295: is the request refused although it is authentic? -/
def Window.refuses (w : Window) (src : U16) (right : Bool) (a n : Nat) : Bool :=
  w.closed || !w.matchesPeer src || a < w.base || w.base + w.size < a + n || !right

/-- A window request at the target, opened with the window's key: dropped, refused with an authenticated answer, or performed (R293 to R295). From here on it
carries that key, with which it completes also when the window is freed meanwhile (R297). A request before the module has an address, or one for another module, has
not reached its target. -/
def windowRequest (p : Pkt) (right : Window → Bool) (len : List Byte → Nat)
    (refused : Pkt → List Byte → State → State) (perform : Window → Pkt → List Byte → State → State) (s : State) : State :=
  if s.mesh.addr ≠ some p.dest then s
  else
    let s := takeInbox p s
    match Tab.find s.mesh.windows p.window with
    | none => violation 0x06 .none (sourceModule p.src) s
    | some w => match openBody w.key p with
      | none => violation 0x06 (.window p.window) (sourceModule p.src) s
      | some body => match replayVerdict s p.window p.src false p.nonce with
        | .replayed => violation 0x06 (.window p.window) (sourceModule p.src) s
        | .full => countReplayFull s
        | .fresh =>
          let s := takeNonce p.window p.src false p.nonce s
          let q := { p with key := some w.key }
          if w.refuses p.src (right w) p.address (len body) then
            refused q body (violation 0x05 (.window p.window) (sourceModule p.src) s)
          else perform w q body s

/-- The field whose gateway serves an HBM request: that of the stack (the gateway is not told apart further). -/
def servingField (s : State) (a : Nat) : Nat :=
  match regionAt s.hbm.regions a with
  | none => 0
  | some (_, r) => stackOfPhys (r.phys a) / 4

/-- A tracked request on its way to the stack controller that serves it. -/
def sendRequest (f : Nat) (site : Site) (g rid a : Nat) (s : State) : State :=
  let gate := addressGateway s g a
  carry f site 0 (.edge gate.1 (outwardEdge gate.1) (gate.2.lane 0)) (.request g rid) (holdOne g rid) id s

/-- An HBM access of a window as a tracked request of its field, on its way from the gateway of its port, in the row of the outward edge (log entry 101). -/
def windowHbm (port : Nat) (p : Pkt) (write : Bool) (len : Nat) (data : List Byte) (s : State) : State :=
  let f := servingField s p.address
  sendRequest (port / 2) (.gateway (if port % 2 = 0 then 3 else 1) (edgeRouter (outwardEdge (port / 2)) 0).2) f (fieldOf s f).nextId p.address
    (addRequest f ⟨write, p.address, len, data, .window port p, 0, 0, false, [], false, 0⟩ s)

/-- Length of a READ_REQ (R275). -/
def readLength (body : List Byte) : Nat := numAt body 0 2

/-- A request of a window to the aperture, performed at its slice and answered (R80, R295). -/
def windowAccess (p : Pkt) (read : Bool) (body : List Byte) (s : State) : State :=
  match apertureOf p.address with
  | none => respondWindow p (if read then 0x04 else 0x05) false false (if read then List.replicate (readLength body) 0#8 else []) s
  | some (plot, slice, off) =>
    if read then
      let r := spadLoad plot slice off (readLength body) 0 (sourceModule p.src) s
      replyFrom (fieldOfPlot plot) (sliceSite s plot slice) p 0x04 r.2.2 false r.2.1 r.1
    else
      let r := spadStore plot slice off body 0 (sourceModule p.src) s
      replyFrom (fieldOfPlot plot) (sliceSite s plot slice) p 0x05 false r.2 [] r.1

/-- The gateway of a port, west or east of its field, in the row of a slice (log entry 101). -/
def portSite (s : State) (port plot slice : Nat) : Site := .gateway (if port % 2 = 0 then 3 else 1) (sliceCore s plot slice).2

/-- A window request to the aperture on its way from the edge gateway of its port, in the slice's row (log entry 101), held while its plot is
(R430). -/
def windowSpad (port : Nat) (p : Pkt) (read : Bool) (body : List Byte) (s : State) : State :=
  match apertureOf p.address with
  | none => windowAccess p read body s
  | some (plot, slice, _) =>
    carry (port / 2) (portSite s port plot slice) 0 (.slice plot slice) (.window port p read body) id
      (windowAccess p read body) s

/-- The port by which a packet in the inbox has come. -/
def arrivalPort (s : State) (p : Pkt) : Nat := ((s.mesh.inbox.find? (fun a => a.pkt = p)).map (·.port)).getD 0

/-- The window requests that the edge gateway of a port serves: those that a stack controller has still to answer, and those that wait for a held
plot (R295). -/
def servedAt (s : State) (port : Nat) : Nat :=
  let of : ReqDest → Bool := fun d => match d with | .window g _ => g = port | _ => false
  let at_ : Parcel → Bool := fun v => match v.cargo with | .window g _ _ _ => g = port | _ => false
  s.flds.foldl (fun n e => n + (e.2.requests.filter (fun q => of q.2.dest)).length) 0
    + s.grid.foldl (fun n e => n + ((e.2.pools ++ e.2.stalled).filter at_).length) 0

/-- A request waits at a gateway that serves 2,048 already, or whose hold pool has no room for it; its flits keep their buffers, so that the data credits are
withheld (R252, R269, R295). -/
def gatewayFull (s : State) (p : Pkt) : Bool :=
  let port := arrivalPort s p
  decide (2048 ≤ servedAt s port) || (match apertureOf p.address with
    | none => false
    | some (plot, slice, _) => portStalls s (port / 2) (portSite s port plot slice) 0 (.slice plot slice))

/-- WINDOW_READ_REQ: zero when refused; from the aperture at once, else by a stack controller. -/
def execWindowReadReq (p : Pkt) (s : State) : Host.Outcome State Fault Refusal :=
  .next (let port := arrivalPort s p
  if gatewayFull s p then s
  else windowRequest p (·.rd) readLength
    (fun p body => respondWindow p 0x04 false false (List.replicate (readLength body) 0#8))
    (fun w p body s =>
      if w.aperture then windowSpad port p true body s
      else windowHbm port p false (readLength body) (List.replicate (readLength body) 0#8) s) s)

/-- WINDOW_WRITE_REQ: acknowledged without effect when refused. -/
def execWindowWriteReq (p : Pkt) (s : State) : Host.Outcome State Fault Refusal :=
  .next (let port := arrivalPort s p
  if gatewayFull s p then s
  else windowRequest p (·.wr) List.length
    (fun p _ => respondWindow p 0x05 false false [])
    (fun w p body s =>
      if w.aperture then windowSpad port p false body s
      else windowHbm port p true body.length body s) s)

/-- The operation that an ATOMIC_REQ names (R214, R274): operand in the first 8 bytes, compare operand in the next. None: a code or
width that R214 does not list. -/
def atomicFn (p : Pkt) (body : List Byte) : Option (Nat → Nat) :=
  let n := widthBytes p.w8
  match p.atomicOp with
  | 0 => some (fetchAddFn n (numAt body 0 8))
  | 1 => some (swapFn n (numAt body 0 8))
  | 2 => if p.w8 then some (compareSwapFn (numAt body 0 8) (numAt body 8 8)) else none
  | 3 => some (fetchMaxFn n (numAt body 0 8))
  | 4 => some (fetchOrFn n (numAt body 0 8))
  | _ => none

/-- WINDOW_ATOMIC_REQ: zero when refused, and when it names no operation of R214 or an operand that is not aligned (log entry 19). -/
def execWindowAtomicReq (p : Pkt) (o : WordErrors) (s : State) : Host.Outcome State Fault Refusal :=
  .next (if gatewayFull s p then s
  else windowRequest p (·.atomic) (fun _ => widthBytes p.w8)
    (fun p _ => respondWindow p 0x06 false false (le 8 0))
    (fun _ p body s =>
      match regionAt s.hbm.regions p.address, atomicFn p body with
      | some (id, r), some f =>
        if p.address % widthBytes p.w8 ≠ 0 then
          respondWindow p 0x06 false false (le 8 0) (violation 0x05 (.window p.window) (sourceModule p.src) s)
        else
          let a := atomicAt id r p.address (widthBytes p.w8) f o s
          replyFrom (stackGateway (r.phys p.address)).1 (stackGateway (r.phys p.address)).2 p 0x06 a.2.2 false (le 8 a.2.1) a.1
      | _, _ => respondWindow p 0x06 false false (le 8 0) (violation 0x05 (.window p.window) (sourceModule p.src) s)) s)

/-! ## Answers at the accessor (R293, R294, R296) -/

/-- What an answer to a tracked request opens to, with the key of the remote-window entry that the request used (R292, R293): none when it is not
authentic, or does not come from the request's target and window. -/
def openAnswer (s : State) (p : Pkt) : Option (List Byte) :=
  match Tab.find s.mesh.remote p.reqTag with
  | none => none
  | some q =>
    if q.target ≠ p.src || q.window ≠ p.window then none
    else (s.job.remotes.find? (fun w => w.target = p.src.toNat && w.window = p.window)).bind (fun w => openBody w.key p)

/-- An answer waits in its buffers while its slice is held and the hold pool of the gateway has no room (R269). -/
def answerStalls (s : State) (p : Pkt) : Bool :=
  match Tab.find s.mesh.remote p.reqTag with
  | none => false
  | some r => match r.dest with
    | .fill _ plot i _ => portStalls s r.field (.gateway 3 (sliceCore s plot i).2) 1 (.slice plot i)
    | _ => false

/-- An answer to a tracked request: dropped unless it is authentic and fresh. -/
def windowAnswer (p : Pkt) (take : List Byte → State → State) (s : State) : State :=
  if s.mesh.addr ≠ some p.dest || answerStalls s p then s
  else
    let s := takeInbox p s
    match openAnswer s p with
    | none => s
    | some body => match replayVerdict s p.window p.src true p.nonce with
      | .replayed => violation 0x06 .none (sourceModule p.src) s
      | .full => countReplayFull s
      | .fresh => take body (takeNonce p.window p.src true p.nonce s)

def execReadResp (p : Pkt) (s : State) : Host.Outcome State Fault Refusal :=
  .next (windowAnswer p (fun body => answerRemote p.reqTag (if p.failed then none else some body) p.poison p.failed) s)

def execWriteAck (p : Pkt) (s : State) : Host.Outcome State Fault Refusal :=
  .next (windowAnswer p (fun _ => answerRemote p.reqTag (some []) false p.failed) s)

/-- The old value of a remote atomic comes back (R214, R275). -/
def execAtomicResp (p : Pkt) (s : State) : Host.Outcome State Fault Refusal :=
  .next (windowAnswer p (fun body s =>
    answerRemote p.reqTag (some body) p.poison p.failed
      (mapHbm (fun h => { h with
        atomicOld := BitVec.ofNat 64 (numAt body 0 8)
        atomicPoison := p.poison || p.failed }) s)) s)

/-- No response within 50 ms: the request is answered Failed (R296). -/
def execRemoteRequestTimeout (reqTag : Nat) (s : State) : Host.Outcome State Fault Refusal :=
  .next (failRemote reqTag s)

end Sys2Proof.Machine
end

