-- ==== Sys2Proof/Machine/Loops.lean ====
section
/-! DEFINITION. Loop descriptors as arithmetic (R86 to R92, R95): parameters, the nest and its issue numbers, addresses, sizes, and the
checks of R101 that a run's opening and an issue repeat; the parts of a run, and what a replay records (R418). -/

namespace Sys2Proof.Machine

open Sys2Proof

/-! ## Parameters (R86) -/

def paramIn (ps : List U64) (i : Nat) : Nat := (nth ps i 0#64).toNat

/-- A bound of a parameter: its bits [24:0] (R89). -/
def Level.resolve (ps : List U64) (l : Level) : Level := if l.fromParam then { l with bound := paramIn ps l.param % 2 ^ 25 } else l

/-- A base with bits [47:0] of a parameter added (R88); never wrapped (R95). -/
def Operand.resolve (ps : List U64) (o : Operand) : Operand := if o.fromParam then { o with base := o.base + paramIn ps o.param % 2 ^ 48 } else o

/-- M, N and K in the encoding of bits [10:0] of word 0x004 (R87). -/
def shapeOf (v : Nat) : Nat × Nat × Nat := (16 * (bits v 0 3 + 1), 16 * (bits v 3 3 + 1), 32 * (bits v 6 5 + 1))

/-- A descriptor as a run opens it, with the snapshot of its parameters. `SHAPE_FROM_PARAM` takes bits [10:0] of word 0x004 from one: M, N and K of
a MATRIX descriptor; of a move its rows and the low three bits of its row length in units of 32 bytes (R87). -/
def Desc.resolve (d : Desc) (ps : List U64) : Desc :=
  let v := paramIn ps d.shapeParam
  let sh := if d.shapeFromParam then shapeOf v else (d.m, d.n, d.k)
  { d with m := sh.1, n := sh.2.1, k := sh.2.2
           moveRows := if d.shapeFromParam then bits v 0 8 + 1 else d.moveRows
           moveRowBytes := if d.shapeFromParam then (d.moveRowBytes / 256 * 8 + bits v 8 3) * 32 else d.moveRowBytes
           a := d.a.resolve ps, b := d.b.resolve ps, c := d.c.resolve ps, d := d.d.resolve ps
           levels := d.levels.map (Level.resolve ps) }

/-! ## The nest (R89, R90) -/

def product (l : List Nat) : Nat := l.foldl (· * ·) 1

/-- Levels in loop order, outermost first. -/
def Desc.ordered (d : Desc) : List Level := (List.range d.levels.length).filterMap (fun o => d.levels.find? (fun l => l.order = o))

/-- Levels down to the parallel level: those of the work items. -/
def Desc.outer (d : Desc) : List Level :=
  match d.levels.find? (·.parallel) with
  | none => []
  | some p => d.ordered.take (p.order + 1)

def Desc.items (d : Desc) : Nat := product (d.outer.map (·.bound))
/-- Output tiles of a work item. -/
def Desc.innerTiles (d : Desc) : Nat := product (((d.ordered.drop d.outer.length).filter (fun l => !l.reduce)).map (·.bound))
/-- r: steps of a reduction. -/
def Desc.steps (d : Desc) : Nat := product ((d.ordered.filter (·.reduce)).map (·.bound))
/-- Issues of a work item. -/
def Desc.perItem (d : Desc) : Nat := d.innerTiles * d.steps
/-- Output tiles of the run. -/
def Desc.tiles (d : Desc) : Nat := product ((d.ordered.filter (fun l => !l.reduce)).map (·.bound))

/-- The indices of a number in a mixed radix, outermost first, the innermost digit least significant. -/
def digits (bounds : List Nat) (v : Nat) : List Nat :=
  match bounds with
  | [] => []
  | b :: r => v / product r % b :: digits r v

/-- The place in the nest of an issue number: tile × r + step, over the taken work items. -/
def placeOf (per : Nat) (ranges : List (Nat × Nat)) (x : Nat) : Option Nat :=
  match ranges with
  | [] => none
  | (f, c) :: t => if x < c * per then some (f * per + x) else placeOf per t (x - c * per)

def Level.stride (l : Level) (op : Nat) : Int := match op with | 0 => l.strideA | 1 => l.strideB | 2 => l.strideC | _ => l.strideD

def Desc.operand (d : Desc) (op : Nat) : Operand := match op with | 0 => d.a | 1 => d.b | 2 => d.c | _ => d.d

/-- The address of an operand at a place of the nest (R90, R95), as an exact integer: R95 does not say what a sum outside the signed 64-bit range
gives (log entry 107, DESIGN CHOICE). -/
def Desc.addr (d : Desc) (op place : Nat) : Int :=
  (List.zipWith (fun (l : Level) (i : Nat) => (i : Int) * l.stride op) d.ordered (digits (d.ordered.map (·.bound)) place)).foldl (· + ·)
    ((d.operand op).base : Int)

/-! ## Sizes (R30, R87, R88) -/

/-- The tile issue that a MATRIX descriptor makes; steps after the first load the partial (R91). -/
def Desc.spec (d : Desc) (step : Nat) : TileSpec :=
  let t : TileSpec := ⟨d.aFmt, d.bFmt, d.bsCode, d.sparse, d.accInit, d.pair, d.cFmt, d.m, d.n, d.k⟩
  if step = 0 then t else { t with accInit := 1, cFmt := partialFmt t }

/-- Rows of an operand. -/
def Desc.rowCount (d : Desc) (op : Nat) : Nat := if d.kind ≠ 0 then d.moveRows else if op = 1 then d.n else d.m

/-- Bytes of a row. -/
def Desc.rowBytes (d : Desc) (op : Nat) : Nat :=
  if d.kind ≠ 0 then d.moveRowBytes
  else match op with
    | 0 => elemBytes d.aFmt d.k
    | 1 => elemBytes d.bFmt d.k
    | 2 => d.n * drainBytes d.cFmt
    | _ => d.n * drainBytes d.drainFmt

/-- Bytes of an operand in a slot part, with its scale and metadata arrays. -/
def Desc.totalBytes (d : Desc) (op : Nat) : Nat :=
  if d.kind ≠ 0 then d.moveRows * d.moveRowBytes
  else match op with
    | 0 => (operandLayout d.aFmt d.bsCode d.m d.k false).2.2
    | 1 => (operandLayout d.bFmt d.bsCode d.n d.k d.sparse).2.2
    | _ => d.m * d.rowBytes op

/-- Bytes of a partial (R91). -/
def Desc.partialBytes (d : Desc) : Nat := d.m * d.n * drainBytes (partialFmt (d.spec 0))

/-- The rows of an operand in memory at a place of the nest: one block, or rows spaced by `PITCH`. -/
def Desc.rows (d : Desc) (op place : Nat) : List (Int × Nat) :=
  if (d.operand op).pitched then
    (List.range (d.rowCount op)).map (fun (i : Nat) => (d.addr op place + (i : Int) * ((d.operand op).pitch : Int), d.rowBytes op))
  else [(d.addr op place, d.totalBytes op)]

/-- Operands that a descriptor uses (R101). -/
def Desc.usedOps (d : Desc) : List Nat :=
  match d.kind with
  | 0 => [0, 1] ++ (if d.accInit = 1 then [2] else []) ++ (if d.commitMode = 2 then [] else [3])
  | 1 => [0]
  | _ => [3]

/-! ## Checks of R101 that are repeated -/

def inAperture (a : Int) : Bool := decide ((apertureBase : Int) ≤ a) && decide (a < (apertureBase : Int) + 2 ^ 32)

/-- The apertures of R203 beside that of the scratchpads: plot queues, mailboxes, small registers. -/
def inOtherAperture (a : Int) : Bool :=
  (decide ((0x500000000000 : Int) ≤ a) && decide (a < (0x500008000000 : Int)))
    || (decide ((0x600000000000 : Int) ≤ a) && decide (a < (0x600000200000 : Int)))
    || (decide ((0x700000000000 : Int) ≤ a) && decide (a < (0x700001000000 : Int)))

/-- Alignment that the class of an address asks for (check 0x09). -/
def alignUnit (a : Int) : Int := if inAperture a || inOtherAperture a then 32 else 64

/-- Check 0x09 of a computed address. -/
def addrAligned (a : Int) : Bool := decide (a % alignUnit a = 0)

/-- Check 0x09 of a base with the strides and `PITCH` of its operand. -/
def Desc.opAligned (d : Desc) (op : Nat) : Bool :=
  let o := d.operand op
  let u := alignUnit (o.base : Int)
  decide ((o.base : Int) % u = 0) && d.levels.all (fun l => decide (l.stride op % u = 0)) && (!o.pitched || decide ((o.pitch : Int) % u = 0))

/-- Check 0x0A of the location of D: HBM, or the aperture of an assigned plot. -/
def Desc.dPlaced (d : Desc) (plots : List Nat) : Bool :=
  decide (d.d.base < 2 ^ 41) || (inAperture (d.d.base : Int) && plots.contains ((d.d.base - apertureBase) / 2 ^ 23))

/-- Check 0x05. -/
def Desc.shapeOk (d : Desc) : Bool :=
  decide (d.k ≤ kLimit (pairClass d.aFmt d.bFmt)) && (d.bsCode ≠ 2 || d.k % 64 = 0)
    && decide ((if d.pair then 2 else 1) * (d.m * d.n) ≤ 32768)

/-- Check 0x07 against the part sizes of one slice. -/
def Desc.partsFit (d : Desc) (size : Nat → Nat) : Bool :=
  if d.kind = 1 then decide (d.totalBytes 0 ≤ size d.slotA)
  else if d.kind = 2 then decide (d.totalBytes 3 ≤ size d.slotD)
  else
    (decide (d.totalBytes 0 ≤ size d.slotA) && decide (d.totalBytes 1 ≤ size d.slotB)
      && (d.accInit ≠ 1 || decide (d.totalBytes 2 ≤ size d.slotC)) && decide (d.totalBytes 3 ≤ size d.slotD)
      && (!d.levels.any (·.reduce) || decide (d.partialBytes ≤ size d.slotP)))

/-- Check 0x0B. -/
def boundOk (b : Nat) : Bool := decide (1 ≤ b) && decide (b ≤ 2 ^ 24)

/-- Check 0x0C. -/
def Desc.tilesOk (d : Desc) : Bool := d.commitMode ≠ 0 || decide (d.tiles ≤ 2 ^ 20)

/-- The checks that a run's opening repeats, on the resolved descriptor (R101): the code of the first that fails. `sizes` gives the part
sizes of every participating slice. -/
def Desc.openFault (d : Desc) (plots : List Nat) (sizes : List (Nat → Nat)) : Option Nat :=
  if d.kind = 0 && d.shapeFromParam && !d.shapeOk then some 0x05
  else if d.shapeFromParam && !sizes.all (fun f => d.partsFit f) then some 0x07
  else if !d.usedOps.all (fun op => !(d.operand op).fromParam || d.opAligned op) then some 0x09
  else if d.usedOps.contains 3 && d.d.fromParam && !d.dPlaced plots then some 0x0A
  else if !d.levels.all (fun l => !l.fromParam || boundOk l.bound) then some 0x0B
  else if d.levels.any (fun l => l.fromParam && !l.reduce) && !d.tilesOk then some 0x0C
  else none

/-! ## Parts of a run -/

def runOf (s : State) (f k : Nat) : Run := Tab.get (fieldOf s f).runs k Run.empty
def updRun (f k : Nat) (g : Run → Run) : State → State := updField f (fun v => { v with runs := Tab.upd v.runs k Run.empty g })

def descOf (s : State) (p d : Nat) : Option Desc := Tab.find (plotOf s p).descs d

def workOf (s : State) (p i d : Nat) : Work := Tab.get (sliceOf s p i).work d Work.empty
def updWork (p i d : Nat) (g : Work → Work) : State → State :=
  updSlice p i (fun sl => { sl with work := Tab.upd sl.work d Work.empty g })

/-- The open run of a descriptor in which a plot takes part, and the descriptor as it opened. -/
def joinedRun (s : State) (p d : Nat) : Option (Run × Desc) :=
  match descOf s p d with
  | none => none
  | some dd =>
    let r := runOf s (fieldOfPlot p) dd.runId
    if r.isOpen && r.desc = d && r.joined.contains p then some (r, dd.resolve r.params) else none

/-- TILE_REPLAY (R345, R418): run, epoch, tile index, cause. -/
def noteReplay (p i : Nat) (r : Run) (dd : Desc) (tile cause : Nat) (s : State) : State :=
  record ((ev 0x0101 2 [(16, dd.runId), (16, r.epoch), (32, tile), (8, cause)]).atSlice p i)
    (mapJob (fun j => { j with tileReplays := satInc 32 j.tileReplays }) s)

/-! ## The walk of a slice over its issues (R90, R92, R418) -/

/-- Issues of the work items that a slice has taken. -/
def Work.total (w : Work) (per : Nat) : Nat := (w.ranges.foldl (fun n r => n + r.2) 0) * per

/-- Issues that a slice has still to start. -/
def Work.remaining (w : Work) (dd : Desc) : Nat := w.total dd.perItem - w.issue + w.redo.length

/-- The place of the nest of an issue number. -/
def Work.place (w : Work) (dd : Desc) (n : Nat) : Option Nat := placeOf dd.perItem w.ranges n

/-- The output tile of an issue number. -/
def Work.tileOf (w : Work) (dd : Desc) (n : Nat) : Option Nat := (w.place dd n).map (· / dd.steps)

/-- The first issue number from `n` whose tile is not stepped over. -/
def stepOver (dd : Desc) (w : Work) (fuel n : Nat) : Nat :=
  match fuel with
  | 0 => n
  | k + 1 => match w.tileOf dd n with
    | none => n
    | some t => if w.skipped.contains t then stepOver dd w k (n + 1) else n

/-- Does the walk stand inside a reduction? -/
def Work.midTile (w : Work) (dd : Desc) : Bool :=
  match w.place dd w.issue with
  | none => false
  | some q => q % dd.steps ≠ 0

/-- Does a number that is to be issued again go before the walk? A tile that starts again from step 0 waits for the end of a reduction that the walk
has begun, since both use the partial slot (log entry 112). -/
def Work.redoFirst (w : Work) (dd : Desc) : Bool :=
  match w.redo with
  | [] => false
  | n :: _ => !w.midTile dd || (match w.place dd n with
    | none => false
    | some q => q % dd.steps ≠ 0)

/-- The number of the next issue. -/
def Work.next (w : Work) (dd : Desc) : Nat := if w.redoFirst dd then w.redo.headD w.issue else w.issue

/-- The walk after an issue has started. -/
def Work.advance (w : Work) (dd : Desc) (n : Nat) : Work :=
  if w.redo.contains n then { w with redo := w.redo.filter (· ≠ n) } else { w with issue := stepOver dd w (w.total dd.perItem - n) (n + 1) }

/-- The next `k` issues: number and place. -/
def Work.upcoming (dd : Desc) (k : Nat) (w : Work) : List (Nat × Nat) :=
  match k with
  | 0 => []
  | k + 1 => match w.place dd (w.next dd) with
    | none => []
    | some q => (w.next dd, q) :: (w.advance dd (w.next dd)).upcoming dd k

/-- A number in its place of an ascending list. -/
def insertNum (n : Nat) (l : List Nat) : List Nat :=
  match l with
  | [] => [n]
  | a :: r => if n < a then n :: a :: r else if n = a then a :: r else a :: insertNum n r

/-- Issues of a tile, in ascending order, to be made again (R418): the walk goes back where it stands in that tile, else they go on the list. -/
def Work.replay (w : Work) (dd : Desc) (tile : Nat) (l : List Nat) : Work :=
  if w.tileOf dd w.issue = some tile then { w with issue := l.headD w.issue } else { w with redo := l.foldl (fun r n => insertNum n r) w.redo }

/-- The failures of a tile. -/
def Work.failsOf (w : Work) (tile : Nat) : TileFail := Tab.get w.fails tile TileFail.none

/-- One more failure of a tile, at an issue number, with its event and its cause. -/
def Work.noteFail (w : Work) (tile n code cause : Nat) : Work :=
  { w with fails := Tab.upd w.fails tile TileFail.none (fun f => ⟨f.count + 1, code, cause, n, true, f.slid⟩) }

/-- The tiles that have failed meet a slide (R420). -/
def Work.slide (w : Work) : Work := { w with fails := Tab.mapVals w.fails (fun _ f => { f with slid := true }) }

/-- The first issue among those to come that needs the fill number `done` of an operand: consecutive issues that read A or B at one address share
a fill (R92); C is read by step 0 alone. -/
def Desc.fillSite (dd : Desc) (op : Nat) (prev : Option Int) (done : Nat) (l : List (Nat × Nat)) : Option (Nat × Nat) :=
  match l with
  | [] => none
  | (n, q) :: r =>
    if (if op = 2 then decide (q % dd.steps ≠ 0) else decide (prev = some (dd.addr op q))) then dd.fillSite op prev done r
    else match done with
      | 0 => some (n, q)
      | k + 1 => dd.fillSite op (if op = 2 then prev else some (dd.addr op q)) k r

/-- Fills of an operand in place or on their way. -/
def Work.fillsOf (w : Work) (op : Nat) : List FillRec := w.fills.filter (fun e => e.operand = op)

/-- Tiles of a slice that wait for a new core: they have failed twice on the old one (R420). They are replayed when the core or the position has
changed (R422, R425), unless their run no longer issues. -/
def replayWaiting (p i : Nat) (works : Tab Work) (s : State) : State :=
  forEach works (fun e s =>
    match joinedRun s p e.1 with
    | none => s
    | some (r, dd) =>
      if s.job.issueStopped || r.halted then s
      else forEach (e.2.fails.filter (fun f => decide (2 ≤ f.2.count) && f.2.pending && !f.2.slid)) (fun f => noteReplay p i r dd f.1 f.2.cause) s) s

end Sys2Proof.Machine
end

