-- ==== Sys2Proof/Machine/Job.lean ====
section
/-! DEFINITION. What happens to the job as a whole: drain (R100, R150), job faults (R433), unload (R76, R330), and the teardown of
everything that belongs to a session (R374, R485). -/

namespace Sys2Proof.Machine

open Sys2Proof

/-! ## Drain (R75, R100, R150) -/

/-- A plot stops its issue: slot stalls are abandoned (R75), a switch that waits at the barrier is cancelled and the array waits at the
barrier for the drain (R150). -/
def Plot.beginDrain (pl : Plot) : Plot :=
  { pl with
    slices := Tab.mapVals pl.slices (fun _ sl => { sl with stalls := [] })
    arr := if pl.arr.active.isSome && !pl.arr.stopped then { pl.arr with draining := true, switchTo := none, flushed := false } else pl.arr }

/-- Issue stops in every plot, and the module enters DRAINING (R100, R321). -/
def beginDrain (cause : Nat) (s : State) : State :=
  if s.ctl.mode = .running then
    setMode .draining cause
      (mapPlots (fun t => Tab.mapVals t (fun _ pl => if pl.assigned then pl.beginDrain else pl))
        (mapJob (fun j => { j with issueStopped := true }) s))
  else s

/-- A plot is quiet: no remap of it runs or waits, which it joins the drain after (R435), nothing issued, no transfer, commit, request or message of it
outstanding, its array stopped (R100). -/
def plotQuiet (s : State) (p : Nat) : Bool :=
  let pl := plotOf s p
  let f := fieldOf s (fieldOfPlot p)
  pl.fencedBy = 0 && (List.range 16).all (fun i => !coreDue s p i) &&
  pl.slices.all (fun e => e.2.issue.isNone && e.2.ahead.isNone && e.2.confirm.isNone) &&
    (pl.arr.active.isNone || pl.arr.stopped) &&
    !f.transfers.any (fun e => e.2.plot = p) && !f.commits.any (fun e => e.2.plot = p)

/-- Every assigned plot is quiet and every run has closed (R99, R100). -/
def jobQuiet (s : State) : Bool :=
  s.job.plots.all (plotQuiet s) && s.flds.all (fun e => e.2.runs.all (fun r => !r.2.isOpen))

/-! ## Queues (R169) -/

/-- Entries that a message or a pad occupies. -/
def QMsg.entries (m : QMsg) : Nat := m.len

/-- A queue closes: what it holds is discarded and counted in entries (R169), pads with the entries that they cover, a remote message with its whole length once its FIRST
entry has arrived and with none before (log entry 126, DESIGN CHOICE). -/
def Queue.close (q : Queue) : Queue :=
  if q.isOpen then
    { q with
      isOpen := false
      msgs := []
      discarded := (q.msgs.map QMsg.entries).foldl (fun a b => satAdd 16 a b) q.discarded }
  else q

/-! ## Job faults (R433) -/

/-- A job fault: JOB_FAULT with the causing event's code and the cause; the first since `job.start` is kept for `job.status`; a
RUNNING job drains. In LOADED there is nothing to drain (R23, R427; log entry 66). -/
def jobFault (cause code : Nat) (s : State) : State :=
  if s.ctl.mode = .running || s.ctl.mode = .draining || s.ctl.mode = .loaded then
    let s1 := record (ev 0x0112 3 [(16, code), (16, cause)]) s
    let s2 := if s1.job.faulted then s1
      else mapJob (fun j => { j with faulted := true, faultCause := cause, faultEvent := code, faultTime := s1.ctl.localTime }) s1
    beginDrain 0x0112 s2
  else s

/-- A job-fault event of R345 with its job fault (cause EVENT). -/
def faultEvent (e : EventRec) (s : State) : State := jobFault 0x01 e.code (record e s)

/-! ## Section faults (R123, R146, R147) -/

/-- Every function unit of a plot stops (R123). -/
def stopArray (p : Nat) : State → State :=
  updArr p (fun a => { a with stopped := true, faulted := true, switchTo := none, draining := false, flushed := false })

/-- A section fault, of a kind 1 starvation, 2 strict residual, 3 strict drain limit, 4 strict stale token, 5 compute fault, 6 load into
the active store slot (log entry 9): the event, every unit stopped, a job fault. -/
def sectionFault (kind p i pos node : Nat) (s : State) : State :=
  let a := (plotOf s p).arr
  if a.faulted then s
  else faultEvent ((ev 0x0107 3 [(16, a.activeNum.getD 0), (16, a.epoch.toNat), (8, kind), (8, pos), (8, node)]).atSlice p i) (stopArray p s)

/-- A stale token dropped and counted (R146), under STRICT a section fault (R147). -/
def noteStale (p : Nat) (s : State) : State :=
  let s1 := updArr p (fun a => { a with stale := satInc 64 a.stale }) s
  match activeSection s p with
  | some sec => if sec.strict then sectionFault 4 p 0 0 0 s1 else s1
  | none => s1

/-- An operation of a node completes: its firing counts for retirement and its completion token goes out (R138); of an epoch that has
passed, the token arrives stale (R146). -/
def completeNode (p key : Nat) (tag : BitVec 16) (epoch : U16) (s : State) : State :=
  match activeSection s p with
  | none => noteStale p s
  | some sec =>
    if epoch ≠ (plotOf s p).arr.epoch then noteStale p s
    else match Tab.find sec.nodes key with
      | none => s
      | some nd => updArr p (fun a => (a.retire sec nd tag).emit sec key nd.dests (nd.resultTag tag) doneLanes) s

/-! ## Channels (R154 to R176) -/

/-- Ring size of the reader's queue (R154, R156). -/
def Channel.ring (c : Channel) : Nat := if c.destType = 0 || c.destType = 2 then 32 else c.pqSize

/-- An outbound channel: types 2 and 3. -/
def Channel.outbound (c : Channel) : Bool := decide (2 ≤ c.destType)

/-- The queue of a channel: the reader's, or the shadow of it at a writing module (R167). -/
def chanQueue (s : State) (c : Nat) (ch : Channel) : Queue :=
  match ch.destType with
  | 0 => Tab.get (sliceOf s ch.readerPlot ch.readerSlice).queues ch.readerQueue Queue.empty
  | 1 => Tab.get (plotOf s ch.readerPlot).queues ch.readerQueue Queue.empty
  | _ => (chanOf s c).shadow

def updChanQueue (c : Nat) (ch : Channel) (f : Queue → Queue) (s : State) : State :=
  match ch.destType with
  | 0 => updSlice ch.readerPlot ch.readerSlice (fun sl => { sl with queues := Tab.upd sl.queues ch.readerQueue Queue.empty f }) s
  | 1 => updPlot ch.readerPlot (fun pl => { pl with queues := Tab.upd pl.queues ch.readerQueue Queue.empty f }) s
  | _ => updChan c (fun v => { v with shadow := f v.shadow }) s

/-- Arithmetic clock cycles of a plot since a moment (R175). -/
def cyclesSince (s : State) (p : Nat) (t : U64) : Nat := (s.ctl.localTime - t).toNat * fieldMhz s (fieldOfPlot p) / 25

/-- A message to a closed queue is dropped and counted (R170). -/
def countDrop (c : Nat) (ch : Channel) : State → State := updChanQueue c ch (fun q => { q with closedDrop := satInc 32 q.closedDrop })

/-- A waiter leaves: the cycles it waited are counted, and a node's completion token goes out (R138, R170, R175). -/
def endWait (c : Nat) (ch : Channel) (w : Waiter) (s : State) : State :=
  let s1 := updChanQueue c ch (fun q => { q with stallCycles := satAdd 64 q.stallCycles (cyclesSince s w.plot w.since) }) s
  let s2 := updChan c (fun v => { v with waiters := v.waiters.erase w }) s1
  match w.node with
  | none => s2
  | some k => completeNode w.plot k w.tag w.epoch s2

/-- Writers stop waiting, their messages dropped and counted (R170). -/
def dropWaiters (c : Nat) (ch : Channel) (s : State) : State :=
  forEach (chanOf s c).waiters (fun w s => countDrop c ch (endWait c ch w s)) s

/-- A channel report to the module at the other end (R167, R275), protected as R367 gives: channel of the reading module, kind, ring
size, `MAX_LEN_M1`, head (log entry 13). -/
def sendReport (kind channel peer ring maxLenM1 head : Nat) (s : State) : State :=
  let n := nextNonce (reportCounter channel) s
  sendPkt 0 ⟨0x11, 1, false, false, 0, 0, 0, 0, false, n.1, s.mesh.addr.getD 0#16, BitVec.ofNat 16 peer, 63, 0, some s.job.jobKey,
    lay [(1, channel), (1, kind), (2, ring), (1, maxLenM1), (2, head)]⟩ n.2

/-- The report of a channel's reader, about its queue (R167). -/
def reportQueue (kind c : Nat) (ch : Channel) (s : State) : State :=
  sendReport kind c ch.peerMesh ch.ring (ch.maxLen - 1) (chanQueue s c ch).head s

/-- The queue of a local channel closes (R169): waiting writers end (R170); a remote writer is told by a close report. -/
def closeChannel (c : Nat) (ch : Channel) (s : State) : State :=
  if (chanQueue s c ch).isOpen then
    let s1 := dropWaiters c ch (updChanQueue c ch Queue.close s)
    if ch.remoteIn then reportQueue 2 c ch s1 else s1
  else s

/-- Every queue that a plot reads closes. -/
def closeReader (p : Nat) (s : State) : State :=
  forEach (s.job.channels.filter (fun e => !e.2.outbound && e.2.readerPlot = p)) (fun e => closeChannel e.1 e.2) s

/-- An outbound channel whose pairing ended waits for the next open report (R167, R169). -/
def ChanState.unpair (v : ChanState) : ChanState := if v.pairing = 2 then { v with pairing := 0 } else v

/-- DRAINING ends when every plot is quiet: the queues of the reader plots close and the module enters LOADED (R169, R321). -/
def execDrainComplete (s : State) : Host.Outcome State Fault Refusal :=
  .next (if s.ctl.mode = .draining && jobQuiet s then
    setMode .loaded 0 (mapChans (fun t => Tab.mapVals t (fun _ v => v.unpair)) (forEach s.job.plots closeReader s))
  else s)

/-! ## Unload (R76, R330, R367) -/

/-- A run entry of no job, or at a job's start: closed, its counts 0, its epoch kept, so that its next run opens with a new one (R98,
R100, R104, R325). -/
def Run.startJob (r : Run) : Run := { Run.empty with epoch := r.epoch }

/-- A plot that no image assigns any longer keeps the slack measured since the start (R449); all else of it goes. -/
def Plot.unload (pl : Plot) : Plot := { Plot.empty with slackPs := pl.slackPs, slackMin := pl.slackMin }

/-- Aperture windows close when their image is unloaded; they keep their keys (R297). -/
def closeApertures : State → State :=
  mapMesh (fun m => { m with windows := Tab.mapVals m.windows (fun _ w => if w.aperture then { w with closed := true } else w) })

/-- The fences at the head of a field's list that move nothing take effect, and the first one of a plot begins its remap: the plot's position is held
(R190, R425 step 2). -/
def beginRemaps (f : Nat) (l : List FenceDue) (s : State) : State :=
  match l with
  | .position pos :: r => beginRemaps f r (watchDegraded (fencePosition f pos) (updField f (fun v => { v with fenceDue := r }) s))
  | .plot p :: _ => setHold f [plotPosition s p] s
  | _ => s

def beginRemap (f : Nat) (s : State) : State := beginRemaps f (fieldOf s f).fenceDue s

/-- Everything of the loaded image removed: plots with their zeroed and gated banks, queues and channels, runs and work of every
field, image windows with their keys, remote requests, the `ASSIGNED` and `PINNED` marks, and the job key. A plot whose fence waits for its remap is
then unassigned, and its position becomes FENCED (R442). -/
def dropJob (s : State) : State :=
  if s.job.loaded then
    let plots := s.job.plots
    let s1 := closeApertures (freeWindowsWhere (fun w => w.byImage) s)
    let s2 := mapPlots (fun t => Tab.mapVals t (fun p pl => if plots.contains p then pl.unload else pl)) s1
    let s3 := mapFlds (fun t => Tab.mapVals t (fun _ f => { f with
        runs := Tab.mapVals f.runs (fun _ r => r.startJob), commits := [], poolCounters := [], transfers := [], trackerQueue := [], copies := []
        fenceDue := f.fenceDue.filter (fun d => match d with
          | .plot _ => false
          | .core _ _ _ => true
          | .position _ => true)
        requests := Tab.mapVals (f.requests.filter (fun e => match e.2.dest with
          | .window _ _ => true
          | _ => false)) (fun _ q => { q with held := 0 }) })) s2
    let s4 := mapGrid (fun t => Tab.mapVals t (fun _ g => { g with hold := [], pools := [], stalled := [] })) <| mapMesh (fun m => { m with remote := [], replays := m.replays.filter (fun r => decide (r.window < 4096)) }) s3
    let s5 := forEach (plots.filter (fun p => (plotOf s p).fencedBy ≠ 0)) (fun p =>
      watchDegraded (fencePosition (fieldOfPlot p) ((fieldOf s (fieldOfPlot p)).entry (p % 64)).position)) s4
    mapJob (fun _ => Job.empty) (mapChans (fun _ => []) (forEach (List.range 8) beginRemap s5))
  else s

/-- `job.unload` from LOADED: READY (R321). -/
def unloadJob (cause : Nat) (s : State) : State := setMode .ready cause (dropJob s)

/-! ## Sessions (R365, R374, R485) -/

/-- SESSION_CHANGE: session, mailbox, principal kind, opened or closed. -/
def noteSession (id : Nat) (e : Session) (opened : Bool) (s : State) : State :=
  record { (ev 0x0401 6 [(8, id), (8, e.mailbox), (8, e.kind), (8, flag opened)]).atHub with who := some e.principal } s

/-- Steps 2 to 6 of R374 on a state in which the session's job, if it has one, is quiet: unload, windows, non-resident regions, keys,
SESSION_CHANGE. -/
def endSession (id : Nat) (s : State) : State :=
  match Tab.find s.gateh.sessions id with
  | none => s
  | some e =>
    let s1 := if s.job.loaded && s.job.session = id then
        (if s.ctl.mode = .loaded then unloadJob 0x0201 s else dropJob s) else s
    let s2 := freeWindowsWhere (fun w => w.session = id) s1
    let s3 := teardownAll (regionsWhere s2 (fun r => r.session = id && !r.resident)) s2
    noteSession id e false (mapGate (fun g => { g with sessions := Tab.erase g.sessions id }) s3)

/-- Every session that meets a condition ends. -/
def endSessions (p : Session → Bool) (s : State) : State :=
  forEach ((s.gateh.sessions.filter (fun e => p e.2)).map (·.1)) endSession s

/-- Sessions that end at once with their keys, when the module as a whole leaves service (R365): what they defined is torn down by the
residency procedure or lost with the power. -/
def dropSessions (s : State) : State :=
  forEach (s.gateh.sessions) (fun e s => noteSession e.1 e.2 false s) (mapGate (fun g => { g with sessions := [], handshakes := [] }) s)

end Sys2Proof.Machine
end

