-- ==== Sys2Proof/Machine/Start.lean ====
section
/-! DEFINITION. Power, LODGE, the start sequence and SEALED (R240, R241, R321, R349 to R351, R365, R371, R377, R384 to R399,
R454, R472, R473, R477, R479). -/

namespace Sys2Proof.Machine

open Sys2Proof

/-! ## Limits taken from identity records (R390, R391, R458) -/

/-- Ceiling C: cold plate and OTP, never below 1,500 W; 1,500 W without a valid cold plate record. -/
def ceilingOf (s : State) : Nat :=
  match idRecord s 1 with
  | none => 1500
  | some b => max 1500 (min (numAt b 0x20 2) (otpValue s 5))

/-- Sum of `STAGE_MAX_W` over the valid power stage records. -/
def stageSum (s : State) : Nat :=
  (rangeFrom 2 4).foldl (fun n i => n + match idRecord s i with
    | none => 0
    | some b => numAt b 0x22 2) 0

/-- Supply cap S (R458). -/
def supplyCapOf (s : State) : Nat :=
  match idRecord s 0 with
  | none => stageSum s
  | some b => min (numAt b 0x24 2) (stageSum s)

/-- The limit at entry to BOOT (R391). -/
def startLimit (s : State) : Nat := max 1500 (min 4000 (min (ceilingOf s) (supplyCapOf s)))

/-- Limit in force (R458). -/
def limitInForce (s : State) : Nat := max 1500 (min s.pwr.limitSet s.pwr.supplyCap)

/-! ## Standby residency (R240, R241) -/

/-- HBM contents lost with the power: no data, no map bit, only resident regions left to be reported (R241). -/
def loseHbm (s : State) : State :=
  let s1 := mapHbm (fun h => { h with
    data := [], parity := [], poison := [], written := [], filling := [], stks := [], saves := none, regions := h.regions.filter (fun e => e.2.resident) }) s
  let s2 := mapGate (fun g => { g with keySlots := g.keySlots.filter (fun e => (Tab.find g.residency e.1).isSome) }) s1
  mapFlash (fun fl => { fl with residencyDigest := none }) s2

/-- The digest of all map slices and remap tables (R240). -/
def MapSave.digest (v : MapSave) : Digest :=
  Config.mapDigest v.written (v.pages.map (fun e => (e.1.pc, e.1.number, e.2))) (v.banks.map (fun b => (b.pc, b.number)))

/-- The residency procedure: every region that is not resident is torn down, each controller saves its map slice and remap table, their digest is
written, the stacks enter self-refresh and scrub pauses (R230, R240). -/
def residency (s : State) : State :=
  let s1 := teardownAll (regionsWhere s (fun r => !r.resident)) s
  let v : MapSave := ⟨s1.hbm.written, s1.hbm.pages, s1.hbm.banks⟩
  mapFlash (fun fl => { fl with residencyDigest := some v.digest })
    (mapHbm (fun h => { h with stks := [], written := [], saves := some v, pausedAt := some s.ctl.localTime }) s1)

/-- Every region torn down, resident ones included, before HBM powers down (R324 `RETAIN` 0). -/
def removeRegions (s : State) : State :=
  mapFlash (fun fl => { fl with residencyDigest := none }) (teardownAll (regionsWhere s (fun _ => true)) s)

/-! ## Entry to LODGE -/

/-- What every entry to LODGE ends: the job, the sessions, the mesh, the ports, plots and their clocks, field tests. -/
def powerDown (s : State) : State :=
  let s1 := dropJob (mapMesh (fun m => { m with windows := [] }) s)
  let s2 := mapPlots (fun _ => []) (mapMesh (fun _ => Mesh.empty) (mapLinks (fun _ => []) s1))
  mapCtl (fun c => { c with wakeKept := false })
    (mapTest (fun t => { t with relays := [], level := 0, retain := false, pairs := [] })
      (mapFlds (fun t => Tab.mapVals t (fun _ f => { f with requests := [], cores := [], runs := [] })) s2))

/-- An orderly entry to LODGE, with resident regions in self-refresh or HBM powered down (R240, R324). -/
def lodgeOrderly (retain : Bool) (cause : Nat) (s : State) : State :=
  let s1 := dropSessions (if retain then residency s else removeRegions s)
  setMode .lodge cause (powerDown s1)

/-- Entry to LODGE by a loss of main power or the thermal trip: nothing of HBM survives (R241, R472). -/
def lodgeLoss (cause : Nat) (s : State) : State :=
  if s.ctl.mode = .lodge then loseHbm s else setMode .lodge cause (powerDown (dropSessions (loseHbm s)))

/-! ## Entry to BOOT -/

/-- BOOT begins: the event index starts again when LODGE is left (R347), a kept thermal trip is copied to the flash summary (R463),
every session ends (R365), JTAG locks and its TAP resets (R380, R479), the UART is disabled (R381); the module has no address and no trained port (R256,
R273). -/
def enterBoot (cause : Nat) (s : State) : State :=
  let fromLodge := decide (s.ctl.mode = .lodge)
  let s1 := if fromLodge then mapEvt (fun v => { v with ring := [], next := 0 }) s else s
  let s2 := match s1.ctl.tripPending with
    | none => s1
    | some e => mapCtl (fun c => { c with tripPending := none }) (mapFlash (fun fl => fl.keep e) s1)
  let s3 := mapLinks (fun _ => []) (mapMesh (fun _ => Mesh.empty) (endSessions (fun _ => true) s2))
  let s4 := mapGate (fun g => { g with debugUnlocked := false, jtagOpen := false, uart := false, handshakes := [] }) s3
  setMode .boot cause
    (mapCtl (fun c => { c with wakeKept := false, bootStart := s.ctl.localTime, bootFromLodge := fromLodge, jtagIr := 0x01#8 }) s4)

/-- May BOOT begin: POWER_GOOD and no RESET (R385)? -/
def powered (s : State) : Bool := s.pins.auxOn && s.pins.powerGood && s.pins.resetN

/-- A rise of POWER_GOOD, or the release of RESET that counts as one (R385). -/
def powerRise (s : State) : State :=
  if powered s && s.ctl.mode = .lodge && (s.ctl.wakeKept || otpValue s 6 = 1) then
    enterBoot (if s.ctl.wakeKept then 0x0102 else 0) s
  else s

/-! ## SEALED (R377) -/

/-- Entry to SEALED with a cause: plots stop and the image goes without drain, fleet-operator and tenant sessions end, the residency
procedure runs where the stacks are up, slot keys leave the gatehouse, the seal count advances. -/
def sealModule (cause : Nat) (s : State) : State :=
  if s.ctl.mode = .lodge || s.ctl.mode = .sealed then s
  else
    let s1 := record (ev 0x0405 6 [(8, cause)]).atHub s
    let s2 := endSessions (fun e => e.kind ≠ 0) (dropJob s1)
    let s3 := if s.ctl.mode = .boot then s2 else residency s2
    let s4 := mapGate (fun g => { g with keySlots := [], sealCause := cause }) s3
    let s5 := mapFlash (fun fl => { fl with sealCount := (fl.sealCount + 1) % 2 ^ 32 })
      (mapTest (fun t => { t with level := 0, retain := false, pairs := [] }) s4)
    setMode .sealed (if cause = 2 then 0x0205 else 0x0405) s5

def execEntropyHealthFail (s : State) : Host.Outcome State Fault Refusal := .next (sealModule 3 s)
def execKeyStoreFail (s : State) : Host.Outcome State Fault Refusal := .next (sealModule 4 s)

/-! ## Pins -/

def execPowerGoodRise (s : State) : Host.Outcome State Fault Refusal :=
  .next (if s.pins.powerGood then s else powerRise (mapPins (fun p => { p with powerGood := true }) s))

/-- POWER_GOOD falls: every field stops and the module enters LODGE (R472); in LODGE the self-refreshed contents go (R471). -/
def execPowerGoodLoss (s : State) : Host.Outcome State Fault Refusal :=
  .next (if s.pins.powerGood then lodgeLoss 0 (mapPins (fun p => { p with powerGood := false }) s) else s)

/-- RESET_N low is a loss of POWER_GOOD (R385). -/
def execResetAssert (s : State) : Host.Outcome State Fault Refusal :=
  .next (if s.pins.resetN then lodgeLoss 0 (mapPins (fun p => { p with resetN := false }) s) else s)

def execResetRelease (s : State) : Host.Outcome State Fault Refusal :=
  .next (if s.pins.resetN then s else powerRise (mapPins (fun p => { p with resetN := true }) s))

/-- What outlives the auxiliary rail: OTP, flash, the resident regions that the next start reports (R241), their key slots. -/
def withoutRail (s : State) : State :=
  let l := loseHbm s
  { State.reset with
    pending := s.pending
    pins := { s.pins with auxOn := false }
    otp := s.otp
    flash := l.flash
    gateh := { Gate.empty with keySlots := l.gateh.keySlots, residency := l.gateh.residency }
    hbm := l.hbm
    free := s.free }

/-- AUX_3V3 is removed: the whole module is off (R473). -/
def execAuxRailRemoved (s : State) : Host.Outcome State Fault Refusal :=
  .next (if s.pins.auxOn then withoutRail s else s)

/-- AUX_3V3 comes up: LODGE, the local time counter from zero, every identity memory read (R299, R384, R389). -/
def execAuxRailApplied (ids : IdAnswers) (s : State) : Host.Outcome State Fault Refusal :=
  .next (if s.pins.auxOn then s
    else
      let s1 := mapCtl (fun c => { c with ids := readIds ids }) (mapPins (fun p => { p with auxOn := true }) (withoutRail s))
      powerRise s1)

/-! ## The start sequence (R393) -/

/-- The kinds valid in neither copy of the signed record area: the others are taken from a valid copy, from which the other is rewritten (R399). -/
def absentKinds (env : BootEnv) : List Nat := env.badA.filter env.badB.contains

/-- Records that are valid in neither copy count as absent (R399): those of kind 3 stand for a field each, those of kind 5 for a stack each. -/
def dropRecords (env : BootEnv) (fl : Flash) : Flash :=
  let gone := fun k => (absentKinds env).contains k
  { fl with
    testRecord := if gone 1 then none else fl.testRecord
    startCount := if gone 2 then 0 else fl.startCount
    soft := if gone 3 then [] else fl.soft.filter (fun e => !env.softBad.contains e.1)
    portSettings := if gone 4 then [] else fl.portSettings
    hbmSettings := if gone 5 then [] else fl.hbmSettings.filter (fun k => !env.hbmBad.contains k)
    retiredPages := if gone 6 then [] else fl.retiredPages
    retiredBanks := if gone 6 then [] else fl.retiredBanks
    spent := if gone 6 then [] else fl.spent
    repairs := if gone 7 then [] else fl.repairs
    repairedRows := if gone 7 then [] else fl.repairedRows
    failedRows := if gone 7 then [] else fl.failedRows
    pendingClears := if gone 8 then [] else fl.pendingClears
    destructions := if gone 9 then [] else fl.destructions
    destroyStore := fl.destroyStore && !gone 9
    residencyDigest := if gone 0xA then none else fl.residencyDigest
    s0Gen := if gone 0xB then 0 else fl.s0Gen
    sealCount := if gone 0xB then 0 else fl.sealCount
    unlockCount := if gone 0xB then 0 else fl.unlockCount
    ticketEpoch := if gone 0xB then 0 else fl.ticketEpoch
    forbidDrop := if gone 0xC then 0#16 else fl.forbidDrop
    savedGroup := if gone 0xD then none else fl.savedGroup
    certs := fl.certs && !gone 0xE
    sumCounts := if gone 0xF then [] else fl.sumCounts
    sumKept := if gone 0xF then [] else fl.sumKept }

/-- The lowest reason that makes this start cold, or 0 for a fast start (R395, R398). -/
def coldReasonOf (s : State) (fw : FwImage) (env : BootEnv) : Nat :=
  match s.flash.testRecord with
  | none => 1
  | some r =>
    if r.startCount ≠ s.flash.startCount then 1
    else if r.level = 0 || !r.clean then 2
    else if r.identity ≠ identityDigest s then 3
    else if r.fwBuild ≠ fw.build then 4
    else if r.otp ≠ otpDigest s then 5
    else if !(List.range 32).all s.flash.hbmSettings.contains || !env.softBad.isEmpty || (absentKinds env).contains 3 then 6
    else 0

/-- Outstanding destruction records applied before any session opens (R375, R379). -/
def applyDestructions (s : State) : State :=
  let s1 := if s.flash.destroyStore then
      mapGate (fun g => { g with residency := [], keySlots := [] }) (mapHbm (fun h => { h with regions := [] }) s)
    else forEach s.flash.destructions (fun k s =>
      destroySlot k (mapHbm (fun h => { h with regions := h.regions.filter (fun e => e.2.keySlot ≠ k) }) s)) s
  mapFlash (fun fl => { fl with destructions := [], destroyStore := false }) s1

/-- A soft repair entry written when it occurs, once per location (R409). -/
def addSoft (f : Nat) (loc : SoftLoc) (origin : Nat) (s : State) : State :=
  mapFlash (fun fl =>
    let l := Tab.get fl.soft f []
    if l.any (fun e => e.loc = loc) then fl
    else { fl with soft := Tab.set fl.soft f (l ++ [⟨loc, origin, 0, 0, false, fl.startCount⟩]) }) s

/-- The location of a core. -/
def coreLoc (f col row : Nat) : SoftLoc := ⟨f, 0, col, row, 0, 0⟩

/-- SRAM repairs of a bank: those of the fuse map and of the soft map (R402, R409). -/
def bankRepairs (m : FuseMap) (l : List SoftEntry) (col row bank : Nat) : Nat :=
  (m.repairs.filter (fun w => bits w.toNat 0 15 = col + 64 * row + 2048 * bank)).length
    + (l.filter (fun e => e.loc.kind ≠ 0 && !e.fused && e.loc.col = col && e.loc.row = row && e.loc.bank = bank)).length

/-- The cores that a repair of a memory names, by column and row, from the fuse map and the soft map (R402, R409). -/
def repairedCores (m : FuseMap) (l : List SoftEntry) : List (Nat × Nat × Nat) :=
  m.repairs.map (fun w => (bits w.toNat 0 6, bits w.toNat 6 5, bits w.toNat 11 4))
    ++ (l.filter (fun e => e.loc.kind ≠ 0)).map (fun e => (e.loc.col, e.loc.row, e.loc.bank))

/-- Failed columns of a half-row: the fuse map's, soft core entries, and cores with a bank that needs a third spare column (R402); memory 15 is an unused
entry. -/
def failedCols (m : FuseMap) (l : List SoftEntry) (row : Nat) (east : Bool) : List Nat :=
  let code := Tab.get m.halfRows (2 * row + flag east) 0x1F
  let fused := if code % 32 = 31 then [] else [code % 32 + 17 * flag east]
  let soft := (l.filter (fun e => e.loc.kind = 0 && e.loc.row = row && eastHalf e.loc.col == east)).map (·.loc.col)
  let sram := ((repairedCores m l).filter (fun e => e.2.1 = row && eastHalf e.1 == east && e.2.2 ≠ 15
    && decide (3 ≤ bankRepairs m l e.1 row e.2.2))).map (·.1)
  (fused ++ soft ++ sram).eraseDups

/-- A slide record at boot: one failed core slides, two make the half-row LOST (R187, R409). -/
def bootSlide (m : FuseMap) (l : List SoftEntry) (row : Nat) : SlideRow :=
  let w := failedCols m l row false
  let e := failedCols m l row true
  ⟨(w.head?.map halfCode).getD 31, decide (2 ≤ w.length) || bit (Tab.get m.halfRows (2 * row) 0x1F) 5,
   (e.head?.map halfCode).getD 31, decide (2 ≤ e.length) || bit (Tab.get m.halfRows (2 * row + 1) 0x1F) 5⟩

/-- A field as steps 4 and 5 leave it: maps from fuse and soft repairs, remap table under R24, everything else as at a start. -/
def bootField (s : State) (full : Bool) (f : Nat) : Field :=
  let m := ((fuseForce s f).map (·.2)).getD ⟨[], [], true⟩
  let l := Tab.get s.flash.soft f []
  let slide := ((List.range 32).map (fun r => (r, bootSlide m l r))).filter (fun e => e.2 ≠ SlideRow.clear)
  let lost := lostPositions slide
  { Field.empty with
    slide := slide
    through := (List.range 32).flatMap (fun r => (failedCols m l r false ++ failedCols m l r true).map (fun c => (c, r)))
    remap := mapTable full (fun p => if lost.contains p then 2 else 0) }

/-- Does a field start fenced (R431 causes 1 to 5, 7 and 8)? -/
def bootFence (s : State) (env : BootEnv) (f : Nat) : Option Nat :=
  match env.fieldDead.find? (fun e => e.1 = f && decide (1 ≤ e.2) && decide (e.2 ≤ 5)) with
  | some e => some e.2
  | none =>
    if 256 < (Tab.get s.flash.soft f []).length then some 7
    else match s.flash.testRecord with
      | some r => if r.fieldsFailed.contains f then some 8 else none
      | none => none

/-- A field marked as fenced at boot, with FIELD_FENCE. -/
def fenceAtBoot (full : Bool) (f cause : Nat) (s : State) : State :=
  record ((ev 0x0113 4 [(8, cause)]).atField f) (updField f (fun v => { v with fenced := true, fenceCause := cause }.map full) s)

/-- Fields that a region uses, as a mask. -/
def Region.fieldMask (r : Region) : Nat := maskOf ((List.range 8).filter (fun f => r.usesField f))

/-- A key slot that cannot be restored: its record fails in both copies of the residency store, which lie on stacks 0 and 16 (R351). -/
def slotLost (s : State) (env : BootEnv) (slot : Nat) : Bool :=
  [0, 1].all (fun c => env.badKeySlots.contains (c, slot) || (fieldOf s (4 * c)).fenced)

/-- A resident region at wake (R238 to R241, R351): returned as it was, also a DAMAGED one; without the fields that were fenced and lost their
contents; or DAMAGED as a whole. -/
def wakeRegion (s : State) (env : BootEnv) (whole : Bool) (r : Region) : Region :=
  if !whole || slotLost s env r.keySlot then { r with state := 2, lost := BitVec.ofNat 8 r.fieldMask }
  else
    let old := bitsOf r.lost.toNat 8
    let gone := if r.state = 2 then old else old.filter (fun f => (fieldOf s f).fenced || !env.selfRefresh.contains f)
    let fenced := (List.range 8).filter (fun f => r.usesField f && (fieldOf s f).fenced)
    { r with state := if gone.isEmpty then (if r.state = 2 then 2 else 0) else 2, lost := BitVec.ofNat 8 (maskOf (gone ++ fenced)) }

/-- Do the reloaded map slices match the digest of the signed record area (R240)? -/
def savesMatch (s : State) (env : BootEnv) : Bool :=
  match s.hbm.saves with
  | none => false
  | some v => env.digestOk && s.flash.residencyDigest = some v.digest

/-- Each controller reloads its map slice, or nothing is found in HBM (R240, R241). -/
def reloadMaps (whole : Bool) (s : State) : State :=
  if whole then mapHbm (fun h => { h with written := (h.saves.map (·.written)).getD h.written, saves := none }) s else loseHbm s

/-- When the present pass of a scrub began: it goes on after a pause, but a standby longer than the interval starts a full pass (R230). -/
def resumePass (whole : Bool) (paused : Option U64) (now start : U64) (hours : Nat) : U64 :=
  match paused with
  | none => now
  | some p => if whole && decide ((now - p).toNat ≤ hours * 90000000000) then start + (now - p) else now

/-- Step 7: residency restored or none found, pending clears, `S0_GEN`, the retirement list, the key caches (R226, R228, R235, R237, R240, R241, R349). -/
def restoreHbm (env : BootEnv) (s : State) : State :=
  let whole := savesMatch s env
  let s1 := applyClears (reloadMaps whole s)
  let kept := s1.hbm.regions.filter (fun e => e.2.resident)
  let freed := s1.flash.retiredPages.filter (fun e => s1.flash.repairedRows.any (fun q =>
    let l := memLoc q.2
    l.pcIndex = e.1.pc && e.1.number % 63 = l.bank && e.1.number / 63 = l.row / 4))
  let pages := s1.flash.retiredPages.filter (fun e => !freed.contains e)
  let spent := s1.flash.spent.filter (fun l => !freed.any (fun e => e.1.pc = l.pc && e.2 = l.number))
  let s2 := mapHbm (fun h => { h with
    regions := kept.map (fun e => (e.1, wakeRegion s1 env whole e.2))
    filling := [], stks := [], strongHours := 24, pageHours := 6
    strongFrom := resumePass whole h.pausedAt s.ctl.localTime h.strongFrom h.strongHours
    pageFrom := resumePass whole h.pausedAt s.ctl.localTime h.pageFrom h.pageHours
    pausedAt := none
    pages := pages, banks := s1.flash.retiredBanks, sparesGone := spent }) s1
  let s3 := mapGate (fun g => { g with keySlots := g.residency.filter (fun e => !slotLost s env e.1) }) s2
  loadKeys (mapFlash (fun fl => { fl with
    residencyDigest := none
    retiredPages := pages
    spent := spent
    repairedRows := []
    s0Advance := false
    s0Gen := if (whole && !kept.isEmpty) && !fl.s0Advance then fl.s0Gen else (fl.s0Gen + 1) % 2 ^ 32 }) s3)

/-- A port as TRAIN finds it (R244, R256 step 1, R265): training, or DOWN for its cable or its field. -/
def bootPort (s : State) (i : Nat) : Port :=
  let p := { Port.empty with forbidDrop := bit s.flash.forbidDrop.toNat i, cableAtBoot := (Tab.find s.ctl.ids (7 + i)).isSome }
  if (fieldOf s (i / 2)).fenced then { p with reason := 0xB }
  else match cableFault s i with
    | some r => { p with reason := r }
    | none => { p with pstate := 3, reason := 0, lasers := 0xFF#8 }

/-- Ports enter training; those that cannot are DOWN and recorded (R256, R262). -/
def startPorts (s : State) : State :=
  let s1 := mapLinks (fun _ => (List.range 16).map (fun i => (i, bootPort s i))) s
  forEach ((List.range 16).filter (fun i => (portOf s1 i).pstate = 2)) notePort s1

/-- The power limit at an entry to BOOT, with the clocks as R454 starts them (R391). -/
def startPower (s : State) : State :=
  mapPwr (fun _ => ⟨startLimit s, ceilingOf s, supplyCapOf s, 0, 0, 1, false, false, 2100, 0, 0, 0, [], 0, 0#64, []⟩) s

/-- Settings at a start (R454, R382, R450): cadence, counters, warnings. -/
def startSettings (s : State) : State :=
  let s2 := mapTest (fun _ => ⟨false, (s.flash.pack.map (·.retraction)).getD false, [], 0, false, 0#64, [], 0#64⟩) s
  mapHealth (fun _ => []) (mapGate (fun g => { g with vModule := [], vRegion := [], vWindow := [], sealCause := 0 }) s2)

/-- Steps 2 to 8 of R393 with the selected image, then TRAIN. -/
def bootWith (slot : Nat) (fw : FwImage) (env : BootEnv) (s : State) : State :=
  let s0 := mapFlash (dropRecords env) s
  let reason := coldReasonOf s0 fw env
  let full := decide (otpValue s0 4 = 1)
  let s1 := mapCtl (fun c => { c with
    fwSlot := slot, fwLast := some fw, fastStart := decide (reason = 0), coldReason := reason, policyFull := full, startMs := 0 })
    (mapFlash (fun fl => { fl with startCount := (fl.startCount + 1) % 2 ^ 32 }) s0)
  let s2 := startSettings (applyDestructions s1)
  let s3 := if reason = 0 then s2
    else mapFlash (fun fl => { fl with hbmSettings := List.range 32 }) (forEach env.coreFails (fun e => addSoft e.1 (coreLoc e.1 e.2.1 e.2.2) 1) s2)
  let s4 := mapPlots (fun _ => []) <| mapGrid (fun _ => []) (mapFlds (fun _ => (List.range 8).map (fun f => (f, bootField s3 full f))) s3)
  let s5 := forEach (List.range 8) (fun f s => match bootFence s3 env f with
    | some c => fenceAtBoot full f c s
    | none => s) s4
  let s6 := mapBridges (fun _ => (env.bridgeFails.filter (fun b => decide (b < 10))).foldl (fun t b => Tab.set t b true) []) s5
  let s7 := forEach env.bridgeFails (fun b => record ((ev 0x0302 4 [(8, b), (8, 1)]).atBridge b)) s6
  let s8 := forEach ((List.range 8).filter (fun f => !(fieldOf s7 f).fenced && isolated s7 f))
    (fun f => fenceAtBoot full f 6) s7
  let s9 := restoreHbm env (writeFieldRoutes s8)
  let s10 := forEach (List.range 8) (fun f s => generationWarning f (spareWarning f s)) s9
  settleCheck (startPorts (setMode .train 0 (mapMesh (fun _ => { Mesh.empty with
    hostResult := if (hostAdapterPort s9).isSome then 5 else 0, hostPort := (hostAdapterPort s9).getD 0 }) s10)))

/-- BOOT_SEQUENCE: firmware selected, the record area verified, then the steps to TRAIN; or SEALED (R371, R377, R393). -/
def execBootSequence (env : BootEnv) (s : State) : Host.Outcome State Fault Refusal :=
  .next (if s.ctl.mode ≠ .boot then s
    else
      let s0 := startPower (if s.ctl.bootFromLodge then mapCtl (fun c => { c with ids := readIds env.ids }) s else s)
      match selectFirmware s0 env.slotBad with
      | none => sealModule 1 s0
      | some (slot, fw) =>
        if env.areaBad then sealModule 5 s0 else watchDegraded (bootWith slot fw env) s0)

/-! ## TRAIN to READY -/

/-- Kinds of identity records that are absent or invalid, as START_REPORT lists them: bit k for index group k (R391). -/
def badIdKinds (s : State) : Nat :=
  flag (idRecord s 0).isNone + 2 * flag (idRecord s 1).isNone + 4 * flag ((rangeFrom 2 4).any (fun i => (idRecord s i).isNone))
    + 8 * flag ((rangeFrom 7 16).any (fun i => (idRecord s i).isNone)) + 16 * flag (idRecord s 6).isNone

/-- START_REPORT: fast or cold, reason, kinds absent or invalid, elapsed ms, carrier slot (R345, R390, R391, R394, R398). -/
def startReport (s : State) : State :=
  record (ev 0x0003 0 [(8, flag (reportedFast s)), (8, s.ctl.coldReason), (16, badIdKinds s), (32, s.ctl.startMs),
    (16, ((idRecord s 0).map (fun b => numAt b 0x20 2)).getD 0)]) s

/-- Every port has settled and addressing has ended: READY (R321). -/
def execTrainToReady (s : State) : Host.Outcome State Fault Refusal :=
  .next (if s.ctl.mode = .train && portsSettled s && s.mesh.settled && s.mesh.addressingDone then setMode .ready 0 (startReport s) else s)

/-! ## JTAG (R380, R479) -/

/-- What the port can reach (R380); the gatehouse key store, the OTP root key and the entropy source are never among it. -/
inductive JtagBlock where
  | orulko
  | field (f : Nat)
  | stackController (k : Nat)
  deriving DecidableEq, Repr

/-- The blocks in reach: none while locked, Orulko, the eight fields and the 32 stack controllers once unlocked (R379, R380). -/
def jtagReach (s : State) : List JtagBlock :=
  if s.gateh.jtagOpen then .orulko :: (List.range 8).map .field ++ (List.range 32).map .stackController else []

/-- Does an instruction stand in the instruction register as it was sent? While locked only IDCODE does (R479). -/
def jtagServed (s : State) (ir : Byte) : Bool := ir = 0x01#8 || !(jtagReach s).isEmpty

/-- The register between TDI and TDO (R479, IEEE 1149.1): the 32-bit IDCODE, or the one bit of BYPASS; what other instructions select in the
blocks in reach the spec does not give (log entry 60). -/
def jtagData (s : State) : Option (Nat × Nat) :=
  if s.ctl.jtagIr = 0x01#8 then some (32, 0x1A802D4B) else if s.ctl.jtagIr = 0xFF#8 then some (1, 0) else none

/-- An instruction update: a debugger that drives TRST_N high shifts a code in; IDCODE and BYPASS while locked, where any other code acts as BYPASS. -/
def execJtagInstruction (ir : Byte) (s : State) : Host.Outcome State Fault Refusal :=
  .next (mapCtl (fun c => { c with jtagIr := if jtagServed s ir then ir else 0xFF#8 }) (mapPins (fun p => { p with trstN := true }) s))

/-- TRST_N driven low: the TAP resets to IDCODE (IEEE 1149.1, R475, R479). -/
def execJtagReset (s : State) : Host.Outcome State Fault Refusal :=
  .next (mapCtl (fun c => { c with jtagIr := 0x01#8 }) (mapPins (fun p => { p with trstN := false }) s))

end Sys2Proof.Machine
end

