-- ==== Sys2Proof/Machine/Module.lean ====
section
/-! DEFINITION. Commands of the module as a whole: identity and state (R322, R342), wake, shut-down, restart, firmware (R370), and the
shut-down test (R404 to R412). -/

namespace Sys2Proof.Machine

open Sys2Proof

/-! ## Identity and state -/

/-- `AS8-2T0` and a zero byte (R342). -/
def partCode : Nat := 0x003054322D385341

def stepping : Nat := 0x00B0

/-- The identity record (R342). -/
def identityBytes (s : State) : List Byte :=
  lay [(8, partCode), (2, stepping), (2, if s.ctl.fwLast.isSome then fwSeries else 0), (2, if s.ctl.fwLast.isSome then 0x0201 else 0),
    (2, fwBuild s), (12, serialNat), (2, (s.mesh.addr.getD 0#16).toNat),
    (2, pack [(1, flag s.mesh.addr.isSome), (1, flag s.mesh.root), (1, flag (owned s)), (1, s.ctl.fwSlot), (1, flag s.ctl.policyFull)]),
    (4, fwSecurity s), (4, otpValue s 2), (8, 0)]

def execModuleIdentify (h : Hdr) (s : State) : Host.Outcome State Fault Refusal :=
  .next (request h ⟨0x0100, 0, true, anyKind, allStates, true⟩ (fun s => ok (identityBytes s) s) s)

/-- The state record (R322). -/
def stateBytes (s : State) : List Byte :=
  lay [(1, pack [(4, s.ctl.mode.code), (1, flag (degraded s))]), (1, degCauses s), (2, 0),
    (4, pack [(8, fencedMask s), (1, flag (reportedFast s))]), (8, s.ctl.localTime.toNat)]

/-- An answer on mailbox 0 to `module.state` or `module.wake` ends the ALERT of a thermal trip (R477). -/
def clearTrip (h : Hdr) (c : Cmd) (before after : State) : State :=
  if h.mailbox = 0 && judge h c before ≠ .unserved && judge h c before ≠ .discard then mapCtl (fun v => { v with tripAlert := false }) after
  else after

def cmdModuleState : Cmd := ⟨0x0101, 0, true, anyKind, allStates, true⟩

def execModuleState (h : Hdr) (s : State) : Host.Outcome State Fault Refusal :=
  .next (clearTrip h cmdModuleState s (request h cmdModuleState (fun s => ok (stateBytes s) s) s))

def cmdModuleWake : Cmd := ⟨0x0102, 0, true, [], [.lodge], true⟩

/-- `module.wake`: kept until POWER_GOOD is asserted, else BOOT after the response (R321, R385). -/
def execModuleWake (h : Hdr) (s : State) : Host.Outcome State Fault Refusal :=
  .next (clearTrip h cmdModuleWake s (requestThen h cmdModuleWake
    (fun s => ok [] (mapCtl (fun c => { c with wakeKept := true }) s)) powerRise s))

/-! ## Shut-down and restart -/

/-- The port of the pair that goes last: the host-role port, or the first port towards the root (R405). -/
def lastPairPort (s : State) : Option Nat :=
  if s.mesh.root then some s.mesh.hostPort
  else (bitsOf (Tab.get s.mesh.memberTable 0 0#16).toNat 16).head?

/-- The field pairs in the order of the test (R405). -/
def testPairs (s : State) : List (Nat × Nat) :=
  let last := fun (q : Nat × Nat) => match lastPairPort s with
    | none => false
    | some p => q.1 = p / 2 || q.2 = p / 2
  let l := [(0, 7), (3, 4), (1, 6), (2, 5)]
  l.filter (fun q => !last q) ++ l.filter last

/-- A port of a tested pair reports DOWN with FIELD_FENCED, whatever its state before (R405 step 2); the root is told, and routes around it (R289). -/
def gatePort (i : Nat) (s : State) : State :=
  let s1 := if (portOf s i).carries then portDown i 0xB s else s
  let s2 := updPort i (fun p => { p with pstate := 2, reason := 0xB, lasers := 0#8 }) s1
  if (portOf s i).carries then reportPort i s2 else s2

/-- The ports of a pair's fields are gated. -/
def gatePair (q : Nat × Nat) : State → State :=
  watchDegraded (fun s => forEach [2 * q.1, 2 * q.1 + 1, 2 * q.2, 2 * q.2 + 1] gatePort s)

/-- Entry to TESTING (R405 steps 1 and 2): regions torn down as `RETAIN` asks, the ports of the first pair gated. -/
def enterTesting (level : Nat) (retain : Bool) (s : State) : State :=
  let s1 := teardownAll (regionsWhere s (fun r => !retain || !r.resident)) s
  let s2 := setMode .testing 0x0103 (mapTest (fun t => { t with
    level := level, retain := retain, began := s.ctl.localTime, pairs := testPairs s, pairFrom := s.ctl.localTime }) s1)
  forEach (s2.test.pairs.take 1) gatePair s2

/-- The test of a pair ends and that of the next one begins, after a time that the spec does not fix (log entry 20). The last pair's ends with the
test. -/
def nextPair (s : State) : State :=
  match s.test.pairs with
  | _ :: q :: r =>
    if s.ctl.mode = .testing && Config.pairDone (r.length + 1) (s.ctl.localTime - s.test.pairFrom).toNat then
      gatePair q (mapTest (fun t => { t with pairs := q :: r, pairFrom := s.ctl.localTime }) s)
    else s
  | _ => s

/-- `module.shutdown` (R240, R324, R405): the response precedes entry to LODGE or TESTING. -/
def shutdown (h : Hdr) (level retain : U64) (s : State) : State :=
  let l := clampTo 3 level.toNat
  let r := clampTo 1 retain.toNat
  requestThen h ⟨0x0103, 16, false, ownerFleet, [.ready], true⟩ (okClamped [l, r] [])
    (fun s => if l.value = 0 then lodgeOrderly (r.value = 1) 0x0103 s else enterTesting l.value (r.value = 1) s) s

def execModuleShutdown (h : Hdr) (retain : U64) (s : State) : Host.Outcome State Fault Refusal :=
  .next (shutdown h 0#64 retain s)

def execModuleShutdownTest (h : Hdr) (level retain : U64) (s : State) : Host.Outcome State Fault Refusal :=
  .next (shutdown h level retain s)

/-- `module.restart`: any image is unloaded, then BOOT; the resident contents are not kept, since no residency procedure has run (R241,
log entry 21). -/
def execModuleRestart (h : Hdr) (s : State) : Host.Outcome State Fault Refusal :=
  .next (requestThen h ⟨0x0104, 0, false, ownerFleet, [.ready, .loaded], true⟩ (ok [])
    (fun s => enterBoot 0x0104 (dropJob s)) s)

/-! ## Firmware -/

/-- IMAGE_REJECTED: 0 firmware or 1 pack, version, reason (a status code). -/
def noteRejected (kind version reason : Nat) : State → State := record (ev 0x0402 6 [(8, kind), (32, version), (16, reason)]).atHub

/-- The image that bulk data holds, with the 168-byte endorsement at its end where one is appended (R370). -/
def fwImage (data : List Byte) (v : FwView) : FwImage :=
  let n := if v.endorsed then data.length - 168 else data.length
  let e := data.drop n
  ⟨v.securityVersion, v.build, Config.sha384 (data.take n), v.daxaundOk, v.endorsed && decide (168 ≤ data.length), numAt e 0x30 4, BitVec.ofNat 96 (numAt e 0x38 12),
    BitVec.ofNat 384 (numAt e 0 48), v.endorseKey⟩

/-- `module.firmware.install` (R370): the inactive slot. -/
def execModuleFirmwareInstall (h : Hdr) (b : Bulk) (x : Ext) (s : State) : Host.Outcome State Fault Refusal :=
  .next (request h ⟨0x0105, 16, false, ownerKind, active, true⟩
    (fun s =>
      if !bulkOk h b s then verifyFailed (bulkDiag b.addr.toNat) s
      else match x.fw with
        | none => signatureFailed ⟨0x0A, 0, 0, 0x1FF, 0, 0, 0, 370, 0⟩ (noteRejected 0 0 stSignatureFailed s)
        | some v =>
          let i := fwImage (bulkData b s) v
          if !bootable s i then
            signatureFailed ⟨0x0A, 0, 0, 0x1FF, 0, 0, 0, 370, 0⟩ (noteRejected 0 i.securityVersion stSignatureFailed s)
          else ok [] (mapFlash (fun fl => { fl with
            slots := Tab.set fl.slots (1 - s.ctl.fwSlot) i, lastWritten := 1 - s.ctl.fwSlot }) s)) s)

/-! ## The shut-down test (R408 to R411) -/

/-- One location of a field judged by the test: entry by entry (R409). -/
def judgeEntry (failed : List SoftLoc) (e : SoftEntry) : SoftEntry :=
  if e.fused then e
  else if failed.contains e.loc then { e with passes := 0, seen := min 2 (e.seen + 1) }
  else { e with seen := 0, passes := min 2 (e.passes + 1) }

/-- The soft map of a field after the test, before fusing. -/
def judgeMap (l : List SoftEntry) (failed : List SoftLoc) (start : Nat) : List SoftEntry :=
  (l.map (judgeEntry failed)).filter (fun e => e.fused || decide (e.passes < 2)) ++
    ((failed.filter (fun q => !l.any (fun e => e.loc = q))).eraseDups.map (fun q => ⟨q, 0, 1, 0, false, start⟩))

/-- Entries that the test confirms (R409). -/
def confirmed (l : List SoftEntry) : List SoftEntry := l.filter (fun e => !e.fused && e.seen = 2)

/-- A core that has failed enters its half-row; a second one makes the half-row LOST (R402, R409). -/
def fuseCore (m : FuseMap) (col row : Nat) : FuseMap :=
  let i := 2 * row + flag (eastHalf col)
  let old := Tab.get m.halfRows i 0x1F
  if old % 32 = halfCode col then m
  else { m with halfRows := Tab.set m.halfRows i (if old % 32 = 31 then old + halfCode col - 31 else if old < 32 then old + 32 else old) }

/-- A confirmed fault added to a fuse generation (R402, R409): a core to its half-row; a column to the repairs, with the next spare column of its
bank, but the core itself when both are used. -/
def fuseAdd (m : FuseMap) (e : SoftEntry) : FuseMap :=
  let key := e.loc.col + 64 * e.loc.row + 2048 * e.loc.bank
  let used := (m.repairs.filter (fun w => bits w.toNat 0 15 = key)).length
  if e.loc.kind = 0 || 2 ≤ used then fuseCore m e.loc.col e.loc.row
  else { m with repairs := m.repairs ++ [BitVec.ofNat 32 (pack [(15, key), (8, e.loc.sramCol), (1, used)])] }

/-- What the test makes of one field: soft map, fuse generations, summary (R409, R410). -/
structure FieldOutcome where
  soft : List SoftEntry
  gens : List FuseMap
  summary : List Nat
  deriving DecidableEq, Repr

/-- The queued repairs with their outcomes: a row that failed its march before is refused with reason 2 (R237), any other is done unless the test says
otherwise. -/
def repairOutcomes (s : State) (env : TestEnv) : List ((Nat × U64) × Nat) :=
  (List.range s.flash.repairs.length).zipWith (fun i q => (q, if s.flash.failedRows.contains q then 2 else Tab.get env.ppr i 0)) s.flash.repairs

def testField (s : State) (env : TestEnv) (f : Nat) : FieldOutcome :=
  let old := Tab.get s.flash.soft f []
  let gens := fuseGens s f
  let failed := env.failed.filter (fun q => q.field = f)
  let rows := (env.rowFails.filter (fun w => (memLoc w).stack / 4 = f)).length
  let reps := (repairOutcomes s env).filter (fun e => e.1.1 / 4 = f)
  let tested := s.test.level ≥ 2
  let hbm := fun (n : Nat) => if tested then n else 0
  if env.fieldsFailed.contains f then
    ⟨old, gens, [0, 0, 0, ((fuseForce s f).map (·.1)).getD 0, flag (decide (4 ≤ gens.length)), 0, 0, 0]⟩
  else
    let l := judgeMap old failed s.flash.startCount
    let conf := confirmed l
    let room := decide (gens.length < 4)
    let base := ((fuseForce s f).map (·.2)).getD ⟨[], [], true⟩
    let gens2 := if conf.isEmpty || !room then gens else gens ++ [{ conf.foldl fuseAdd base with intact := env.burnOk }]
    let l2 := if room && env.burnOk then l.map (fun e => if conf.contains e then { e with fused := true } else e) else l
    ⟨l2, gens2,
      [(l2.filter (fun e => !old.any (fun q => q.loc = e.loc))).length, conf.length,
        (old.filter (fun e => !l2.any (fun q => q.loc = e.loc))).length, ((lastIntact 0 gens2).map (·.1)).getD 0, flag (decide (4 ≤ gens2.length)),
        hbm rows, hbm (reps.filter (fun e => e.2 = 0)).length, hbm (reps.filter (fun e => e.2 ≠ 0)).length]⟩

/-- The page whose data a page of a general pseudo-channel holds now: its own, or that of the page it is the spare of (R234). -/
def homePage (h : Hbm) (pc p : Nat) : Nat :=
  match h.pages.find? (fun e => e.1.pc = pc && e.2 = p) with
  | some e => e.1.number
  | none => p

/-- The first physical byte of the data in a row (R206, R234): rows of the spare bank hold the retired bank's. -/
def rowByte (h : Hbm) (l : MemLoc) : Nat :=
  let page :=
    if l.channel = 15 then 64 * (l.row / 4) + l.bank
    else
      let bank := if l.bank = 63 then ((h.banks.find? (fun b => b.pc = l.pcIndex)).map (·.number)).getD 63 else l.bank
      homePage h l.pcIndex (63 * (l.row / 4) + bank)
  l.pcIndex * 2 ^ 31 + page * 4096 + l.row % 4 * 1024

/-- The log record of a row at the shut-down test (source 5), with the code class and the region of its words: the system area and spares that hold nothing else
are CODE 3 and 0x3FF (R205, R231). -/
def rowLog (s : State) (l : MemLoc) (event symbols : Nat) : LogRec :=
  let x := rowByte s.hbm l
  let at_ := match s.hbm.regions.find? (fun p => p.2.holdsGranule (granuleOf x)) with
    | some (id, r) => (r.code, id)
    | none => (if l.channel = 15 || pageOfPhys x < 515072 then 0 else 3, 0x3FF)
  ⟨0#64, 0#64, l.stack, l.channel, l.pc, l.bank, l.row, 0, event, symbols, 5, at_.1, 0, at_.2⟩

/-- A queued repair carried out (R236, R237); one that finds no spare row may be asked for again. -/
def doRepair (e : (Nat × U64) × Nat) (s : State) : State :=
  let out := e.2
  let s1 := logEvent (rowLog s (memLoc e.1.2) (if out = 0 then 0x09 else 0x0A) out) s
  mapFlash (fun fl =>
    if out = 0 then { fl with repairedRows := fl.repairedRows ++ [e.1] }
    else if out ≠ 2 || fl.failedRows.contains e.1 then fl else { fl with failedRows := fl.failedRows ++ [e.1] }) s1

/-- A row that fails its march is logged with source 5 (R408; UE, log entry 22). -/
def logRowFail (w : U64) (s : State) : State := logEvent (rowLog s (memLoc w) 0x03 0) s

/-- Bytes of the test record before its signature (R410). -/
def TestRecord.bytes (r : TestRecord) : List Byte :=
  lay [(2, 1), (2, Sys2Proof.pack [(2, r.level), (1, flag r.retain), (1, flag r.clean)]), (4, r.startCount), (12, serialNat), (2, fwSeries), (2, r.fwBuild),
    (4, r.elapsedMs), (4, maskOf r.fieldsFailed), (8, r.time.toNat), (48, r.identity.toNat), (48, r.otp.toNat), (48, r.pack.toNat)] ++
  (List.range 8).flatMap (fun f =>
    let v := Tab.get r.summaries f []
    lay [(8, Sys2Proof.pack [(8, nth v 0 0), (8, nth v 1 0), (8, nth v 2 0), (2, nth v 3 0), (1, nth v 4 0), (5, 0), (16, nth v 5 0), (8, nth v 6 0),
      (8, nth v 7 0)])]) ++ lay [(8, 0)]

/-- The test record written and signed (R410, R411). -/
def writeTestRecord (env : TestEnv) (outs : List FieldOutcome) (s : State) : State :=
  let r : TestRecord :=
    { level := s.test.level, retain := s.test.retain, clean := env.fieldsFailed.isEmpty && (s.test.level ≠ 3 || env.marked.isEmpty), startCount := s.flash.startCount,
      fwBuild := fwBuild s, elapsedMs := (s.ctl.localTime - s.test.began).toNat / 25000, fieldsFailed := env.fieldsFailed, time := s.ctl.localTime,
      identity := identityDigest s, otp := otpDigest s, pack := (s.flash.pack.map packMeas).getD 0#384,
      summaries := (List.range 8).zip (outs.map (·.summary)), signature := 0#768 }
  drawFree (mapFlash (fun fl => { fl with
    testRecord := some { r with signature := Config.deviceSign s.free (Config.sha384 r.bytes) } }) s)

/-- A word of a resident region, or of the residency store (page-coded), that does not decode after its copy back is marked and logged with source 5
(R217, R351, R408). -/
def markTested (word : Nat) (s : State) : State :=
  let x := word * 64
  let at_ := match wordRegion s x with
    | none => (2, 0x3FF)
    | some (id, r) => (r.code, id)
  markWord x (logEvent (logAt s x (if at_.1 = 2 then 0x06 else 0x03) 0 5 at_.1 at_.2) s)

/-- The shut-down test ends: the ports of the pairs still to come, words, repairs and rows of HBM (level 2 and above; resident data at level 3), soft maps and
fuses, the record, LODGE (R405 steps 2 to 7). -/
def execShutdownTestComplete (env : TestEnv) (s : State) : Host.Outcome State Fault Refusal :=
  .next (if s.ctl.mode ≠ .testing then s
    else
      let s := forEach (s.test.pairs.drop 1) gatePair s
      let s := onlyIf (decide (s.test.level = 3)) (fun s => forEach env.marked markTested s) s
      let s1 := if s.test.level < 2 then s
        else mapFlash (fun fl => { fl with repairs := [] })
          (forEach (repairOutcomes s env) doRepair (forEach env.rowFails logRowFail s))
      let outs := (List.range 8).map (testField s env)
      let s2 := mapFlash (fun fl => { fl with soft := ((List.range 8).zip (outs.map (·.soft))).filter (fun e => !e.2.isEmpty) }) s1
      let s3 := mapOtp (fun o => { o with fuses := (List.range 8).zip (outs.map (·.gens)) }) s2
      let s4 := forEach (List.range 8) generationWarning s3
      lodgeOrderly s.test.retain 0 (writeTestRecord env outs s4))

end Sys2Proof.Machine
end

