-- ==== Sys2Proof/Machine/Security.lean ====
section
/-! DEFINITION. The gatehouse's commands (R348 to R383, R400, R403): sessions, attestation, ownership, sealing, OTP, debug. -/

namespace Sys2Proof.Machine

open Sys2Proof

/-! ## Attestation (R353, R354) -/

/-- Bytes 0x000 to 0x15F of the report with a nonce. -/
def reportBytes (nonce : Digest) (s : State) : List Byte :=
  lay [(4, 1), (2, stepping), (2, fwSeries), (12, serialNat), (4, fwSecurity s), (4, otpValue s 2),
    (4, pack [(4, s.ctl.mode.code), (1, flag (degraded s)), (1, s.ctl.fwSlot), (1, flag s.ctl.policyFull), (2, s.pwr.clockMode), (1, flag s.pwr.pin),
      (1, flag s.test.assurance), (1, flag (owned s)), (1, flag s.gateh.debugUnlocked), (1, flag s.gateh.uart), (1, flag s.mesh.addr.isSome)]),
    (2, (s.mesh.addr.getD 0#16).toNat), (2, s.flash.forbidDrop.toNat), (4, max 1500 (min s.pwr.limitSet s.pwr.supplyCap)), (8, s.ctl.localTime.toNat),
    (48, nonce.toNat), (48, ((ownerHash s).getD 0#384).toNat), (48, Config.measBootRom.toNat),
    (48, ((fwRunning s).map (·.digest.toNat)).getD 0), (48, (s.flash.pack.map (fun k => (packMeas k).toNat)).getD 0),
    (48, if s.job.loaded then s.job.meas.toNat else 0), (4, (s.flash.pack.map (·.version)).getD 0), (2, fwBuild s), (2, 0), (8, 0)]

/-- The signed report, the lengths, and both certificates as the signed record area holds them (R352, R399). -/
def attestBytes (nonce : Digest) (s : State) : List Byte :=
  let device := if s.flash.certs then deviceCert else []
  let inter := if s.flash.certs then intermediateCert else []
  reportBytes nonce s ++ le 96 (Config.deviceSign s.free (Config.sha384 (reportBytes nonce s))).toNat ++
    lay [(4, pack [(16, device.length), (16, inter.length)]), (4, 0)] ++ device ++ inter

def execAttestReport (h : Hdr) (nonce : Digest) (s : State) : Host.Outcome State Fault Refusal :=
  .next (request h ⟨0x0202, 48, true, anyKind, .sealed :: served, true⟩ (fun s => ok (attestBytes nonce s) (drawFree s)) s)

/-! ## Opening a session (R358 to R364, R369) -/

/-- Which mailboxes a role may name (R302). -/
def roleMailbox (role mb : Nat) : Bool :=
  match role with
  | 0 => decide (1 ≤ mb) && decide (mb ≤ 31)
  | 1 => mb = 1
  | 2 => decide (2 ≤ mb) && decide (mb ≤ 31)
  | _ => false

/-- May a session of a role be opened now: a claimed module, no tenant after a debug unlock, only the owner in SEALED (R356, R369,
R377)? -/
def roleOpen (s : State) (role : Nat) : Bool :=
  owned s && !(role = 2 && s.gateh.debugUnlocked) && !(s.ctl.mode = .sealed && role ≠ 0)

/-- The HELLO request as sent (R360). -/
def helloBytes (m : Hello) : List Byte :=
  lay [(8, pack [(8, 1), (8, m.role), (8, m.mailbox), (40, m.rsv)]), (32, m.nonce.toNat), (97, m.eph.toNat), (7, m.rsv / 2 ^ 40)]

/-- Response bytes 0x000 to 0x0BF of HELLO: handle, fresh nonce and key, `MEAS_DIGEST` (R360). -/
def helloBody (s : State) (id : Nat) : List Byte :=
  let report := reportBytes 0#384 s
  lay [(4, pack [(16, 1), (16, id)]), (4, 0), (32, (Config.entropy256 s.free).toNat), (97, (Config.ephemeralPoint s.free).toNat), (7, 0),
    (48, (Config.sha384 ((report.drop 4).take 36 ++ report.drop 0x60)).toNat)]

/-- A handshake 10 s after its HELLO response, by the local time counter: it is discarded (R364). -/
def Handshake.expired (k : Handshake) (now : U64) : Bool := decide (250000000 ≤ (now - k.born).toNat)

def expireHandshakes (s : State) : State :=
  mapGate (fun g => { g with handshakes := g.handshakes.filter (fun e => !e.2.expired s.ctl.localTime) }) s

/-- The pending handshake of a handle. -/
def pendingHandshake (s : State) (id : Nat) : Option Handshake := Tab.find (expireHandshakes s).gateh.handshakes id

/-- The handle of a new handshake: the lowest not pending (the module's choice is open; log entry 23). -/
def freeHandshake (s : State) : Nat := (Tab.lowestFree s.gateh.handshakes 1 9).getD 1

/-- TH1 of a handshake (R360). -/
def firstHash (m : Hello) (body : List Byte) : Digest := Config.sha384 (helloBytes m ++ body)

/-- HELLO (R360, R364); the keys are formed with the response, after which `Z` and the ephemeral private key are erased (R361). -/
def execSessionOpenHello (h : Hdr) (m : Hello) (x : Ext) (s : State) : Host.Outcome State Fault Refusal :=
  .next (request h ⟨0x0200, 144, true, [], .sealed :: served, roleMailbox m.role m.mailbox && roleOpen s m.role⟩
    (fun s =>
      let s := expireHandshakes s
      if !x.pointOk then verifyFailed (fieldDiag 0 360 0) s
      else if 8 ≤ s.gateh.handshakes.length || 64 ≤ s.gateh.sessions.length then answer stExhausted s
      else
        let id := freeHandshake s
        let body := helloBody s id
        let th1 := firstHash m body
        let keys := deriveKeys m.nonce (Config.entropy256 s.free) (Config.sharedX s.free m.eph) th1
        ok (body ++ le 96 (Config.deviceSign s.free th1).toNat)
          (drawFree (mapGate (fun g => { g with handshakes := Tab.set g.handshakes id ⟨m.role, m.mailbox, s.ctl.localTime, th1, keys⟩ }) s))) s)

def dropHandshake (id : Nat) : State → State := mapGate (fun g => { g with handshakes := Tab.erase g.handshakes id })

/-- A credential accepted under R359, by its bytes (R358) and whether `OWNER_SIG` verifies. -/
def credOk (s : State) (c : List Byte) (sigOk : Bool) (kind mb : Nat) (key : Digest) : Bool :=
  c.length = 176 && numAt c 0 1 = kind && sigOk && (numAt c 0x38 12 = 0 || numAt c 0x38 12 = serialNat)
    && decide (s.flash.ticketEpoch ≤ numAt c 0x44 4) && numAt c 0x08 48 = key.toNat && bit (numAt c 0x48 4) mb

/-- `KEY_SLOT_QUOTA` of a credential. -/
def credQuota (c : List Byte) : Nat := numAt c 0x4C 1

/-- Step 2 of R363: the owner key itself, or a credential. -/
def proofOk (s : State) (k : Handshake) (m : Finish) (x : Ext) : Bool :=
  m.credKind = k.role &&
    (if m.credKind = 0 then ownerHash s = some (principalOf m.key)
     else credOk s m.cred x.credSigOk m.credKind k.mailbox (principalOf m.key))

/-- Bytes 0x000 to 0x0CF of a FINISH request (R362). -/
def finishBytes (m : Finish) : List Byte :=
  lay [(8, pack [(8, 2), (8, m.credKind), (16, m.handshake), (32, m.rsv)]), (97, m.key.toNat), (7, m.rsv / 2 ^ 32), (96, m.sig.toNat)]

/-- TH2 (R362). -/
def secondHash (k : Handshake) (m : Finish) : Digest := Config.sha384 (le 48 k.th1.toNat ++ finishBytes m ++ m.cred)

/-- `CONFIRM_H` that K_CH gives, and `CONFIRM_M` that K_CM gives (R362). -/
def confirmH (k : Handshake) (m : Finish) : Digest := Config.hmac384 k.derived.ch (le 48 (secondHash k m).toNat)
def confirmM (k : Handshake) (m : Finish) : Digest := Config.hmac384 k.derived.cm (le 48 (secondHash k m).toNat)

/-- FINISH (R362, R363): the first failed check discards the handshake. -/
def execSessionOpenFinish (h : Hdr) (m : Finish) (x : Ext) (s : State) : Host.Outcome State Fault Refusal :=
  .next (request h ⟨0x0200, if m.credKind = 0 then 256 else 432, true, [], .sealed :: served,
      match pendingHandshake s m.handshake with
      | none => owned s
      | some k => roleOpen s k.role⟩
    (fun s => match pendingHandshake s m.handshake with
      | none => verifyFailed { fieldDiag 0 363 m.handshake with rule := 1 } s
      | some k =>
        let s := dropHandshake m.handshake s
        if !proofOk s k m x then verifyFailed { fieldDiag 0 363 m.credKind with rule := 2 } s
        else if !x.sigOk then signatureFailed { fieldDiag 0 363 0 with rule := 3 } s
        else if m.confirm ≠ confirmH k m then signatureFailed { fieldDiag 0 363 0 with rule := 4 } s
        else match Tab.lowestFree s.gateh.sessions 1 64 with
          | none => answer stExhausted s
          | some id =>
            let e : Session := ⟨k.role, principalOf m.key, k.mailbox, 0, credQuota m.cred, none, false, k.derived.keys⟩
            ok (lay [(8, id), (48, (confirmM k m).toNat), (8, 0)])
              (noteSession id e true (mapGate (fun g => { g with sessions := Tab.set g.sessions id e }) s))) s)

/-- 10 s after the HELLO response a pending handshake is discarded (R364). -/
def execHandshakeExpiry (handshake : Nat) (s : State) : Host.Outcome State Fault Refusal :=
  .next (match Tab.find s.gateh.handshakes handshake with
    | none => s
    | some k => if k.expired s.ctl.localTime then dropHandshake handshake s else s)

/-! ## Ending a session (R374, R485) -/

/-- `session.close`: the response is written, then the session counts as not open. -/
def execSessionClose (h : Hdr) (s : State) : Host.Outcome State Fault Refusal :=
  .next (requestThen h ⟨0x0201, 0, false, anyKind, .sealed :: served, true⟩ (ok [])
    (mapGate (fun g => match Tab.find g.sessions h.session with
      | none => g
      | some e => { g with sessions := Tab.set g.sessions h.session { e with closing := true } })) s)

/-- Steps 2 to 6 of R374 for a session that has closed. A running job of the session drains first; the teardown ends when it is taken up
again with the job quiet (log entry 24). -/
def execSessionTeardown (session : Nat) (s : State) : Host.Outcome State Fault Refusal :=
  .next (match Tab.find s.gateh.sessions session with
    | none => s
    | some e =>
      if !e.closing then s
      else if s.job.loaded && s.job.session = session && s.ctl.mode = .running then beginDrain 0x0201 s
      else if s.job.loaded && s.job.session = session && s.ctl.mode = .draining then s
      else endSession session s)

/-! ## Ownership (R356, R357) -/

/-- The next generation of a setting burnt and read back (R401, R403). -/
def burnAnswer (k v : Nat) (good : Bool) (after : State → State) (s : State) : Ans :=
  if 4 ≤ (otpSlots s k).length then answer stExhausted s
  else
    let s1 := burn k v good s
    if good then ok [] (after s1)
    else if 4 ≤ (otpSlots s1 k).length then answer stExhausted s1
    else verifyFailed (fieldDiag 1 403 v) s1

/-- The 200-byte record of `owner.claim` (R356): `OWNER_KEY` and `CLAIM_SIG`. -/
def claimIn (p : List Byte) : ClaimRecord := ⟨BitVec.ofNat 776 (numAt p 0 97), BitVec.ofNat 768 (numAt p 0x68 96)⟩

/-- `owner.claim` (R356). -/
def execOwnerClaim (h : Hdr) (r : ClaimRecord) (x : Ext) (s : State) : Host.Outcome State Fault Refusal :=
  .next (request h ⟨0x0203, 200, true, [], [.ready], true⟩
    (fun s =>
      if !x.pointOk then verifyFailed (fieldDiag 0 356 0) s
      else if !x.sigOk then signatureFailed (fieldDiag 0 356 0) s
      else if owned s then answer stExhausted s
      else burnAnswer 1 (principalOf r.key).toNat x.readbackOk (mapFlash (fun fl => { fl with ticketEpoch := 0 })) s) s)

/-- Every tenant's trace destroyed: all regions with their slots and the residency store (R357, R379 steps 2 to 5). -/
def destroyTenants (s : State) : State :=
  let s1 := teardownAll (regionsWhere s (fun _ => true)) s
  mapGate (fun g => { g with keySlots := [], residency := [] }) s1

/-- An address that lies with 200 bytes in a staging region of the issuer (R403). -/
def claimAddrOk (h : Hdr) (a : Nat) (s : State) : Bool :=
  match regionAt s.hbm.regions a with
  | none => false
  | some (_, r) => r.staging && r.owner = issuerHash h s && decide (a + 200 ≤ r.base + r.bytes)

/-- A new owner key hash (R357, R403): every region, every other session and every slot key go first; the issuing session ends once its
response has been written. -/
def ownerKeyChange (h : Hdr) (value : U64) (x : Ext) (s : State) : State :=
  let new := principalOf (claimIn (bulkBytes s value.toNat 200)).key
  let change := decide (ownerHash s ≠ some new)
  requestThen h ⟨0x0A01, 16, false, ownerKind, [.ready], true⟩
    (fun s =>
      if !claimAddrOk h value.toNat s || !x.pointOk || !x.sigOk then verifyFailed (fieldDiag 1 403 value.toNat) s
      else if ownerHash s = some new then ok [] s
      else if 4 ≤ (otpSlots s 1).length then answer stExhausted s
      else
        let others := (s.gateh.sessions.filter (fun e => e.1 ≠ h.session)).map (·.1)
        burnAnswer 1 new.toNat x.readbackOk id (destroyTenants (forEach others endSession s)))
    (fun s => if change then endSession h.session s else s) s

def execOwnerKeyChange (h : Hdr) (value : U64) (x : Ext) (s : State) : Host.Outcome State Fault Refusal :=
  .next (ownerKeyChange h value x s)

/-! ## OTP (R340, R400 to R403) -/

/-- Highest security version of a bootable image in the two slots (R403). -/
def highestBootable (s : State) : Option Nat :=
  (s.flash.slots.filter (fun e => bootable s e.2)).foldl (fun b e => some (max (b.getD 0) e.2.securityVersion)) none

/-- Is a value in the range that R403 gives for its setting? -/
def settingOk (s : State) (k v : Nat) : Bool :=
  match k with
  | 2 => decide (otpValue s 2 ≤ v) && decide (v ≤ (highestBootable s).getD 0)
  | 3 => decide (v ≤ 1)
  | 4 => decide (v ≤ 1)
  | 5 => decide (1500 ≤ v) && decide (v ≤ 5000)
  | 6 => decide (v ≤ 1)
  | _ => false

/-- `otp.generation.write` (R403); setting 0x01 is the change of owner key. -/
def execOtpGenerationWrite (h : Hdr) (setting value : U64) (x : Ext) (s : State) : Host.Outcome State Fault Refusal :=
  .next (if setting.toNat = 1 then ownerKeyChange h value x s
    else request h ⟨0x0A01, 16, false, ownerKind, [.ready], true⟩
      (fun s =>
        let k := setting.toNat
        if k < 2 || 6 < k then verifyFailed (fieldDiag 0 403 k) s
        else if !settingOk s k value.toNat then verifyFailed (fieldDiag 1 403 value.toNat) s
        else if otpValue s k = value.toNat then ok [] s
        else burnAnswer k value.toNat x.readbackOk id s) s)

/-- One generation slot of a hub setting as stored; an unburnt one is zero (R400, R401). -/
def otpSlotBytes (k : Nat) (o : Option OtpSlot) : List Byte :=
  match o with
  | none => lay [(settingBytes k + 4, 0)]
  | some g => lay [(settingBytes k, g.value), (4, g.tail.toNat)]

/-- One fuse-map generation as stored (R402). -/
def fuseSlotBytes (o : Option FuseMap) : List Byte :=
  match o with
  | none => lay [(512, 0)]
  | some m => fuseBody m ++ le 4 (fuseTail m)

/-- `otp.read` (R340). -/
def otpReadBytes (s : State) (k : Nat) : List Byte :=
  if k < 0x10 then
    let l := otpSlots s k
    lay [(4, pack [(8, k), (3, ((otpForce s k).map (·.1)).getD 7),
        (4, maskOf ((List.range 4).filter (fun i => ((l.drop i).head?.map (fun o => bit o.tail.toNat 16)).getD false))),
        (4, maskOf ((List.range 4).filter (fun i => ((l.drop i).head?.map (fun o => o.valid k)).getD false)))]),
      (4, settingBytes k + 4)] ++ (List.range 4).flatMap (fun i => otpSlotBytes k (l.drop i).head?)
  else
    let l := fuseGens s (k - 0x10)
    lay [(4, pack [(8, k), (3, ((fuseForce s (k - 0x10)).map (·.1)).getD 7), (4, 2 ^ l.length - 1),
        (4, maskOf ((List.range 4).filter (fun i => ((l.drop i).head?.map (·.intact)).getD false)))]),
      (4, 512)] ++ (List.range 4).flatMap (fun i => fuseSlotBytes (l.drop i).head?)

def execOtpRead (h : Hdr) (v : U64) (s : State) : Host.Outcome State Fault Refusal :=
  .next (request h ⟨0x0A00, 8, false, ownerFleet, .sealed :: served, true⟩
    (fun s =>
      let k := bits v.toNat 0 8
      if (1 ≤ k && k ≤ 6) || (0x10 ≤ k && k ≤ 0x17) then ok (otpReadBytes s k) s
      else verifyFailed (fieldDiag 0 340 k) s) s)

/-! ## Violations (R383) -/

/-- One 32-byte record of a counter. -/
def violationRecord (object : Nat) (c : VCount) : List Byte :=
  lay [(8, object), (8, c.count), (8, c.lastTime.toNat), (8, c.lastSource.toNat)]

/-- `owner.violations.read`: the counters of a scope that have counted, from a start index (log entry 25). -/
def execOwnerViolationsRead (h : Hdr) (v : U64) (s : State) : Host.Outcome State Fault Refusal :=
  .next (request h ⟨0x0204, 8, false, ownerKind, .sealed :: served, true⟩
    (fun s =>
      let scope := bits v.toNat 0 8
      let start := bits v.toNat 8 24
      if 2 < scope then verifyFailed (fieldDiag 0 383 scope) s
      else
        let t := if scope = 0 then s.gateh.vModule else if scope = 1 then s.gateh.vRegion else s.gateh.vWindow
        let l := (t.filter (fun e => decide (start ≤ e.1))).take 127
        ok (lay [(8, l.length), (24, 0)] ++ l.flatMap (fun e => violationRecord e.1 e.2)) s) s)

/-! ## Sealing and unlocking (R377 to R381) -/

def execOwnerSeal (h : Hdr) (s : State) : Host.Outcome State Fault Refusal :=
  .next (requestThen h ⟨0x0205, 0, false, ownerKind, served, true⟩ (ok []) (sealModule 2) s)

/-- The first check that a release record or unlock token fails, after its signature: serial, then count (R378, R379). -/
def tokenFault (t : Token) (count : Nat) : Option (Nat × Nat) :=
  if t.serial = 0#96 || t.serial ≠ Config.serial then some (0, t.serial.toNat)
  else if t.count ≠ count then some (1, t.count)
  else none

/-- `owner.unseal` (R378): the new ticket epoch is stored and BOOT begins. -/
def execOwnerUnseal (h : Hdr) (t : Token) (x : Ext) (s : State) : Host.Outcome State Fault Refusal :=
  .next (requestThen h ⟨0x0206, 120, false, ownerKind, [.sealed], true⟩
    (fun s =>
      if !x.sigOk then signatureFailed (fieldDiag 3 378 0) s
      else match tokenFault t s.flash.sealCount with
        | some (i, v) => verifyFailed (fieldDiag i 378 v) s
        | none =>
          if t.value < s.flash.ticketEpoch then verifyFailed (fieldDiag 2 378 t.value) s
          else ok [] (mapFlash (fun fl => { fl with ticketEpoch := t.value }) s))
    (enterBoot 0x0206) s)

/-- `debug.unlock` (R379): the teardowns in progress end (R376); destruction records, sessions, windows, regions, slots, then JTAG, which opens where
`SCOPE` names it (log entry 60). In SEALED with NO_FIRMWARE the residency
store is out of reach, so that its destruction waits for the next start. -/
def execDebugUnlock (h : Hdr) (t : Token) (x : Ext) (s : State) : Host.Outcome State Fault Refusal :=
  .next (request h ⟨0x0C02, 120, false, ownerKind, [.ready, .sealed], true⟩
    (fun s =>
      if !x.sigOk then signatureFailed (fieldDiag 4 379 0) s
      else match tokenFault t s.flash.unlockCount with
        | some (i, v) => verifyFailed (fieldDiag i 379 v) s
        | none =>
          let s1 := mapFlash (fun fl => { fl with
            unlockCount := (fl.unlockCount + 1) % 2 ^ 32, destructions := rangeFrom 1 255, destroyStore := true, s0Advance := true }) s
          let s2 := freeWindowsWhere (fun _ => true) (endSessions (fun e => e.kind ≠ 0 || e.closing) s1)
          let s3 := if s.ctl.mode = .sealed && s.gateh.sealCause = 1 then mapGate (fun g => { g with keySlots := [] }) s2
            else mapFlash (fun fl => { fl with destructions := [], destroyStore := false }) (destroyTenants s2)
          let s4 := record (ev 0x0404 6 [(32, t.value)]).atHub s3
          ok [] (mapGate (fun g => { g with debugUnlocked := true, jtagOpen := bit t.scope.toNat 0 }) s4)) s)

/-- `debug.uart.enable` (R381): 1 enables, 0 disables. -/
def execDebugUartEnable (h : Hdr) (v : U64) (s : State) : Host.Outcome State Fault Refusal :=
  .next (request h ⟨0x0C03, 8, false, ownerKind, active, true⟩
    (fun s =>
      if 1 < v.toNat then verifyFailed (fieldDiag 0 381 v.toNat) s
      else ok [] (mapGate (fun g => { g with uart := decide (v.toNat = 1) }) s)) s)

end Sys2Proof.Machine
end

