-- ==== Sys2Proof/Machine/Health.lean ====
section
/-! DEFINITION. Reading the module's health (R270, R341, R346, R347, R448 to R451), and pattern packs (R339, R443 to R447). -/

namespace Sys2Proof.Machine

open Sys2Proof

/-! ## Events (R343, R346, R347) -/

/-- The 32 bytes of an event record (R343). -/
def EventRec.bytes (e : EventRec) : List Byte :=
  lay [(8, e.time.toNat),
    (4, pack [(4, e.srcKind), (3, e.field), (9, e.plot), (4, e.slice), (4, e.port), (5, e.stack), (3, e.lane)]),
    (4, pack [(4, e.cls), (2, e.cont), (10, 0), (16, e.code)]), (16, e.detail.toNat)]

/-- May a reader see a record at all: class SECURITY reaches the owner, and a tenant its own SESSION_CHANGE (R346)? -/
def EventRec.visible (e : EventRec) (kind : Nat) (who : Digest) : Bool :=
  e.cls ≠ 6 || kind = 0 || (e.code = 0x0401 && kind = 2 && e.who = some who)

/-- The record as a reader sees it: the details of a job's records reach its tenant alone (R346). -/
def EventRec.shown (e : EventRec) (who : Digest) : EventRec :=
  if e.cls ≠ 6 && e.who.isSome && e.who ≠ some who then { e with detail := 0#128 } else e

/-- Records as they may be returned: no continuation without its first record (R347). -/
def dropLeading (l : List (Nat × EventRec)) : List (Nat × EventRec) :=
  match l with
  | [] => []
  | e :: r => if e.2.code = 0xFF then dropLeading r else e :: r

/-- Records without a last one whose continuation records are cut off, unless nothing else is left. -/
def wholeLast (l : List (Nat × EventRec)) : List (Nat × EventRec) :=
  let w := (l.reverse.dropWhile (fun e => e.2.code = 0xFF)).drop 1
  if w.isEmpty then l else w.reverse

/-- The records that a read from an index returns, up to a number, of those that may be returned (R341, R346, R347), and those that it leaves. -/
def eventPage (l : List (Nat × EventRec)) (start max kind : Nat) (who : Digest) : List (Nat × EventRec) × List (Nat × EventRec) :=
  let v := (dropLeading (l.filter (fun e => decide (start ≤ e.1)))).filter (fun e => e.2.visible kind who)
  let page := if ((v.drop max).head?.map (fun e => decide (e.2.code = 0xFF))).getD false then wholeLast (v.take max)
    else v.take max
  (page, v.drop page.length)

/-- Header and records of an event read: the index of the first record returned, the next one, the oldest one kept, the count. A read that leaves no record
goes on at `stop`, the index of the next record to be written. -/
def eventReply (l : List (Nat × EventRec)) (start max oldest stop kind : Nat) (who : Digest) : List Byte :=
  let p := eventPage l start max kind who
  lay [(8, (p.1.head?.map (·.1)).getD start), (8, if p.2.isEmpty then stop else (p.1.getLast?.map (fun e => e.1 + 1)).getD start), (8, oldest), (8, p.1.length)]
    ++ p.1.flatMap (fun e => (e.2.shown who).bytes)

/-- `health.events.read` (R324, R347). -/
def execHealthEventsRead (h : Hdr) (start max_ : U64) (s : State) : Host.Outcome State Fault Refusal :=
  .next (request h ⟨0x0902, 16, false, anyKind, .sealed :: served, true⟩
    (fun s =>
      let oldest := (s.evt.ring.head?.map (·.1)).getD s.evt.next
      let a := clampNear oldest s.evt.next start.toNat
      let b := clampNear 1 127 max_.toNat
      okClamped [a, b] (eventReply s.evt.ring a.value b.value oldest s.evt.next (issuerKind h s) (issuerHash h s)) s) s)

/-- `health.summary.read` (R341). -/
def execHealthSummaryRead (h : Hdr) (v : U64) (s : State) : Host.Outcome State Fault Refusal :=
  .next (request h ⟨0x0903, 8, false, ownerFleet, .sealed :: served, true⟩
    (fun s =>
      let part := bits v.toNat 0 8
      let start := bits v.toNat 8 40
      if part = 0 then
        let all := s.flash.sumCounts.filter (fun e => decide (start ≤ e.1))
        let l := all.take 254
        ok (lay [(8, (l.head?.map (·.1)).getD start), (8, ((all.drop 254).head?.map (·.1)).getD 65536), (8, 0), (8, l.length)]
          ++ l.flatMap (fun e => lay [(8, e.1), (8, e.2)])) s
      else if part = 1 then
        ok (eventReply s.flash.sumKept start 127 ((s.flash.sumKept.head?.map (·.1)).getD s.flash.sumNext) s.flash.sumNext (issuerKind h s) (issuerHash h s)) s
      else verifyFailed (fieldDiag 0 341 part) s) s)

/-! ## Margins and warnings (R270, R448 to R451) -/

/-- The corrected bits and the uncorrectable codewords that a lane has met since its counters were last read: free values (log entry 26). -/
def LaneState.count (k n : Nat) (l : LaneState) : LaneState :=
  { l.correct k (Config.freeU64 (4 * n)).toNat (Config.freeU64 (4 * n + 1)).toNat (Config.freeU64 (4 * n + 2)).toNat with
    uncorrectable := satAdd 32 l.uncorrectable (Config.freeWord n).toNat }

/-- The counters of the active lanes of a port brought up to now. -/
def countLanes (i : Nat) (s : State) : State :=
  updPort i (fun p => { p with
    lanes := p.lanes.zipIdx.map (fun e => if p.carries && bit p.active.toNat e.2 then e.1.count (secondOf s.ctl.localTime) (8 * s.free + e.2) else e.1) }) s

/-- The record of an active lane (R270). Its margins are analogue values that nothing in the machine fixes: free values, the eye by the second, power and bias
by the 100 ms, the engine's temperature at each read; its bias at manufacture is a constant of the module (log entry 26). -/
def laneRecord (now : U64) (n lane : Nat) (l : LaneState) : List Byte :=
  let eye := fun q => (Config.laneMeasure lane q (secondOf now)).toNat
  let power := fun q => (Config.laneMeasure lane q (now.toNat / 2500000)).toNat
  lay [(2, eye 0), (2, eye 1), (2, power 2), (2, power 3), (2, power 4), (2, (Config.laserBiasBase lane).toNat),
    (2, (Config.freeU64 (4 * n + 3)).toNat % 65536), (2, 0), (8, l.corrected), (4, l.uncorrectable), (4, min l.lastSecond (2 ^ 32 - 1))]

/-- Lanes that are not active have no margins: a record of zeros. -/
def portMargins (s : State) (i : Nat) : List Byte :=
  (List.range 8).flatMap (fun l =>
    if (portOf s i).carries && bit (portOf s i).active.toNat l then laneRecord s.ctl.localTime (8 * s.free + l) (8 * i + l) ((portOf s i).lane l)
    else lay [(32, 0)])

/-- Corrected events logged for a stack in the last 3,600 s (R449). -/
def ceLastHour (s : State) (k : Nat) : Nat := ((Tab.get (fieldOf s (k / 4)).corrected k []).filter (within s.ctl.localTime 3600)).length

/-- Free spare pages of a general pseudo-channel. -/
def freeSpares (s : State) (pc : Nat) : Nat := 512 - (s.hbm.sparesGone.filter (fun l => l.pc = pc)).length

/-- General pseudo-channels of a stack. -/
def generalPcs (k : Nat) : List Nat := rangeFrom (32 * k) 30

def minSpares (s : State) (k : Nat) : Nat := (generalPcs k).foldl (fun n pc => min n (freeSpares s pc)) 512

def spareBanksUsed (s : State) (k : Nat) : Nat := ((generalPcs k).filter (fun pc => s.hbm.banks.any (fun l => l.pc = pc))).length

/-- A stack record (R449). -/
def stackMargins (s : State) (k : Nat) : List Byte :=
  let v := stackOf s k
  let p := v.probe.getD ⟨0, 0, 0, 0, 0, 0⟩
  lay [(2, p.readPs), (2, p.writePs), (4, pack [(4, p.readCh), (1, p.readPc), (3, 0), (4, p.writeCh), (1, p.writePc)]), (4, ceLastHour s k),
    (4, pack [(16, minSpares s k), (8, spareBanksUsed s k)]), (8, v.probeTime.toNat), (8, 0)]

/-- A plot record, in order of position (R449). -/
def plotMargins (s : State) (f pos : Nat) : List Byte :=
  match (fieldOf s f).plotAt pos with
  | none => lay [(8, 0)]
  | some i =>
    let pl := plotOf s (64 * f + i)
    lay [(2, toBits 16 pl.slackPs), (2, toBits 16 (pl.slackMin.getD pl.slackPs)), (4, 0)]

/-- `health.margins` (R449). -/
def execHealthMargins (h : Hdr) (v : U64) (s : State) : Host.Outcome State Fault Refusal :=
  .next (request h ⟨0x0900, 8, false, ownerFleet, active, true⟩
    (fun s =>
      let kind := bits v.toNat 0 8
      let n := bits v.toNat 8 8
      if kind = 0 && n < 16 then let s := countLanes n s
        ok (portMargins s n) (drawFree s)
      else if kind = 1 && n < 8 then
        ok ((List.range 4).flatMap (fun k => stackMargins s (4 * n + k)) ++ (List.range 64).flatMap (plotMargins s n)) s
      else verifyFailed (fieldDiag 0 449 v.toNat) s) s)

/-- `health.warnings` (R451). -/
def execHealthWarnings (h : Hdr) (s : State) : Host.Outcome State Fault Refusal :=
  .next (request h ⟨0x0904, 0, false, ownerFleet, active, true⟩
    (fun s => ok (le 8 s.health.length ++ s.health.flatMap (fun w =>
      lay [(2, pack [(8, w.kind), (4, w.srcKind)]), (2, w.object), (4, toBits 32 w.value), (4, toBits 32 w.threshold), (4, 0),
        (8, w.first.toNat), (8, w.last.toNat)])) s) s)

/-- The stack that a warning about memory names. -/
def warnStack (kind k : Nat) (value threshold : Int) (s : State) : State := warn kind 6 k value threshold ((ev 0 0 []).atStack k) s

/-- A probe of a stack's margins (R448): three successive ones below 25 ps warn (R450 kinds 0x08, 0x09). -/
def execMarginProbe (stack : Nat) (r : ProbeResult) (s : State) : Host.Outcome State Fault Refusal :=
  .next (
    if !served.contains s.ctl.mode || (fieldOf s (stack / 4)).fenced then s
    else
      let v := stackOf s stack
      let lr := if r.readPs < 25 then v.lowRead + 1 else 0
      let lw := if r.writePs < 25 then v.lowWrite + 1 else 0
      let s1 := updStack stack (fun k => { k with probe := some r, probeTime := s.ctl.localTime, lowRead := lr, lowWrite := lw }) s
      let s2 := if 3 ≤ lr then warnStack 0x08 stack r.readPs 25 s1 else s1
      let s3 := if 3 ≤ lw then warnStack 0x09 stack r.writePs 25 s2 else s2
      let s4 := if 10000 < ceLastHour s3 stack then warnStack 0x0A stack (ceLastHour s3 stack) 10000 s3 else s3
      let s5 := if minSpares s4 stack < 64 then warnStack 0x0B stack (minSpares s4 stack) 64 s4 else s4
      if 0 < spareBanksUsed s5 stack then warnStack 0x0C stack (spareBanksUsed s5 stack) 0 s5 else s5)

/-- Threshold of a warning kind in its units (R450); received power has two, and the one that the value has passed is given. -/
def warnThreshold (kind object : Nat) (value : Int) : Int :=
  match kind with
  | 0x01 => 2240000 | 0x02 => 120 | 0x03 => 150 | 0x04 => if 450 < value then 450 else -600 | 0x05 => -50
  | 0x06 => 3 * (Config.laserBiasBase object).toNat / 2 | 0x07 => 850 | 0x08 => 25 | 0x09 => 25 | 0x0A => 10000
  | 0x0B => 64 | 0x0C => 0 | 0x0D => 25 | 0x0E => 16 | 0x0F => 4 | 0x10 => 100 | _ => 0

/-- Source of a warning kind (R344, R451): lane, stack, plot or field. -/
def warnSource (kind object : Nat) : Nat × EventRec :=
  if kind ≤ 0x07 then (5, (ev 0 0 []).atLane (object / 8) (object % 8))
  else if kind ≤ 0x0C then (6, (ev 0 0 []).atStack object)
  else if kind = 0x0D then (2, (ev 0 0 []).atPlot object)
  else (1, (ev 0 0 []).atField object)

/-- Does a value meet the condition of a warning kind (R450)? -/
def warnMet (kind object : Nat) (v : Int) : Bool :=
  match kind with
  | 0x04 => decide (450 < v) || decide (v < -600)
  | 0x06 => decide (3 * ((Config.laserBiasBase object).toNat : Int) < 2 * v)
  | 0x01 | 0x07 | 0x0A | 0x0C | 0x0E | 0x10 => decide (warnThreshold kind object v < v)
  | 0x0F => decide (4 ≤ v)
  | 0x02 | 0x03 | 0x05 | 0x08 | 0x09 | 0x0B | 0x0D => decide (v < warnThreshold kind object v)
  | _ => false

/-- A margin that the module counts itself; any other is what its sensors measure. -/
def ownMargin (s : State) (kind object : Nat) : Option Int :=
  match kind with
  | 0x08 => (stackOf s object).probe.map (fun p => (p.readPs : Int))
  | 0x09 => (stackOf s object).probe.map (fun p => (p.writePs : Int))
  | 0x0A => some (ceLastHour s object)
  | 0x0B => some (minSpares s object)
  | 0x0C => some (spareBanksUsed s object)
  | 0x0E => some (sparesUsed s object)
  | 0x0F => some (fuseGens s object).length
  | 0x10 => some (recoveredEvents s object)
  | _ => none

/-- Has the condition held for its time? The module counts the probes of a stack itself; for what its sensors measure the command says so. -/
def warnHeld (s : State) (kind object : Nat) : Bool :=
  match kind with
  | 0x08 => decide (3 ≤ (stackOf s object).lowRead)
  | 0x09 => decide (3 ≤ (stackOf s object).lowWrite)
  | _ => true

/-- The objects of a warning kind: lanes, stacks, plots, fields (R451). -/
def warnObjects (kind : Nat) : Nat := if kind ≤ 0x07 then 128 else if kind ≤ 0x0C then 32 else if kind = 0x0D then 512 else 8

/-- A margin that has met its condition for its time raises the warning, once (R450); one that does not meet it raises none. -/
def execForesightWarning (kind object : Nat) (value : Int) (s : State) : Host.Outcome State Fault Refusal :=
  .next (
    let v := (ownMargin s kind object).getD value
    if warnMet kind object v && warnHeld s kind object && decide (object < warnObjects kind) then
      warn kind (warnSource kind object).1 object v (warnThreshold kind object v) (warnSource kind object).2 s
    else s)

/-! ## Pattern packs (R339, R439, R443 to R447) -/

/-- Step 1 of R445: format, stepping, series, directory bounds and digest. -/
def packFormOk (k : Pack) : Bool :=
  k.magic = 0x4B434150 && k.format = 1 && k.stepping = stepping && decide (k.minSeries ≤ fwSeries) && decide (k.bytes.length ≤ 2 ^ 25)
    && k.bytes.length = 0x80 + k.bodyLen + 96 && decide (k.count ≤ 4096) && decide (32 * k.count ≤ k.bodyLen)
    && (if k.retraction then k.count = 0 else k.retracts = 0)
    && k.patterns.all (fun q => decide (q.unit ≤ 8) && decide (1 ≤ q.weight)
      && decide (q.bodySize ≤ 6144) && decide (1 ≤ q.runUs) && decide (q.runUs ≤ 45) && decide (32 * k.count ≤ q.bodyOffset)
      && decide (q.bodyOffset + q.bodySize ≤ k.bodyLen))
    && decide (k.bodyDigest = Config.sha384 (packBody k))

def installedVersion (s : State) : Nat := (s.flash.pack.map (·.version)).getD 0

/-- The status with which a module answers a pack (R445, R446). -/
def packStatus (s : State) (k : Pack) : Nat :=
  if !packFormOk k then stVerifyFailed
  else if !k.sigOk then stSignatureFailed
  else if k.retraction then
    (if s.flash.pack.isSome && k.version = installedVersion s && k.retracts = installedVersion s then stOk else stVerifyFailed)
  else if installedVersion s < k.version then stOk else stSignatureFailed

/-- A pack judged: installed with PACK_INSTALLED, or IMAGE_REJECTED (R445). -/
def takePack (k : Pack) (s : State) : State :=
  if packStatus s k = stOk then
    mapTest (fun t => { t with retracted := k.retraction })
      (record (ev 0x0403 0 [(32, k.version)]) (mapFlash (fun fl => { fl with pack := some k }) s))
  else noteRejected 1 k.version (packStatus s k) s

/-- A root relays a pack that it has installed to every addressed member, in member order (R447). -/
def relayPack (k : Pack) (s : State) : State :=
  if s.mesh.root && s.mesh.addr.isSome then
    forEach ((s.mesh.members.filter (fun e => e.1 ≠ 0)).map (·.1)) (fun m s =>
      sendCtl 0x23 (memberAddr s m) (k.bytes.map (·.toNat))
        (mapTest (fun t => { t with relays := Tab.set t.relays m ⟨0, 0, k.version, s.ctl.localTime⟩ }) s)) s
  else s

/-- `test.pack.install` (R445). -/
def execTestPackInstall (h : Hdr) (b : Bulk) (x : Ext) (s : State) : Host.Outcome State Fault Refusal :=
  .next (request h ⟨0x0800, 16, false, ownerFleet, active, true⟩
    (fun s =>
      let d : Diag := ⟨0x0A, 0, 0, 0x1FF, 0, 0, 0, 445, 0⟩
      if !bulkOk h b s then verifyFailed (bulkDiag b.addr.toNat) s
      else
        let k := packAt (bulkData b s) x.sigOk
        let st := packStatus s k
        let s1 := takePack k s
        if st = stOk then ok [] (relayPack k s1)
        else if st = stVerifyFailed then verifyFailed { d with rule := if packFormOk k then 3 else 1, value := k.version } s1
        else signatureFailed { d with rule := if k.sigOk then 3 else 2 } s1) s)

/-- `test.cadence.set` (R439). -/
def execTestCadenceSet (h : Hdr) (cadence : U64) (s : State) : Host.Outcome State Fault Refusal :=
  .next (request h ⟨0x0801, 8, false, fleetKind, active, true⟩
    (fun s =>
      let c := clampTo 1 cadence.toNat
      okClamped [c] [] (mapTest (fun t => { t with assurance := decide (c.value = 1) }) s)) s)

/-- Chunk time of the last second on the cores of a field, those that carry a job slice or the others, in µs (R339, R439). -/
def chunkUs (s : State) (f : Nat) (job : Bool) : Nat :=
  (fieldOf s f).cores.foldl (fun n e => n + e.2.spentSince s.ctl.localTime job) 0

/-- Seconds since every job core of a field last completed its full pattern set; 0xFFFF_FFFF when not yet (R339). -/
def fullPassS (s : State) (f : Nat) : Nat :=
  (jobCores s f).foldl (fun n k => max n (match (Tab.get (fieldOf s f).cores k CoreTest.empty).passed with
    | none => 0xFFFFFFFF
    | some t => (s.ctl.localTime - t).toNat / 25000000)) (if (jobCores s f).isEmpty then 0xFFFFFFFF else 0)

/-- A field record of `test.status` (R339). -/
def testFieldRecord (s : State) (f : Nat) : List Byte :=
  let t := (fieldOf s f).stats
  lay [(4, chunkUs s f true), (4, chunkUs s f false), (4, t.run), (4, t.cut), (2, t.fails), (2, t.retestPasses), (4, fullPassS s f),
    (8, t.lastFail.toNat)]

/-- `test.status` (R339). -/
def execTestStatus (h : Hdr) (s : State) : Host.Outcome State Fault Refusal :=
  .next (request h ⟨0x0802, 0, false, ownerFleet, served, true⟩
    (fun s =>
      let relays := if s.mesh.root then s.test.relays else []
      ok (lay [(4, installedVersion s), (4, pack [(1, flag s.test.assurance), (1, flag s.test.retracted)]),
          (48, (s.flash.pack.map (fun k => (packMeas k).toNat)).getD 0), (8, relays.length)]
        ++ (List.range 8).flatMap (testFieldRecord s)
        ++ relays.flatMap (fun e => lay [(4, pack [(6, e.1), (2, e.2.state), (8, 0), (16, e.2.status)]), (4, e.2.version)])) s) s)

/-- A relayed pack at a member: it checks the pack itself and answers with its status; WRONG_STATE where `test.pack.install` is not
legal (R447). -/
def execPackRelay (bytes : List Byte) (sigOk : Bool) (s : State) : Host.Outcome State Fault Refusal :=
  .next (
    let k := packAt bytes sigOk
    let s := takeType 0x23 s
    match s.mesh.addr with
    | none => s
    | some a =>
      if s.mesh.root then s
      else
        let legal := active.contains s.ctl.mode
        let st := if legal then packStatus s k else stWrongState
        sendCtl 0x23 (memberAddr s 0) [a.toNat % 64, st] (if legal then takePack k s else s))

/-- A member's answer at the root: installed, retried, or refused (R447). -/
def execPackRelayAnswer (member status : Nat) (s : State) : Host.Outcome State Fault Refusal :=
  .next (mapTest (fun t => match Tab.find t.relays member with
    | none => t
    | some r =>
      if r.state ≠ 0 then t
      else { t with relays := Tab.set t.relays member { r with
        status := status, state := if status = stOk then 1 else if status = stWrongState || status = stBusy then 0 else 2 } }) (takeType 0x23 s))

/-- Once a minute a pending relay is sent again; after 1 h it is abandoned (R447). -/
def execPackRelayRetry (member : Nat) (s : State) : Host.Outcome State Fault Refusal :=
  .next (match Tab.find s.test.relays member with
    | none => s
    | some r =>
      if r.state ≠ 0 || !s.mesh.root then s
      else if 3600 * 25000000 ≤ (s.ctl.localTime - r.first).toNat then
        mapTest (fun t => { t with relays := Tab.set t.relays member { r with state := 3 } }) s
      else sendCtl 0x23 (memberAddr s member) (((s.flash.pack.map (·.bytes)).getD []).map (·.toNat)) s)

end Sys2Proof.Machine
end

