-- ==== Sys2Proof/Machine/Power.lean ====
section
/-! DEFINITION. The power envelope, the clocks, the adaptive loops and sleep (R452 to R468). -/

namespace Sys2Proof.Machine

open Sys2Proof

/-! ## Clocks (R452, R460, R463, R464) -/

/-- The clock of a mode, MHz. -/
def modeMhz (m : Nat) : Nat := if m = 0 then 1600 else if m = 1 then 2100 else 2400

/-- The target of the software setting (R460, R464 rank 5); in a shut-down test the Efficiency clock (R406). -/
def targetMhz (s : State) : Nat := if s.ctl.mode = .testing then 1600 else modeMhz s.pwr.clockMode

/-- Fields that are clocked. -/
def liveFields (s : State) : List Nat := (List.range 8).filter (fieldClocked s)

/-- Has a droop stretch of a field lasted 1 ms (R465)? -/
def longDroop (s : State) (f : Nat) : Bool :=
  match (clockOf s f).droop with
  | none => false
  | some t => decide (25000 ≤ (s.ctl.localTime - t).toNat)

/-- Does a loop of ranks 2 to 4 hold a field below a software clock (R464, R465)? -/
def loopLowers (s : State) (clock f : Nat) : Bool :=
  decide (moduleMhz s < clock) || decide ((clockOf s f).heldMhz < clock) || decide (0 < s.pwr.throttle16) || longDroop s f

/-- A lowering of a pinned clock: the first of an episode records ENVELOPE_PRESSURE (R465). -/
def notePressure (s : State) : State :=
  if s.pwr.pin && !s.pwr.pressure && (liveFields s).any (loopLowers s (targetMhz s)) then
    let applied := (liveFields s).foldl (fun n f => min n (fieldMhz s f)) 2400
    record (ev 0x0601 5 [(16, limitInForce s), (16, targetMhz s), (16, applied)]) (mapPwr (fun w => { w with pressure := true }) s)
  else s

/-! ## Commands -/

/-- `power.limit.set` (R458): clamped to 1,500 W to C. -/
def execPowerLimitSet (h : Hdr) (limit : U64) (s : State) : Host.Outcome State Fault Refusal :=
  .next (request h ⟨0x0B00, 8, false, ownerFleet, active, true⟩
    (fun s =>
      let c := clampNear 1500 s.pwr.ceiling limit.toNat
      okClamped [c] [] (mapPwr (fun w => { w with limitSet := c.value }) s)) s)

/-- `power.clock.set` (R465, R466): the settings are stored at once and the loops follow. Without a pin no episode stays open. A pin
set while a loop holds the clock lower opens one. -/
def execPowerClockSet (h : Hdr) (mode pin : U64) (s : State) : Host.Outcome State Fault Refusal :=
  .next (request h ⟨0x0B01, 16, false, ownerFleet, active, true⟩
    (fun s =>
      let m := clampTo 2 mode.toNat
      let p := clampTo 1 pin.toNat
      let below := decide (moduleMhz s < min (targetMhz s) (modeMhz m.value)) || decide (0 < s.pwr.throttle16) ||
        (liveFields s).any (fun f => decide ((clockOf s f).heldMhz < modeMhz m.value) || longDroop s f)
      let s1 := mapPwr (fun w => { w with clockMode := m.value, pin := decide (p.value = 1), pressure := w.pressure && decide (p.value = 1) }) s
      okClamped [m, p] [] (if below then notePressure s1 else s1)) s)

/-- `LOWER_CAUSE` (R468). -/
def lowerCause (s : State) : Nat :=
  flag (decide (moduleMhz s < targetMhz s)) + 2 * flag (decide (0 < s.pwr.throttle16))
    + 4 * flag ((liveFields s).any (fun f => decide ((clockOf s f).heldMhz < targetMhz s)))
    + 8 * flag ((liveFields s).any (fun f => (clockOf s f).droop.isSome))

/-- The record of `power.status` (R468). -/
def powerBytes (s : State) : List Byte :=
  lay [(2, limitInForce s), (2, s.pwr.limitSet), (2, s.pwr.ceiling), (2, s.pwr.supplyCap), (2, s.pwr.powerW), (2, s.pwr.peakW),
    (4, pack [(2, s.pwr.clockMode), (1, flag s.pwr.pin), (1, flag s.pwr.pressure), (4, lowerCause s), (4, s.pwr.throttle16)])] ++
  (List.range 8).flatMap (fun f => le 2 (fieldMhz s f)) ++
  lay [(8, s.pwr.droopStretches), (8, s.pwr.loweredUs)] ++
  (List.range 8).flatMap (fun f => le 2 (toBits 16 (clockOf s f).tempTenths))

/-- `power.status`; the peak starts again at each read (R468). -/
def execPowerStatus (h : Hdr) (s : State) : Host.Outcome State Fault Refusal :=
  .next (request h ⟨0x0B02, 0, false, anyKind, served, true⟩
    (fun s => ok (powerBytes s) (mapPwr (fun w => { w with peakW := w.powerW }) s)) s)

/-! ## Governor (R459 to R461, R465) -/

/-- The measurement of an interval: the 1 ms average over the last ten, and its peak (R459, R468). -/
def measure (averageW : Nat) (w : Power) : Power :=
  let l := (averageW :: w.recent).take 10
  let mean := l.foldl (· + ·) 0 / l.length
  { w with recent := l, powerW := mean, peakW := max w.peakW mean }

/-- One interval of 100 µs (R460, R461): over the limit the clock steps down to 1.0 GHz and then issue throttling tightens; after 10 ms
below 0.97 of the limit throttling relaxes and then the clock steps up to its target. A clock above a target that was set lower
steps down to it (R466). -/
def govern (averageW limit target : Nat) (w : Power) : Power :=
  let calm := if averageW * 100 < 97 * limit then w.calm + 1 else 0
  if limit < averageW then
    if 1000 < w.govMhz then { w with calm := 0, govMhz := w.govMhz - 50 }
    else { w with calm := 0, throttle16 := min 15 (w.throttle16 + 1) }
  else if target < w.govMhz then { w with calm := calm, govMhz := w.govMhz - 50 }
  else if 100 ≤ calm && (decide (w.govMhz < target) || decide (0 < w.throttle16)) then
    if 0 < w.throttle16 then { w with calm := 0, throttle16 := w.throttle16 - 1 } else { w with calm := 0, govMhz := min target (w.govMhz + 50) }
  else { w with calm := calm }

/-- States in which the governor acts: not LODGE or BOOT, and idle in a shut-down test (R406). -/
def governs (s : State) : Bool := s.ctl.mode ≠ .lodge && s.ctl.mode ≠ .boot && s.ctl.mode ≠ .testing

/-- Does a field run below its target clock now: held lower by a loop, or stretched by its droop guard (R464)? -/
def anyLowered (s : State) : Bool := (liveFields s).any (fun f => decide (fieldMhz s f < targetMhz s) || (clockOf s f).droop.isSome)

/-- An interval ends with this 100 µs average: measured in every state but LODGE, whose main domains are off (R459), governed where the governor acts (R460), and
counted in `LOWERED_US` when a field runs lowered at its end (R468; log entry 27). -/
def execGovernorInterval (averageW : Nat) (s : State) : Host.Outcome State Fault Refusal :=
  .next (if s.ctl.mode = .lodge then s
    else
      let s0 := mapPwr (fun w => { measure averageW w with intervalAt := s.ctl.localTime }) s
      let s1 := onlyIf (governs s) (mapPwr (govern averageW (limitInForce s) (targetMhz s))) s0
      let s2 := onlyIf (anyLowered s1) (mapPwr (fun w => { w with loweredUs := satAdd 64 w.loweredUs 100 })) s1
      if s1.pwr.govMhz < s.pwr.govMhz || s.pwr.throttle16 < s1.pwr.throttle16 || (liveFields s2).any (longDroop s2) then notePressure s2 else s2)

/-- Every field has run at the pinned clock for 1 s: the episode ends (R465). While a loop of ranks 2 to 4 lowers one, it does not. -/
def execPressureEpisodeEnd (s : State) : Host.Outcome State Fault Refusal :=
  .next (if s.pwr.pressure && (liveFields s).all (fun f => !loopLowers s (targetMhz s) f) then mapPwr (fun w => { w with pressure := false }) s
  else s)

/-! ## Thermal loops (R463) -/

/-- One step of a field's thermal throttle: down by 50 MHz while a sensor has been above 100 °C and until all read below 97 °C, then up by
50 MHz until the hold ends. -/
def throttleStep (gov : Nat) (t : Int) (c : FieldClock) : FieldClock :=
  let hot := decide (1000 < t) || (c.hot && decide (970 ≤ t))
  if hot then { c with hot := true, tempTenths := t, heldMhz := max 1000 (min c.heldMhz gov - 50) }
  else { c with hot := false, tempTenths := t, heldMhz := if c.heldMhz + 50 < gov then c.heldMhz + 50 else 2400 }

def execThermalThrottleStep (field : Nat) (tempTenths : Int) (s : State) : Host.Outcome State Fault Refusal :=
  .next (if s.ctl.mode = .lodge || s.ctl.mode = .boot || !fieldClocked s field then s
    else
      let s1 := updClock field (throttleStep (moduleMhz s) tempTenths) s
      if (clockOf s1 field).hot then notePressure s1 else s1)

/-- The limit of a trip sensor: 0 to 255 junction sensor 32 f + k, 256 the hub, 257 + p the engine of port p (log entry 27). -/
def tripLimit (sensor : Nat) : Int := if sensor ≤ 256 then 1100 else 950

/-- The thermal trip: ALERT, THERMAL_TRIP recorded by the lodge and kept for the flash summary of the next BOOT, LODGE (R463, R477). -/
def execThermalTrip (sensor : Nat) (tempTenths : Int) (s : State) : Host.Outcome State Fault Refusal :=
  .next (if s.ctl.mode = .lodge || decide (tempTenths ≤ tripLimit sensor) then s
    else
      let e := { ev 0x0602 4 [(16, sensor), (32, toBits 32 tempTenths)] with time := s.ctl.localTime }
      lodgeLoss 0x0602 (mapCtl (fun c => { c with tripAlert := true, tripPending := some e }) (mapEvt (fun v => v.push e) s)))

/-! ## Droop guard (R462) -/

/-- A stretch begins: counted once an episode. -/
def execDroopStretch (field : Nat) (s : State) : Host.Outcome State Fault Refusal :=
  .next (if s.ctl.mode = .lodge || (fieldOf s field).fenced || (clockOf s field).droop.isSome then s
    else mapPwr (fun w => { w with droopStretches := satInc 64 w.droopStretches })
      (updClock field (fun c => { c with droop := some s.ctl.localTime }) s))

/-- The µs of a stretch that no interval has counted (R468; log entry 27). -/
def droopUs (s : State) (field : Nat) : Nat :=
  match (clockOf s field).droop with
  | none => 0
  | some t => (s.ctl.localTime - (if (s.ctl.localTime - t).toNat < (s.ctl.localTime - s.pwr.intervalAt).toNat then t else s.pwr.intervalAt)).toNat / 25

/-- The stretch is released; its time counts in `LOWERED_US`, and one that lasted 1 ms is a lowering of a pinned clock (R465, R468). -/
def execDroopRelease (field : Nat) (s : State) : Host.Outcome State Fault Refusal :=
  .next (updClock field (fun c => { c with droop := none })
    (mapPwr (fun w => { w with loweredUs := satAdd 64 w.loweredUs (droopUs s field) }) (if longDroop s field then notePressure s else s)))

/-! ## Sleep (R455, R456) -/

/-- Has a plot nothing to do: not assigned, or without an active section (an array that has stopped runs none, R150), a running chain, a DMA, commit or message of its own
(R455)? A chunk on one of its cores keeps it awake (R440). -/
def plotIdle (s : State) (p : Nat) : Bool :=
  let pl := plotOf s p
  let f := fieldOf s (fieldOfPlot p)
  !f.cores.any (fun e => e.2.chunk.isSome && (coreOwner s (fieldOfPlot p) (e.1 / 32) (e.1 % 32)).map (·.1) = some (f.entry (p % 64)).position) &&
  (!pl.assigned ||
    ((pl.arr.active.isNone || pl.arr.stopped) && pl.chains.all (fun c => c.2.status = 2 || c.2.status = 3)
      && pl.slices.all (fun e => e.2.issue.isNone && e.2.ahead.isNone && e.2.confirm.isNone)
      && !f.transfers.any (fun e => e.2.plot = p) && !f.commits.any (fun e => e.2.plot = p)
      && !s.chans.any (fun c => c.2.waiters.any (fun w => w.plot = p))))

/-- An ACTIVE plot without work stops its clock (R455). -/
def sleepCheck (p : Nat) (s : State) : State :=
  if (plotOf s p).sleep = 0 && plotIdle s p then updPlot p (fun pl => { pl with sleep := 1 }) s else s

/-- A plot without work stops its clock; one that has been stopped for 100 µs is power-gated (R455). -/
def execPlotGate (plot : Nat) (s : State) : Host.Outcome State Fault Refusal :=
  .next (if (plotOf s plot).sleep = 0 then sleepCheck plot s
    else if (plotOf s plot).sleep = 1 && plotIdle s plot then updPlot plot (fun pl => { pl with sleep := 2 }) s
    else s)

/-- A waking plot becomes ACTIVE (R456). -/
def execPlotWakeComplete (plot : Nat) (s : State) : Host.Outcome State Fault Refusal :=
  .next (if (plotOf s plot).sleep = 3 then updPlot plot (fun pl => { pl with sleep := 0 }) s else s)

end Sys2Proof.Machine
end

