-- ==== Sys2Proof/Machine/Ladder.lean ====
section
/-! DEFINITION. The fault ladder above replay and retry: recovered-fault counts, core fence and slide, plot fence and re-placement, field
fence, bridges (R14, R23, R185, R187 to R192, R238, R415, R421 to R432, R441, R442, R450). -/

namespace Sys2Proof.Machine

open Sys2Proof

/-- States in which fields work (R436). -/
def inService (s : State) : Bool := active.contains s.ctl.mode

/-! ## A core that a finding has fenced (R415, R421) -/

/-- Is a physical core there to be fenced: in a live field, and not fenced before? -/
def coreLive (s : State) (f col row : Nat) : Bool :=
  decide (f < 8) && decide (col < 34) && decide (row < 32) && !(fieldOf s f).fenced && !(fieldOf s f).through.contains (col, row)

/-- A confirmation check on a core that another finding fences ends (R435). -/
def endCheck (f col row : Nat) (s : State) : State :=
  match jobSlice s f col row with
  | none => s
  | some (p, i) => updSlice p i (fun sl => { sl with confirm := none }) s

/-- A finding fences a core: it is stopped, with any chunk on it, until its slide has run (R190, R422). -/
def fenceCore (f col row cause : Nat) (s : State) : State :=
  endCheck f col row
    (updField f (fun v => { v with cores := Tab.mapVals v.cores (fun k c => if k = coreKey col row then c.abandon s.ctl.localTime else c), fenceDue := if v.coreFenced col row then v.fenceDue else v.fenceDue ++ [.core col row cause] }) s)

/-- One recovered fault of a core: at 3 within 3,600 s the core is fenced at once, without a confirmation check (R415). -/
def noteRecovered (f col row cause : Nat) (s : State) : State :=
  let k := coreKey col row
  let l := ((Tab.get (fieldOf s f).recovered k []).filter (within s.ctl.localTime 3600)) ++ [s.ctl.localTime]
  let s1 := updField f (fun v => { v with recovered := Tab.set v.recovered k l }) s
  recoveredWarning f (if 3 ≤ l.length then fenceCore f col row cause s1 else s1)

/-- A recovered fault of the core that carries a slice. -/
def noteSliceRecovered (p i cause : Nat) (s : State) : State :=
  noteRecovered (fieldOfPlot p) (sliceCore s p i).1 (sliceCore s p i).2 cause s

/-- The core that carries a slice is fenced. -/
def fenceSliceCore (p i cause : Nat) (s : State) : State :=
  fenceCore (fieldOfPlot p) (sliceCore s p i).1 (sliceCore s p i).2 cause s

/-! ## Plot fence (R424, R427, R442) -/

/-- Work of a plot ends where it stands: issues, checks, moves on their way and its share of every run (R427, R432). -/
def Slice.halt (sl : Slice) : Slice :=
  { sl with issue := none, ahead := none, confirm := none, stalls := [], work := Tab.mapVals sl.work (fun _ w => { w with stopped := true, ranges := [], issue := 0, redo := [], fills := [] }) }

def haltPlot (p : Nat) (s : State) : State :=
  updField (fieldOfPlot p) (fun f => { f with
    transfers := f.transfers.filter (fun e => e.2.plot ≠ p)
    commits := f.commits.filter (fun e => e.2.plot ≠ p)
    runs := Tab.mapVals f.runs (fun k r => { r with
      active := r.active.filter (fun a => a.1 ≠ p)
      transit := r.transit - (f.commits.filter (fun e => e.2.plot = p && e.2.run = k)).length }) })
    (updPlot p (fun pl => { pl with
      stopped := true
      slices := Tab.mapVals pl.slices (fun _ sl => sl.halt)
      arr := { pl.arr with stopped := true, switchTo := none, draining := false, flushed := false } }) s)

/-- PLOT_FENCE (R345): plot (0x1FF for a held position), position, origin. -/
def notePlotFence (f pos origin : Nat) (p : Option Nat) (s : State) : State :=
  record (match p with
    | some q => (ev 0x0114 2 [(16, q), (8, pos), (8, origin)]).atPlot q
    | none => (ev 0x0114 2 [(16, 0x1FF), (8, pos), (8, origin)]).atField f) s

/-- Has the re-placement of a plot begun (R428)? -/
def remapBegun (s : State) (p : Nat) : Bool := match (fieldOf s (fieldOfPlot p)).fenceDue with
  | .plot q :: _ => q = p
  | _ => false

/-- A plot fence of a position (R424, R442): recorded, and placed among the field's remaps, which run in the order of detection (R190; the fault of a core that
no slide can absorb keeps its place). An assigned plot stops until its re-placement is decided; any other position becomes FENCED in its turn. -/
def plotFence (f pos origin : Nat) (s : State) : State :=
  let due := fun (d : FenceDue) (s : State) => beginRemap f (updField f (fun v => { v with fenceDue := if origin = 1 then d :: v.fenceDue else v.fenceDue ++ [d] }) s)
  if (fieldOf s f).fenced || decide (1 < ((fieldOf s f).entry pos).posState) || (fieldOf s f).fenceDue.contains (.position pos) then s
  else match plotAtPos s f pos with
    | none => due (.position pos) (notePlotFence f pos origin none s)
    | some p =>
      if (plotOf s p).fencedBy ≠ 0 then s
      else if (plotOf s p).assigned then
        due (.plot p) (updPlot p (fun pl => { pl with fencedBy := origin, stopped := true }) (notePlotFence f pos origin (some p) s))
      else due (.position pos) (notePlotFence f pos origin (some p) s)

/-- A plot fence that R427 leaves without re-placement: the plot stops, its position becomes FENCED, its queues close, a job fault. -/
def plotLost (p cause : Nat) (s : State) : State :=
  let f := fieldOfPlot p
  let s1 := watchDegraded (fencePosition f (plotPosition s p)) s
  jobFault cause 0x0114 (updPlot p (fun pl => { pl with fencedBy := 0 }) (haltPlot p (closeReader p s1)))

/-- Steps of the plot grid between two positions (R192). -/
def gridSteps (a b : Nat) : Nat := (a / 8 - b / 8) + (b / 8 - a / 8) + (a % 8 - b % 8) + (b % 8 - a % 8)

/-- The nearest HELD position of a field, the lower number on a tie (R192); one whose fence waits is no target. -/
def nearestHeld (f : Field) (pos : Nat) : Option Nat :=
  ((List.range 64).filter (fun q => (f.entry q).posState = 1 && !f.fenceDue.contains (.position q))).foldl
    (fun b q => match b with
      | none => some q
      | some c => if gridSteps q pos < gridSteps c pos then some q else some c) none

/-- Targets tried in order until one passes its entry check: those that fail become FENCED, with soft repair entries for their failed
cores (R426). The target that passes, if one does. -/
def chooseTarget (f pos : Nat) (e : ReplaceEnv) (fuel : Nat) (s : State) : State × Option Nat :=
  match fuel with
  | 0 => (s, none)
  | n + 1 =>
    match nearestHeld (fieldOf s f) pos with
    | none => (s, none)
    | some t =>
      if e.badTargets.contains t then
        let cores := e.badCores.filter (fun c => match coreOwner s f c.1 c.2 with
          | some (q, _) => q = t
          | none => false)
        chooseTarget f pos e n (forEach cores (fun c => addSoft f (coreLoc f c.1 c.2) 2) (watchDegraded (fencePosition f t) s))
      else (s, some t)

/-- Chunks and confirmation checks on the cores of a plot are abandoned when it pauses (R435). -/
def abandonChecks (p : Nat) (s : State) : State :=
  let keys := (List.range 16).map (fun i => coreKey (sliceCore s p i).1 (sliceCore s p i).2)
  updPlot p (fun pl => { pl with slices := Tab.mapVals pl.slices (fun _ sl => { sl with confirm := none }) })
    (updField (fieldOfPlot p) (fun f => { f with cores := Tab.mapVals f.cores (fun k c => if keys.contains k then c.abandon s.ctl.localTime else c) }) s)

/-- Every commit of a plot that has been sent and whose D part is still full is issued again after the scan; the ledger treats a reissue as any commit
(R108, R111, R425 step 6). Under DIRECT, where no ledger tells the two apart, the part goes to the reissue: the answer to the first write releases
nothing. A commit that commit DMA has not yet sent goes out once. -/
def reissueCommits (p : Nat) (s : State) : State :=
  let f := fieldOfPlot p
  let again := (fieldOf s f).commits.filter (fun e => e.2.plot = p && decide (0 < e.2.status) && decide (e.2.part < 16) && (sliceOf s p e.2.slice).partFull e.2.slot e.2.part)
  forEach again (fun e => updField f (fun v => { v with
    commits := Tab.set (if e.2.mode = 0 then v.commits else Tab.set v.commits e.1 { e.2 with part := 16 }) v.nextId { e.2 with status := 0, bad := false }
    runs := Tab.upd v.runs e.2.run Run.empty (fun r => { r with transit := r.transit + 1 })
    nextId := v.nextId + 1 })) s

/-! ## What SECDED finds in queues and in the state that moves (R153, R159, R413, R423) -/

/-- The slice at which a channel's queue stands: the reading slice of a core queue, slice 0 of a plot queue's plot. Its counters take the errors of
the queue. -/
def Channel.readerAt (ch : Channel) : Nat := if ch.destType = 0 then ch.readerSlice else 0

/-- The number of a queue in ONDIE_UE and SPAD_WORD_REPEAT: 0 to 15 core queues, 16 to 23 plot queues (log entry 9). -/
def Channel.queueNumber (ch : Channel) : Nat := 16 * ch.destType + ch.readerQueue

/-- Single-bit errors in the words of a queue's entries corrected and counted as R81 gives for a scratchpad word (R159); the third correction of one word in a
job is recorded, its bank numbered 12 + the queue (log entry 9). -/
def correctQueue (ch : Channel) (words : List Nat) (s : State) : State :=
  forEach words (fun w s =>
    let sl := sliceOf s ch.readerPlot ch.readerAt
    let key := 0x10000 * (ch.queueNumber + 1) + w
    let n := Tab.get sl.ceWords key 0 + 1
    let s1 := setSlice ch.readerPlot ch.readerAt { sl with spadCe := satInc 64 sl.spadCe, ceWords := Tab.set sl.ceWords key n } s
    if n = 3 then record ((ev 0x010B 1 [(8, 12 + ch.queueNumber), (32, w)]).atSlice ch.readerPlot ch.readerAt) s1 else s1) s

/-- ONDIE_UE for each of some words of a queue, at a slice (R345). -/
def noteQueueUe (ch : Channel) (words : List Nat) (reader i : Nat) (s : State) : State :=
  forEach words (fun w => record ((ondieUe 2 ch.queueNumber w reader).atSlice ch.readerPlot i)) s

/-- Of some words of a ring those of a message. -/
def QMsg.wordsOf (m : QMsg) (l : List Nat) : List Nat := l.filter (fun w => decide (m.start ≤ w / 5) && decide (w / 5 < m.start + m.len))

/-- A word of a channel's queue goes on as an uncorrectable word of its message (R153). -/
def strikeQueue (ch : Channel) (c w : Nat) (s : State) : State :=
  updChanQueue c ch (fun q => { q with msgs := q.msgs.map (fun m => if m.pad then m else { m with ue := m.ue ++ m.wordsOf [w] }) }) (noteQueueUe ch [w] 7 ch.readerAt s)

/-- Entries of an accumulator bank, and those that a tile issue takes. -/
def bankEntries : Nat := 16384
def TileIssue.entries (ti : TileIssue) : Nat := ti.acc.length + ti.lo.length

/-- An entry of the accumulator memory becomes an uncorrectable word of the tile issue that it belongs to (R38, R153). -/
def TileIssue.strike (k : Nat) (ti : TileIssue) : TileIssue :=
  if bankEntries * ti.bank ≤ k && decide (k < bankEntries * ti.bank + ti.entries) then { ti with ue := ti.ue ++ [k - bankEntries * ti.bank] } else ti

def Slice.strikeAcc (k : Nat) (sl : Slice) : Slice := { sl with issue := sl.issue.map (TileIssue.strike k), ahead := sl.ahead.map (TileIssue.strike k) }

def strikeAcc (p i k : Nat) (s : State) : State :=
  record ((ondieUe 1 (k / bankEntries) (k % bankEntries / 2) 7).atSlice p i) (updSlice p i (Slice.strikeAcc k) s)

/-- The findings of a scan in a slice. -/
def ofSlice (p i : Nat) (l : List (Nat × Nat × Nat)) : List Nat := (l.filter (fun u => u.1 = p && u.2.1 = i)).map (·.2.2)

def addAll (l : List Nat) : Nat := l.foldl (· + ·) 0

/-- The memories of a slice and the queues that its plot reads, read through SECDED on the way to other cores (R153, R423): single-bit errors are corrected
and counted, double-bit errors recorded and carried. Those of the control state and the operand stores count with the scratchpad's (R413; log
entry 121, DESIGN CHOICE). -/
def scanState (p i : Nat) (e : ScanEnv) (s : State) : State :=
  let mine := fun (l : List (Nat × Nat)) => l.filterMap (fun q => match Tab.find s.job.channels q.1 with
    | none => none
    | some ch => if !ch.outbound && ch.readerPlot = p && ch.readerAt = i then some (ch, q.1, q.2) else none)
  let s1 := forEach (ofSlice p i e.accUe) (strikeAcc p i) (spadScan p i (ofSlice p i e.ueWords) s)
  let s2 := updSlice p i (fun sl => { sl with
    accCe := satAdd 64 sl.accCe (addAll (ofSlice p i e.accCe)), spadCe := satAdd 64 sl.spadCe (addAll (ofSlice p i e.controlCe)) }) s1
  forEach (mine e.queueUe) (fun q => strikeQueue q.1 q.2.1 q.2.2) (forEach (mine e.queueCe) (fun q => correctQueue q.1 [q.2.2]) s2)

/-! ## Re-placement (R425) -/

/-- The re-placement itself (R425 steps 3 to 6, R191, R192, R153): the target has woken for its entry check (R456), state moves to cores without idle gaps, the
remap table is written, the plot resumes, and the replays that were waiting with it. -/
def movePlot (p target : Nat) (e : ReplaceEnv) (s : State) : State :=
  let f := fieldOfPlot p
  let old := plotPosition s p
  let s1 := forEach (List.range 16) (fun i => scanState p i e.scan)
    (updPlot p (fun pl => { pl with fencedBy := 0, stopped := false, sleep := 0, slices := Tab.mapVals pl.slices (fun _ sl => { sl with gaps := [] }) })
      (abandonChecks p s))
  let s2 := updField f (fun v =>
    let v := v.setEntry old { v.entry old with posState := 3 }
    let v := v.setEntry target { v.entry target with posState := 0, replacedFrom := old }
    v.setEntry (p % 64) { v.entry (p % 64) with position := target }) s1
  let s3 := mapJob (fun j => { j with replacements := satInc 32 j.replacements }) s2
  let s4 := record ((ev 0x0111 2 [(8, old), (8, target), (32, e.scanUs)]).atPlot p) (reissueCommits p s3)
  forEach (plotOf s p).slices (fun v => replayWaiting p v.1 v.2.work) s4

/-! ## Core fence and slide (R14, R187, R421 to R423, R441, R442) -/

/-- Origin of the soft repair entry of a core fence: 3 for a field-test finding, else 2 (R409). -/
def softOrigin (cause : Nat) : Nat := if cause = 0x0502 then 3 else 2

/-- The router of a fenced core becomes a pass-through router (R182, R183). -/
def markThrough (f col row : Nat) : State → State :=
  updField f (fun v => { v with through := if v.through.contains (col, row) then v.through else v.through ++ [(col, row)] })

/-- A core fenced in the maps: its half-row's record and the pass-through map (R183, R187). -/
def markFenced (f col row : Nat) (s : State) : State :=
  markThrough f col row (updField f (fun v => { v with slide := Tab.set v.slide row ((v.slideRow row).setCode (eastHalf col) (halfCode col)) }) s)

/-- Assigned plots that a slide pauses: those that own a moved logical position (R14). -/
def slidePlots (s : State) (f col row : Nat) : List Nat :=
  (((movedCols col).map (fun c => positionAt c row)).eraseDups.filterMap (plotAtPos s f)).filter (fun p => (plotOf s p).assigned)

/-- The job slices that a slide moves: those of the moved logical columns (R14). -/
def slideSlices (s : State) (f col row : Nat) : List (Nat × Nat) :=
  (movedCols col).filterMap (fun c => match plotAtPos s f (positionAt c row) with
    | none => none
    | some p => if (plotOf s p).assigned then some (p, sliceAt c row) else none)

/-- The idle gaps stay with the cores (R437): a slice takes those of the core that it moves to, which carried the next slice on its way; none from a
spare or from a core without a job slice. -/
def shiftGaps (f col row : Nat) (s : State) : State :=
  let at_ := fun (c : Nat) => match plotAtPos s f (positionAt c row) with
    | none => none
    | some p => if (plotOf s p).assigned then some (p, sliceAt c row) else none
  let gaps := fun (c : Nat) => if decide (c < 16) == decide (col < 16) then ((at_ c).map (fun m => (sliceOf s m.1 m.2).gaps)).getD [] else []
  forEach (movedCols col) (fun c => match at_ c with
    | none => id
    | some m => updSlice m.1 m.2 (fun sl => { sl with gaps := gaps (if col < 16 then c + 1 else c - 1) })) s

/-- The state of the moving slices read through SECDED (R422 step 4, R423). -/
def scanMoved (l : List (Nat × Nat)) (e : SlideEnv) (s : State) : State := forEach l (fun m => scanState m.1 m.2 e.scan) s

/-- The slide (R422): every plot that owns a moved position wakes (R456), the affected positions are held from step 2 to step 6, paused plots lose their checks, the maps are written, the soft repair entry and
CORE_SLIDE follow; tiles of the moved slices that have failed meet a slide, and those that had failed twice are replayed on the new core (R420). A
slide is one step here, in which no packet arrives (log entry 101). -/
def slide (f col row cause : Nat) (e : SlideEnv) (s : State) : State :=
  let ps := slidePlots s f col row
  let moved := slideSlices s f col row
  let held := ((movedCols col).map (fun c => positionAt c row)).eraseDups
  let s1 := setHold f held (forEach ps abandonChecks (forEach (held.filterMap (plotAtPos s f)) wakePlot s))
  let s2 := forEach moved (fun m => updSlice m.1 m.2 (fun sl => { sl with work := Tab.mapVals sl.work (fun _ w => w.slide) })) s1
  let s3 := markFenced f col row (shiftGaps f col row (scanMoved moved e s2))
  let s4 := if ps.isEmpty then s3 else mapJob (fun j => { j with coreSlides := satInc 32 j.coreSlides }) s3
  let s5 := record ((ev 0x0110 2 [(8, row), (8, col), (16, ps.length), (32, e.pauseUs)]).atField f)
    (spareWarning f (addSoft f (coreLoc f col row) (softOrigin cause) s4))
  forEach moved (fun m => replayWaiting m.1 m.2 (sliceOf s m.1 m.2).work) (setHold f [] s5)

/-- The position that owns the failed core is fenced (R421), with its soft repair entry (R409); the core's router passes packets straight on (R182). -/
def fenceOwner (f col row cause : Nat) (s : State) : State :=
  let s1 := markThrough f col row (addSoft f (coreLoc f col row) (softOrigin cause) s)
  match coreOwner s f col row with
  | none => s1
  | some (pos, _) => plotFence f pos 1 s1

/-- A fenced spare uses up the spare of its half-row and moves nothing (R187, R442). -/
def fenceSpare (f col row cause : Nat) (s : State) : State :=
  spareWarning f (addSoft f (coreLoc f col row) (softOrigin cause) (markFenced f col row s))

/-- A core fence (R421): a slide where the half-row's spare is free and passes its check; else the spare is fenced and the plot too, or
the plot alone. -/
def coreFence (f col row cause : Nat) (e : SlideEnv) (s : State) : State :=
  let r := (fieldOf s f).slideRow row
  let east := eastHalf col
  let spare := if east then 17 else 16
  if r.lost east then markThrough f col row (addSoft f (coreLoc f col row) (softOrigin cause) s)
  else if col = spare && r.code east = 31 then fenceSpare f col row cause s
  else if r.code east ≠ 31 then fenceOwner f col row cause s
  else if !e.spareOk then fenceOwner f col row cause (fenceSpare f spare row cause s)
  else if !e.readable && (jobSlice s f col row).isSome then
    let s1 := markThrough f col row (addSoft f (coreLoc f col row) (softOrigin cause) s)
    match jobSlice s f col row with
    | none => s1
    | some (p, _) => jobFault 0x04 cause (haltPlot p s1)
  else slide f col row cause e s

/-- The remap of a core fence, when it is the field's next one (R190): a fence detected earlier goes first. The next fence begins its remap. -/
def runSlide (f col row : Nat) (e : SlideEnv) (s : State) : State :=
  match (fieldOf s f).fenceDue with
  | .core c r cause :: rest =>
    if c = col && r = row then beginRemap f (coreFence f col row cause e (updField f (fun v => { v with fenceDue := rest }) s)) else s
  | _ => s

/-- CORE_SLIDE: the fence of a core that a finding has stopped; without one, a double-bit error in the router of the core position, which
is recorded as ONDIE_UE and fences the core (R413, structure 16). -/
def execCoreSlide (field col row : Nat) (e : SlideEnv) (s : State) : Host.Outcome State Fault Refusal :=
  .next (if !inService s || !coreLive s field col row then s
    else if (fieldOf s field).coreFenced col row then runSlide field col row e s
    else runSlide field col row e (fenceCore field col row 0x010C (record ((ondieUe 16 0 (coreKey col row) 0).atField field) s)))

/-- The slack of a plot (R448, R450): warning below 25 ps, plot fence below 10 ps. A report covers the last second. -/
def execCoreSlackReport (plot : Nat) (slackPs : Int) (s : State) : Host.Outcome State Fault Refusal :=
  .next (if !inService s || !assignable s plot then s
    else
      let s1 := updPlot plot (fun pl => { pl with slackPs := slackPs, slackMin := some (min (pl.slackMin.getD slackPs) slackPs) }) s
      let s2 := if slackPs < 25 then warn 0x0D 2 plot slackPs 25 ((ev 0 0 []).atPlot plot) s1 else s1
      if slackPs < 10 then plotFence (fieldOfPlot plot) (plotPosition s2 plot) 2 s2 else s2)

/-! ## Field fence (R238, R431, R432) -/

/-- Requests to the stacks of a fenced field answered: merge entries return poison, held reads and queued writes fail, and so does every
other request to a block there (R238). -/
def answerFenced (f : Nat) (s : State) : State :=
  let there := fun (s : State) (q : MemReq) => match regionAt s.hbm.regions q.addr with
    | some (_, r) => decide (stackOfPhys (r.phys q.addr) / 4 = f)
    | none => false
  let s1 := forEach (rangeFrom (4 * f) 4) (fun k s =>
    forEach ((stackOf s k).merge.filter (fun e => !e.2.returned)) (fun e => returnNow k e.1) s) s
  let s2 := mapHbm (fun h => { h with filling := h.filling.filter (fun e => decide (e.1 / 32768 / 128 ≠ f)) }) s1
  forEach (List.range 8) (fun g s =>
    forEach ((fieldOf s g).requests.filter (fun e => there s e.2)) (fun e s =>
      if e.2.write then performWrite g e.1 [] s else performRead g e.1 false [] s) s) s2

/-- A packet that a fenced field loses: what another field waits for is answered Failed, or with poison (R238). -/
def losePacket (f : Nat) (v : Parcel) (s : State) : State :=
  match v.cargo with
  | .access g rid => onlyIf (g ≠ f) (failAccess g rid) s
  | .data g rid _ _ => onlyIf (g ≠ f) (failAccess g rid) s
  | .request g rid => onlyIf (g ≠ f) (failRequest g rid) s
  | .done g rid => onlyIf (g ≠ f) (fun s => concludeWrite g rid (updRequest g rid (fun q => { q with failed := true }) s)) s
  | .line g rid off bs _ => onlyIf (g ≠ f) (landKept g rid off bs true) s
  | .answer tag _ _ _ => landRemote tag none true true s
  | .reserve c p node => updChan c (fun k => { k with waiters := k.waiters.map (fun w => if w.plot = p && w.node = node then { w with held := false } else w) }) s
  | .window _ _ _ _ | .reply _ | .message _ => s

/-- Packets that the hold pools of a fenced field keep are lost. -/
def dropHolds (f : Nat) (s : State) : State :=
  forEach ((trellisOf s f).pools ++ (trellisOf s f).stalled) (losePacket f) (updTrellis f (fun _ => Trellis.empty) s)

/-- Regions with blocks on the stacks of a fenced field get its bit in `LOST_FIELDS` (R238). -/
def loseBlocks (f : Nat) (s : State) : State :=
  forEach (regionsWhere s (fun r => r.usesField f)) (fun id s =>
    noteRegion id (updRegion id (fun r => { r with lost := r.lost ||| BitVec.ofNat 8 (2 ^ f) }) s)) s

/-- A field fence in service (R432): plots and test stop, a running remap is abandoned, bridges and ports go down, outstanding requests are answered, routes avoid the
field, FIELD_FENCE, and a job fault where a job runs. The fenced field's remap entries are computed afresh at once, which R191 does not list and R24
gives for a mapping ('A fenced field maps no logical plot'; log entry 100, DESIGN CHOICE). -/
def fieldFence (f cause : Nat) (s : State) : State :=
  let running := decide (s.ctl.mode = .running) || decide (s.ctl.mode = .draining)
  let s1 := forEach (s.job.plots.filter (fun p => fieldOfPlot p = f)) (fun p s =>
    closeReader p (updPlot p (fun pl => { pl with fencedBy := 0 }) (haltPlot p s))) s
  let s2 := updField f (fun v => { v with fenced := true, fenceCause := cause, cores := [], fenceDue := [] }.map s.ctl.policyFull) s1
  let s3 := mapBridges (fun t => (bridgesOf f).foldl (fun t b => Tab.set t b.1 true) t) s2
  let s4 := takeDown (2 * f + 1) 0xB (takeDown (2 * f) 0xB s3)
  let s5 := loadKeys (loseBlocks f (answerFenced f s4))
  let s6 := dropHolds f (updField f (fun v => { v with runs := [], commits := [], poolCounters := [], transfers := [], requests := [] }) s5)
  let s7 := writeFieldRoutes (mapMesh (fun m => { m with remote := m.remote.filter (fun e => e.2.field ≠ f) }) s6)
  let s8 := record ((ev 0x0113 4 [(8, cause)]).atField f) (noteDegraded (degCauses s) s7)
  if running then jobFault 0x09 0x0113 s8 else s8

/-- FIELD_FENCE: causes 1 to 5 act in service, 6 to 8 at boot only (R431). -/
def execFieldFence (field cause : Nat) (s : State) : Host.Outcome State Fault Refusal :=
  .next (if (inService s || s.ctl.mode = .train || s.ctl.mode = .sealed) && decide (field < 8) && !(fieldOf s field).fenced
      && decide (1 ≤ cause) && decide (cause ≤ 5) then
    fieldFence field cause s
  else s)

/-- A bridge whose replay fails eight times in a job is marked down: BRIDGE_DOWN (cause 2), DEGRADED, a job fault; routes avoid it from the
next `job.start` (R185). -/
def execBridgeReplayFail (bridge : Nat) (s : State) : Host.Outcome State Fault Refusal :=
  .next (if !served.contains s.ctl.mode || Tab.get s.bridges bridge false || decide (9 < bridge) then s
    else
      let s1 := watchDegraded (mapBridges (fun t => Tab.set t bridge true)) s
      let s2 := record ((ev 0x0302 4 [(8, bridge), (8, 2)]).atBridge bridge) s1
      if s.ctl.mode = .loaded then s2 else jobFault 0x0A 0x0302 s2)

/-! ## Plot commands (R22, R23, R191, R424, R428) -/

/-- `plot.status` (R191, R187): eight remap tables, then the slide records. -/
def execPlotStatus (h : Hdr) (s : State) : Host.Outcome State Fault Refusal :=
  .next (request h ⟨0x0400, 0, false, anyKind, served, true⟩
    (fun s => ok ((List.range 8).flatMap (fun f => (List.range 64).flatMap (fun i => le 4 (remapWord s f i)))
      ++ (List.range 8).flatMap (fun f => (List.range 32).flatMap (fun r => le 2 ((fieldOf s f).slideRow r).word))) s) s)

/-- `plot.policy.set` (R22, R24): every field is mapped again before the response; the policy in force changes nothing. -/
def execPlotPolicySet (h : Hdr) (policy : U64) (s : State) : Host.Outcome State Fault Refusal :=
  .next (request h ⟨0x0401, 8, false, ownerFleet, [.ready], true⟩
    (fun s =>
      let c := clampTo 1 policy.toNat
      let full := decide (c.value = 1)
      okClamped [c] [] (if full == s.ctl.policyFull then s
        else watchDegraded (fun s => mapFlds (fun t => Tab.mapVals t (fun _ f => f.map full)) (mapCtl (fun k => { k with policyFull := full }) s)) s)) s)

/-- An assigned plot of the issuer's job. -/
def ownPlot (h : Hdr) (p : Nat) (s : State) : Bool := ownJob h s && decide (p < 512) && (plotOf s p).assigned

/-- `plot.pin` (R23); BUSY on a plot whose re-placement has begun (R428). -/
def execPlotPin (h : Hdr) (plot : U64) (s : State) : Host.Outcome State Fault Refusal :=
  .next (request h ⟨0x0402, 8, false, tenantKind, [.loaded, .running], true⟩
    (fun s => if remapBegun s plot.toNat then answer stBusy s
      else if !ownPlot h plot.toNat s then verifyFailed (fieldDiag 0 23 plot.toNat) s
      else ok [] (updPlot plot.toNat (fun pl => { pl with pinned := true }) s)) s)

/-- `plot.unpin` (R23); BUSY likewise, so that the pin in force when the re-placement is decided stands (R312, R428). -/
def execPlotUnpin (h : Hdr) (plot : U64) (s : State) : Host.Outcome State Fault Refusal :=
  .next (request h ⟨0x0403, 8, false, tenantKind, [.loaded, .running], true⟩
    (fun s => if remapBegun s plot.toNat then answer stBusy s
      else if !ownPlot h plot.toNat s then verifyFailed (fieldDiag 0 23 plot.toNat) s
      else ok [] (updPlot plot.toNat (fun pl => { pl with pinned := false }) s)) s)

/-- `plot.fence` (R424): a plot fenced as if a fault had been found; a plot that is not mapped does not exist (R316). While a re-placement of the plot runs, a
second one conflicts with it (R312). -/
def execPlotFence (h : Hdr) (plot : U64) (s : State) : Host.Outcome State Fault Refusal :=
  .next (request h ⟨0x0404, 8, false, ownerFleet, [.running], true⟩
    (fun s => if remapBegun s plot.toNat then answer stBusy s
      else if assignable s plot.toNat then ok [] (plotFence (fieldOfPlot plot.toNat) (plotPosition s plot.toNat) 3 s)
      else verifyFailed (fieldDiag 0 424 plot.toNat) s) s)

end Sys2Proof.Machine
end

