-- ==== Sys2Proof/Machine/FieldTest.lean ====
section
/-! DEFINITION. Field test by the greenhouse: chunks, their budget and eligibility, retests (R373, R436 to R442). -/

namespace Sys2Proof.Machine

open Sys2Proof

/-- Work on a slice begins: an idle gap of 1 µs or more that ends here joins the last 8. While the matrix unit holds a tile issue the core is not idle
(R437). -/
def Slice.noteWork (now : U64) (sl : Slice) : Slice :=
  let gap := (now - sl.lastWork).toNat / 25
  { sl with lastWork := now, gaps := if 1 ≤ gap && sl.issue.isNone && sl.ahead.isNone then lastN 8 (sl.gaps ++ [gap]) else sl.gaps }

def noteWork (p i : Nat) (s : State) : State := updSlice p i (Slice.noteWork s.ctl.localTime) s

/-- Work on a slice ends. -/
def endWork (p i : Nat) (s : State) : State := updSlice p i (fun sl => { sl with lastWork := s.ctl.localTime }) s

/-- Budget of a job core in each sliding second, µs (R439). -/
def testBudget (assurance : Bool) : Nat := if assurance then 30000 else 5000

/-- Is a job core idle (R437)? -/
def coreIdle (s : State) (p i : Nat) : Bool :=
  let pl := plotOf s p
  let sl := pl.slice i
  sl.issue.isNone && sl.ahead.isNone && sl.confirm.isNone && !pl.stopped && decide (25 ≤ (s.ctl.localTime - sl.lastWork).toNat)
    && pl.arr.toks.all (fun t => t.key / 128 ≠ i) && pl.arr.outs.all (fun o => o.src / 128 ≠ i) && pl.arr.pass.all (fun q => q.slice ≠ i)

/-- The predicted idle gap of a slice: the shortest of those known (R437). -/
def predictedGap (sl : Slice) : Option Nat := sl.gaps.foldl (fun b g => match b with
  | none => some g
  | some c => some (min c g)) none

/-- Length in µs of a chunk that may start on a core now, or none (R436 to R440). A chunk on a core outside the budget takes the 50 µs
that R437 gives as the longest. -/
def chunkLength (s : State) (f col row : Nat) : Option Nat :=
  match jobSlice s f col row with
  | none => some 50
  | some (p, i) =>
    match predictedGap (sliceOf s p i) with
    | none => none
    | some g =>
      let left := testBudget s.test.assurance - (coreTest s f col row).spentSince s.ctl.localTime true
      let n := min 50 (min (g - 10) left)
      if coreIdle s p i && decide (20 ≤ g) && decide (5 ≤ n) then some n else none

/-- The pattern that a number selects among patterns by their `WEIGHT`, below the sum of these (R444). -/
def weighted (l : List Pattern) (k : Nat) : Option Pattern :=
  match l with
  | [] => none
  | q :: r => if k < q.weight then some q else weighted r (k - q.weight)

/-- The patterns of the installed pack for a use, 0 in service, 1 start-up test, 2 shut-down test, 3 confirmation check (R444). -/
def patternsFor (s : State) (use : Nat) : List Pattern := ((s.flash.pack.map (·.patterns)).getD []).filter (fun q => bit q.use use)

/-- The pattern of a chunk: a built-in one, or one of the pack's in-service patterns that fit into the chunk, by weight; which one runs next is open within these
shares, a free value (R444; log entry 28). -/
def chunkPattern (s : State) (us : Nat) : Option Nat :=
  let l := (patternsFor s 0).filter (fun q => decide (q.runUs ≤ us))
  if Config.freeBool s.free then (weighted l ((Config.freeU64 (s.free + 1)).toNat % (l.map (·.weight)).sum)).map (·.patId) else none

/-- Cores of a field with a chunk, as (column, row). -/
def chunkCores (s : State) (f : Nat) : List (Nat × Nat) :=
  ((fieldOf s f).cores.filter (fun e => e.2.chunk.isSome)).map (fun e => (e.1 / 32, e.1 % 32))

/-- The plot position at which a core lies for the field test: the one that it carries or, in a LOST half-row, would carry; none for a spare (R436). -/
def testPosition (s : State) (f col row : Nat) : Option Nat :=
  let r := (fieldOf s f).slideRow row
  (({ r with westLost := false, eastLost := false } : SlideRow).logicalCol col).map (fun c => positionAt c row)

/-- May a core take a chunk: one core of a plot position at a time, 68 of the field (R436), not within 10 ms of four cut chunks (R438)? -/
def chunkRoom (s : State) (f col row : Nat) : Bool :=
  let c := coreTest s f col row
  c.chunk.isNone && decide ((s.ctl.localTime - c.notBefore).toNat < 2 ^ 63) && decide ((chunkCores s f).length < 68)
    && (match testPosition s f col row with
      | none => true
      | some pos => (chunkCores s f).all (fun k => testPosition s f k.1 k.2 ≠ some pos))

/-- May a core outside the job be tested now? -/
def idleCore (s : State) (f col row : Nat) : Bool :=
  coreLive s f col row && !(fieldOf s f).coreFenced col row && (jobSlice s f col row).isNone && chunkRoom s f col row

/-- Is it a core's turn among those outside the job: round robin in ascending order of column and row, each that may be tested now (R440; log entry 28)? -/
def testTurn (s : State) (f col row : Nat) : Bool :=
  let last := (fieldOf s f).testTurn
  let k := coreKey col row
  (List.range ((k + 1088 - last - 1) % 1088)).all (fun i =>
    let c := (last + 1 + i) % 1088
    !idleCore s f (c / 32) (c % 32))

/-- The plot of a core that carries no job slice wakes for a chunk on it (R440, R456). -/
def wakeForChunk (f col row : Nat) (s : State) : State :=
  if (jobSlice s f col row).isSome then s
  else match (coreOwner s f col row).bind (fun o => plotAtPos s f o.1) with
    | none => s
    | some p => wakePlot p s

/-- A chunk starts on a core: a job core that is idle, or the next core outside the job. -/
def execFieldTestChunk (field col row : Nat) (s : State) : Host.Outcome State Fault Refusal :=
  .next (
    if !inService s || !coreLive s field col row || (fieldOf s field).coreFenced col row
        || !chunkRoom s field col row || ((jobSlice s field col row).isNone && !testTurn s field col row) then s
    else match chunkLength s field col row with
      | none => s
      | some n =>
        let job := (jobSlice s field col row).isSome
        drawFree (drawFree (updField field (fun v => { v with testTurn := if job then v.testTurn else coreKey col row })
          (updCore field col row (fun c => { c with chunk := some (s.ctl.localTime, n, job), pattern := chunkPattern s n }) (wakeForChunk field col row s)))))

/-- A chunk that has ended: counted, and its time kept for the budget (R339, R439). -/
def closeChunk (f col row : Nat) (us : Nat) (cut : Bool) (s : State) : State :=
  match (coreTest s f col row).chunk with
  | none => s
  | some _ =>
    let s1 := updField f (fun v => { v with stats := { v.stats with run := satInc 32 v.stats.run, cut := if cut then satInc 32 v.stats.cut else v.stats.cut } }) s
    updCore f col row (fun c => { c.spend s.ctl.localTime us with
      cuts := if cut then c.cuts + 1 else 0
      notBefore := if cut && decide (3 ≤ c.cuts) then s.ctl.localTime + 250000#64 else c.notBefore }) s1

/-- A chunk completes. Whether it completes the core's full pattern set, whose length R440 gives only as about 1.2 s, is a free value
(log entry 28). -/
def execChunkEnd (field col row : Nat) (s : State) : Host.Outcome State Fault Refusal :=
  .next (match (coreTest s field col row).chunk with
    | none => s
    | some (_, n, _) =>
      drawFree (updCore field col row (fun c => { c with passed := if Config.freeBool s.free then some s.ctl.localTime else c.passed })
        (closeChunk field col row n false s)))

/-- Work reaches a core in a chunk (R438). -/
def execChunkCut (field col row : Nat) (s : State) : Host.Outcome State Fault Refusal :=
  .next (match (coreTest s field col row).chunk with
    | none => s
    | some (start, n, _) => closeChunk field col row (min n (usSince s start)) true s)

/-- A pattern that failed is run again: a pass counts as a recovered fault, a second failure fences the core (R415, R441, R442). -/
def execPatternRetest (field col row pattern : Nat) (passes : Bool) (signature : U64) (s : State) : Host.Outcome State Fault Refusal :=
  .next (if !inService s || !coreLive s field col row then s
    else if passes then
      noteRecovered field col row 0x0502
        (updField field (fun v => { v with stats := { v.stats with retestPasses := satInc 16 v.stats.retestPasses } }) s)
    else
      let s1 := updField field (fun v => { v with stats := { v.stats with fails := satInc 16 v.stats.fails, lastFail := s.ctl.localTime } }) s
      fenceCore field col row 0x0502
        (record ((ev 0x0502 2 [(32, pattern), (8, col), (8, row), (8, field), (8, 0), (64, signature.toNat)]).atField field) s1))

end Sys2Proof.Machine
end

