-- ==== Sys2Proof/Machine/Special.lean ====
section
/-! DEFINITION. The special-function unit (R53, R129): special values, and for every other operand a value of the unit's fixed tables that lies
within the error bound of R53 (log entry 30). The exact function is computed in fixed point, to far more bits than the bounds ask for. -/

namespace Sys2Proof

/-! ## Fixed point with 128 fractional bits -/

/-- A finite value in fixed point, toward minus infinity below the last bit. -/
def fixOf (x : Num) : Int := match x with | .fin n m e => (let v : Int := if 0 ≤ e + 128 then (m * 2 ^ (e + 128).toNat : Nat) else (m / 2 ^ (-(e + 128)).toNat : Nat); if n then -v else v) | _ => 0

/-- A fixed-point value, times 2^k. -/
def ofFix (v k : Int) : Num := .fin (decide (v < 0)) v.natAbs (k - 128)

def fixMul (a b : Int) : Int := a * b / 2 ^ 128
def fixOne : Int := 2 ^ 128
/-- ln 2, 2π and 2/√π. -/
def fixLn2 : Int := 235865763225513294137944142764154484399
def fixTwoPi : Int := 2138057168129933495719360746323741566601
def fixErf : Int := 383967533763538142977158567454335403656

/-- Σ rⁿ/n! from the term `t` of index n on. -/
def expSeries (r : Int) (fuel n : Nat) (t acc : Int) : Int :=
  match fuel with
  | 0 => acc
  | k + 1 => let u := fixMul t r / n; expSeries r k (n + 1) u (acc + u)

/-- The alternating series of sine (from `t` = x, n = 2) and cosine (from `t` = 1, n = 1). -/
def circSeries (x : Int) (fuel n : Nat) (t acc : Int) : Int :=
  match fuel with
  | 0 => acc
  | k + 1 => let u := -(fixMul (fixMul t x) x) / (n * (n + 1)); circSeries x k (n + 2) u (acc + u)

/-- Σ z^(2n+1)/(2n+1): the inverse hyperbolic tangent. -/
def atanhSeries (z : Int) (fuel n : Nat) (t acc : Int) : Int :=
  match fuel with
  | 0 => acc
  | k + 1 => let u := fixMul (fixMul t z) z; atanhSeries z k (n + 2) u (acc + u / n)

/-- Σ (−1)ⁿ x^(2n+1)/(n! (2n+1)). -/
def erfSeries (x : Int) (fuel n : Nat) (t acc : Int) : Int :=
  match fuel with
  | 0 => acc
  | k + 1 => let u := -(fixMul (fixMul t x) x) / n; erfSeries x k (n + 1) u (acc + u / (2 * n + 1))

/-- Square root of a natural number, rounded down, by `fuel` steps of bisection below `hi`. -/
def rootBetween (n lo hi fuel : Nat) : Nat :=
  match fuel with
  | 0 => lo
  | k + 1 => let m := (lo + hi) / 2; if m * m ≤ n then rootBetween n m hi k else rootBetween n lo m k

/-! ## The exact functions -/

/-- The value of a function of R129 at a finite operand for which R53 gives no special value. -/
def sfuExact (code : Nat) (x : Num) : Num :=
  match x with
  | .fin neg m e =>
    let f := fixOf x
    match code with
    | 0 => ofFix (expSeries (f % fixLn2) 40 1 fixOne fixOne) (f / fixLn2)
    | 1 =>
      let v : Int := (m * 2 ^ 128 / 2 ^ Nat.log2 m : Nat)
      let z := (v - fixOne) * 2 ^ 128 / (v + fixOne)
      ofFix ((e + (Nat.log2 m : Int)) * fixLn2 + 2 * atanhSeries z 50 3 z z) 0
    | 2 => .fin neg (2 ^ 200 / m) (-e - 200)
    | 3 =>
      let odd := e % 2 ≠ 0
      let r := rootBetween ((if odd then 2 * m else m) * 2 ^ 200) 0 (2 ^ 113) 114
      .fin false (2 ^ 300 / r) (-((if odd then e - 1 else e) / 2) - 200)
    | 4 => ofFix (circSeries (f % fixTwoPi) 40 2 (f % fixTwoPi) (f % fixTwoPi)) 0
    | 5 => ofFix (circSeries (f % fixTwoPi) 40 1 fixOne fixOne) 0
    | _ => if 6 * fixOne ≤ f.natAbs then .fin neg 1 0 else ofFix (fixMul fixErf (erfSeries f 160 1 f f)) 0
  | x => x

/-! ## Error bounds (R53) -/

/-- Is a result within so many units in the last place of the correctly rounded result, or within 2^−22 where that counts? -/
def withinUlps (r : U32) (y : Num) (ulps : Nat) (absolute : Bool) : Bool :=
  let d := ((f32 r).add y.neg).abs
  let ulp := match y with | .fin _ m e => (fmt32.roundMag false m e).2 | _ => 0
  d.isFin && (!(Num.fin false ulps ulp).lt d || (absolute && !(Num.fin false 1 (-22)).lt d))

/-- Does a result of a function at an operand meet the bound of R53? -/
def sfuBound (code : Nat) (x : Num) (r : U32) : Bool :=
  match code with
  | 0 => withinUlps r (sfuExact 0 x) 2 false
  | 1 => withinUlps r (sfuExact 1 x) 2 true
  | 2 => withinUlps r (sfuExact 2 x) 1 false
  | 3 => withinUlps r (sfuExact 3 x) 2 false
  | 6 => withinUlps r (sfuExact 6 x) 0 true
  | c => if (Num.fin false 1 15).lt x.abs then (f32 r).isFin && !(Num.fin false 1 0).lt (f32 r).abs else withinUlps r (sfuExact c x) 0 true

/-! ## The unit -/

/-- A zero of the sign of `x`. -/
def zeroLike (x : U32) : U32 := x &&& 0x80000000#32
def infLike (x : U32) : U32 := zeroLike x ||| 0x7F800000#32
def isSub (x : U32) : Bool := bits x.toNat 23 8 = 0 && bits x.toNat 0 23 ≠ 0

/-- A result as the unit delivers it: canonical NaN, subnormals flushed. -/
def sfuOut (r : U32) : U32 := if (f32 r).isNan then canonNan else if isSub r then zeroLike r else r

/-- A value of the fixed tables, of which the spec gives the bound alone: free within the bound (log entry 30). Beyond the range in which the bound
asks for a value, the zero of the operand's sign stands for a table value out of range. -/
def sfuTabled (code : Nat) (x : U32) : U32 :=
  let t := sfuOut (Config.sfuTable code x)
  if sfuBound code (f32 x) t then t
  else if (code = 4 || code = 5) && (Num.fin false 1 15).lt (f32 x).abs then zeroLike x
  else sfuOut (toF32 (sfuExact code (f32 x)))

/-- Functions 0x00 to 0x06 (R129): the special values of R53, otherwise the fixed tables. exp is +0 where it lies below 2^−126, which is below
−126 ln 2. -/
def sfu (code : Nat) (x0 : U32) : U32 :=
  let x := if isSub x0 then zeroLike x0 else x0
  let v := f32 x
  let neg := bit x.toNat 31
  let table := sfuTabled code x
  match v with
  | .nan => canonNan
  | .inf _ =>
    match code with
    | 0 => if neg then 0#32 else x
    | 1 => if neg then canonNan else x
    | 2 => zeroLike x
    | 3 => if neg then canonNan else 0#32
    | 6 => zeroLike x ||| 0x3F800000#32
    | _ => canonNan
  | .fin _ m e =>
    match code with
    | 0 => if Num.lt (.fin false 2218 0) (v.mul (.fin false 25 0)) then 0x7F800000#32
      else if fixOf v < -(126 * fixLn2) then 0#32 else table
    | 1 => if m = 0 then 0xFF800000#32 else if neg then canonNan else table
    | 2 => if m = 0 then infLike x else if Num.lt (.fin false 1 126) (.fin false m e) then zeroLike x else table
    | 3 => if m = 0 then infLike x else if neg then canonNan else table
    | 6 => if m = 0 then x else table
    | _ => table

end Sys2Proof
end

