-- ==== Sys2Proof/Machine/Array.lean ====
section
/-! DEFINITION. The function units of a plot's array at positions 0 to 4 and 7: vector ALUs, special-function unit, reduce unit, steering
unit, matrix-issue port (R112, R117, R128 to R132, R136, R137, R417). -/

namespace Sys2Proof.Machine

open Sys2Proof

/-! ## Firing -/

/-- A firing that may happen now: its node, the tag it takes, the lanes of each port, the ports whose tokens it takes. -/
structure Firing where
  sec : Section
  nd : Node
  key : Nat
  tag : BitVec 16
  ports : List Nat
  ins : List (List U32)
  deriving DecidableEq, Repr

/-- Do the function units of a slice work now? Work that reaches a core in a chunk waits until the chunk has stopped (R438). -/
def arrayRuns (s : State) (p i : Nat) : Bool :=
  let pl := plotOf s p
  (decide (s.ctl.mode = .running) || decide (s.ctl.mode = .draining)) && pl.assigned && !pl.stopped && decide (pl.sleep = 0)
    && pl.arr.active.isSome && !pl.arr.stopped && (pl.slice i).confirm.isNone && !coreDue s p i && !inChunk s p i

/-- The lanes of a port: its constant, or its earliest token with the tag. -/
def portLanes (sec : Section) (a : Arr) (key : Nat) (nd : Node) (tag : BitVec 16) (port : Nat) : List U32 :=
  match nd.constPort port with
  | some c => sec.constLanes (keySlice key) c
  | none => ((a.at_ key port tag).map (·.lanes)).getD (List.replicate 16 0#32)

/-- The firing that a source makes next, with its own tag (R117, R121, R127, R143). -/
def sourceFiring (sec : Section) (a : Arr) (key : Nat) (nd : Node) : Option Firing :=
  let n := Tab.get a.emitted key 0
  if a.switchTo.isSome || a.draining || !a.windowOpen sec nd.ctx n then none
  else
    let tag := mkTag nd.ctx n
    some ⟨sec, nd, key, tag, [], (List.range nd.inCount).map (portLanes sec a key nd tag)⟩

/-- The firing of a node that takes tokens of a tag, when all its operands are there (R117). -/
def tokenFiring (sec : Section) (a : Arr) (key : Nat) (nd : Node) (tag : BitVec 16) : Option Firing :=
  if (a.readyAt sec key nd tag).isSome then
    some ⟨sec, nd, key, tag, a.firingPorts sec key nd tag, (List.range nd.inCount).map (portLanes sec a key nd tag)⟩
  else none

/-- The firings of a node that are ready: one of a source, one for each tag of another node. -/
def nodeFirings (sec : Section) (a : Arr) (key : Nat) (nd : Node) : List Firing :=
  if a.blocked key then []
  else if nd.isSource then (sourceFiring sec a key nd).toList
  else (((a.toks.filter (fun t => t.key = key)).map (·.tag)).eraseDups).filterMap (tokenFiring sec a key nd)

/-- Firings that stand open in a plot, one for each node and tag. -/
def openFirings (s : State) (p : Nat) : List Firing :=
  match activeSection s p with
  | none => []
  | some sec => sec.nodes.flatMap (fun e => nodeFirings sec (plotOf s p).arr e.1 e.2)

/-! ## What a node of the access units reaches -/

/-- The slice that a direction reaches from a slice (R16, R79): own, west, east, north, south. -/
def reachSlice (i dir : Nat) : Option Nat :=
  match dir with
  | 0 => some i
  | 1 => if i % 4 = 0 then none else some (i - 1)
  | 2 => if i % 4 = 3 then none else some (i + 1)
  | 3 => if i < 4 then none else some (i - 4)
  | 4 => if 12 ≤ i then none else some (i + 4)
  | _ => none

/-- The agent code of the accessor as the slice it reaches sees it (R62). -/
def reachAgent (dir : Nat) : Nat := match dir with | 0 => 2 | 1 => 4 | 2 => 3 | 3 => 6 | _ => 5

def Node.dir (nd : Node) : Nat := bits nd.modf 0 3
def Node.hold (nd : Node) : Bool := bit nd.modf 3
def Node.slotNo (nd : Node) : Nat := bits nd.arg.toNat 0 6
def Node.base (nd : Node) : Nat := bits nd.arg.toNat 0 19

/-- The slice that a node of key `k` reaches. -/
def Node.target (nd : Node) (k : Nat) : Nat := (reachSlice (keySlice k) nd.dir).getD (keySlice k)

/-- A node's cursor: part and byte position; the slot's index `idx` where the section has not set it. -/
def cursorOf (s : State) (p key idx : Nat) : Nat × Nat := Tab.get (plotOf s p).arr.cursors key (idx, 0)

/-- The record of a channel of the loaded job. -/
def channelOf (s : State) (c : Nat) : Option Channel := Tab.find s.job.channels c

/-- Does a node wait to send? -/
def nodeWaits (s : State) (p key : Nat) : Bool := s.chans.any (fun e => e.2.waiters.any (fun w => w.plot = p && w.node = some key))

/-- The channel of a queue node. -/
def Node.channel (nd : Node) : Nat := bits nd.arg.toNat 0 8

/-- Would a firing of the access units wait: on a slot part, on a queue (R67, R134, R163)? -/
def firingStalls (s : State) (p : Nat) (fr : Firing) : Bool :=
  let j := fr.nd.target fr.key
  let sl := sliceOf s p j
  if keyPos fr.key = 5 && fr.nd.op = 0 then
    !sl.partFull fr.nd.slotNo (cursorOf s p fr.key (sl.slot fr.nd.slotNo).cons).1
  else if keyPos fr.key = 5 && fr.nd.op = 1 then
    sl.partFull fr.nd.slotNo (cursorOf s p fr.key (sl.slot fr.nd.slotNo).prod).1
  else if keyPos fr.key = 6 && fr.nd.op = 0 then
    match channelOf s fr.nd.channel with
    | none => true
    | some ch => (chanQueue s fr.nd.channel ch).front.isNone
  else if keyPos fr.key = 6 then nodeWaits s p fr.key
  else false

/-! ## Which firing a unit takes (R118) -/

/-- When the operands of a firing arrived. A source has none: its next firing is ready from its last one on (log entry 38). -/
def Firing.arrived (fr : Firing) (a : Arr) : Nat × Nat :=
  if fr.nd.isSource then (Tab.get a.firedAt fr.key 0, Tab.get a.firedAt fr.key 0) else (a.readyAt fr.sec fr.key fr.nd fr.tag).getD (0, 0)

def Firing.score (fr : Firing) (a : Arr) : List Nat := a.score fr.sec fr.key fr.tag (fr.arrived a)

/-- Is a firing the one that its unit takes: none of the unit's others that could complete now goes before it (R118)? A firing that would wait
on a slot or a queue keeps no other back; one that is being retried goes ahead of every other of its unit (R417). -/
def preferred (s : State) (p : Nat) (fr : Firing) : Bool :=
  let a := (plotOf s p).arr
  match a.retrying.find? (fun k => k.1 / 16 = fr.key / 16) with
  | some k => decide (k = (fr.key, fr.tag))
  | none => best a
where
  best (a : Arr) : Bool :=
    firingStalls s p fr || (fr.sec.nodes.filter (fun e => e.1 / 16 = fr.key / 16)).all (fun e =>
      (nodeFirings fr.sec a e.1 e.2).all (fun v => firingStalls s p v || scoreLe (fr.score a) (v.score a)))

/-- The firing that a command names, if the node holds the operation at a position of its unit, may fire, and is the one that its unit takes. -/
def findFiring (n : NodeRef) (positions : List Nat) (op : Nat) (s : State) : Option Firing :=
  if !positions.contains n.pos || !arrayRuns s n.plot n.slice then none
  else
    let a := (plotOf s n.plot).arr
    match activeSection s n.plot with
    | none => none
    | some sec => match Tab.find sec.nodes (refKey n) with
      | none => none
      | some nd =>
        if nd.op ≠ op || a.blocked (refKey n) then none
        else match (if nd.isSource then sourceFiring sec a (refKey n) nd else tokenFiring sec a (refKey n) nd n.tag) with
          | none => none
          | some fr => if preferred s n.plot fr then some fr else none

/-- The operands of a firing leave the store; a source has emitted one more. A firing takes a cycle of its unit. -/
def Firing.take (fr : Firing) (a : Arr) : Arr :=
  let b : Arr := { a with clock := a.clock + 1 }
  if fr.nd.isSource then { b with emitted := Tab.upd b.emitted fr.key 0 (· + 1), firedAt := Tab.set b.firedAt fr.key b.clock }
  else b.takeToks fr.key fr.ports fr.tag

/-- A firing with what it does to the array: operands taken, retirement counted, room given to waiting results. -/
def fire (n : NodeRef) (fr : Firing) (res : Arr → Arr) (s : State) : State :=
  noteWork n.plot n.slice
    (updArr n.plot (fun a => (res ((fr.take a).retire fr.sec fr.nd fr.tag)).pump fr.sec) s)

/-- A result of a firing to some of its destinations. -/
def Firing.send (fr : Firing) (dests : List Dest) (tag : BitVec 16) (lanes : List U32) (a : Arr) : Arr :=
  a.emit fr.sec fr.key dests (fr.nd.resultTag tag) lanes

/-- A firing whose result goes to both destinations with its tag. -/
def fireResult (n : NodeRef) (fr : Firing) (lanes : List U32) : State → State := fire n fr (fr.send fr.nd.dests fr.tag lanes)

/-- A node that computes lanes from lanes. -/
def fireLanes (n : NodeRef) (positions : List Nat) (op : Nat) (f : Node → List (List U32) → List U32) (s : State) : State :=
  match findFiring n positions op s with
  | none => s
  | some fr => fireResult n fr (f fr.nd fr.ins) s

/-- COMPUTE_FAULT (R345): position, operation, cause 1 residue, 2 double-bit error. -/
def noteCompute (n : NodeRef) (op cause : Nat) : State → State :=
  record ((ev 0x0103 2 [(8, n.pos), (8, op), (8, cause)]).atSlice n.plot n.slice)

/-- A residue mismatch (R52, R416, R417): a retry that passes is a recovered fault; one that fails too starts the confirmation check with the
operands kept; a failure after that, when the core was replaced, is a job fault. -/
def residueFault (n : NodeRef) (fr : Firing) (op misses : Nat) (go : State → State) (s : State) : State :=
  let s1 := mapJob (fun j => { j with opRetries := satInc 32 j.opRetries }) (noteCompute n op 1 s)
  if (plotOf s n.plot).arr.retrying.contains (fr.key, fr.tag) then jobFault 0x03 0x0103 (noteCompute n op 1 s)
  else if misses = 1 then noteSliceRecovered n.plot n.slice 0x0103 (go s1)
  else updArr n.plot (fun a => { a with retrying := a.retrying ++ [(fr.key, fr.tag)] }) (updSlice n.plot n.slice (fun sl => { sl with confirm := some (fr.key + 1) }) s1)

/-- A node whose arithmetic the residue checker covers. -/
def fireChecked (n : NodeRef) (op : Nat) (q : Residue) (f : List (List U32) → List U32) (s : State) : State :=
  match findFiring n [0, 1] op s with
  | none => s
  | some fr =>
    let go := fireResult n fr (f fr.ins)
    if q.misses = 0 then updArr n.plot (fun a => { a with retrying := a.retrying.filter (· ≠ (fr.key, fr.tag)) }) (go s)
    else residueFault n fr op q.misses go s

def in0 (l : List (List U32)) : List U32 := nth l 0 []
def in1 (l : List (List U32)) : List U32 := nth l 1 []
def in2 (l : List (List U32)) : List U32 := nth l 2 []

/-- Lane-wise functions of one, two and three inputs. -/
def lanes1 (f : U32 → U32) (l : List (List U32)) : List U32 := (in0 l).map f
def lanes2 (f : U32 → U32 → U32) (l : List (List U32)) : List U32 := List.zipWith f (in0 l) (in1 l)
def lanes3 (f : U32 → U32 → U32 → U32) (l : List (List U32)) : List U32 :=
  List.zipWith (fun g c => g c) (List.zipWith f (in0 l) (in1 l)) (in2 l)

/-- A vector ALU node without a residue check. -/
def alu (n : NodeRef) (op : Nat) (f : List (List U32) → List U32) : State → State := fireLanes n [0, 1] op (fun _ l => f l)

/-! ## Vector ALUs (R128) -/

def execPass (n : NodeRef) (s : State) : Host.Outcome State Fault Refusal :=
  .next (alu n 0x00 (lanes1 id) s)
def execFadd (n : NodeRef) (q : Residue) (s : State) : Host.Outcome State Fault Refusal :=
  .next (fireChecked n 0x01 q (lanes2 fadd) s)
def execFsub (n : NodeRef) (q : Residue) (s : State) : Host.Outcome State Fault Refusal :=
  .next (fireChecked n 0x02 q (lanes2 fsub) s)
def execFmul (n : NodeRef) (q : Residue) (s : State) : Host.Outcome State Fault Refusal :=
  .next (fireChecked n 0x03 q (lanes2 fmul) s)
def execFfma (n : NodeRef) (q : Residue) (s : State) : Host.Outcome State Fault Refusal :=
  .next (fireChecked n 0x04 q (lanes3 ffma) s)
def execFmin (n : NodeRef) (s : State) : Host.Outcome State Fault Refusal :=
  .next (alu n 0x05 (lanes2 fmin) s)
def execFmax (n : NodeRef) (s : State) : Host.Outcome State Fault Refusal :=
  .next (alu n 0x06 (lanes2 fmax) s)
def execFabs (n : NodeRef) (s : State) : Host.Outcome State Fault Refusal :=
  .next (alu n 0x07 (lanes1 fabs) s)
def execFneg (n : NodeRef) (s : State) : Host.Outcome State Fault Refusal :=
  .next (alu n 0x08 (lanes1 fneg) s)
def execFsq (n : NodeRef) (q : Residue) (s : State) : Host.Outcome State Fault Refusal :=
  .next (fireChecked n 0x09 q (lanes1 (fun a => fmul a a)) s)
def execFcmplt (n : NodeRef) (s : State) : Host.Outcome State Fault Refusal :=
  .next (alu n 0x0A (lanes2 (fun a b => truth ((f32 a).lt (f32 b)))) s)
def execFcmple (n : NodeRef) (s : State) : Host.Outcome State Fault Refusal :=
  .next (alu n 0x0B (lanes2 (fun a b => truth ((f32 a).lt (f32 b) || (f32 a).eq (f32 b)))) s)
def execFcmpeq (n : NodeRef) (s : State) : Host.Outcome State Fault Refusal :=
  .next (alu n 0x0C (lanes2 (fun a b => truth ((f32 a).eq (f32 b)))) s)
def execIadd (n : NodeRef) (q : Residue) (s : State) : Host.Outcome State Fault Refusal :=
  .next (fireChecked n 0x10 q (lanes2 (· + ·)) s)
def execIsub (n : NodeRef) (q : Residue) (s : State) : Host.Outcome State Fault Refusal :=
  .next (fireChecked n 0x11 q (lanes2 (· - ·)) s)
def execImul (n : NodeRef) (q : Residue) (s : State) : Host.Outcome State Fault Refusal :=
  .next (fireChecked n 0x12 q (lanes2 (· * ·)) s)
def execAnd (n : NodeRef) (s : State) : Host.Outcome State Fault Refusal :=
  .next (alu n 0x13 (lanes2 (· &&& ·)) s)
def execOr (n : NodeRef) (s : State) : Host.Outcome State Fault Refusal :=
  .next (alu n 0x14 (lanes2 (· ||| ·)) s)
def execXor (n : NodeRef) (s : State) : Host.Outcome State Fault Refusal :=
  .next (alu n 0x15 (lanes2 (· ^^^ ·)) s)
def execShl (n : NodeRef) (s : State) : Host.Outcome State Fault Refusal :=
  .next (alu n 0x16 (lanes2 (fun a b => a <<< (b.toNat % 32))) s)
def execShr (n : NodeRef) (s : State) : Host.Outcome State Fault Refusal :=
  .next (alu n 0x17 (lanes2 (fun a b => a >>> (b.toNat % 32))) s)
def execSar (n : NodeRef) (s : State) : Host.Outcome State Fault Refusal :=
  .next (alu n 0x18 (lanes2 (fun a b => a.sshiftRight (b.toNat % 32))) s)
def execIcmplt (n : NodeRef) (s : State) : Host.Outcome State Fault Refusal :=
  .next (alu n 0x19 (lanes2 (fun a b => truth (decide (a.toInt < b.toInt)))) s)
def execIcmpeq (n : NodeRef) (s : State) : Host.Outcome State Fault Refusal :=
  .next (alu n 0x1A (lanes2 (fun a b => truth (a == b))) s)

/-- `MOD`[0] rounds toward zero, `MOD`[1] saturates (R51). -/
def Node.towardZero (nd : Node) : Bool := bit nd.modf 0
def Node.saturates (nd : Node) : Bool := bit nd.modf 1

def execCvtI32F32 (n : NodeRef) (s : State) : Host.Outcome State Fault Refusal :=
  .next (fireLanes n [0, 1] 0x20 (fun nd l => (in0 l).map (fun x => BitVec.ofInt 32 (cvtInt 32 nd.towardZero (f32 x)))) s)
/-- INT32 to FP32, to nearest even as the row of R128 says. The sentence below the table ('for the conversions, `MOD`[0] selects rounding toward
zero') does not say whether it takes this one in; `MOD`[0] has no effect here (log entry 109, DESIGN CHOICE). -/
def execCvtF32I32 (n : NodeRef) (s : State) : Host.Outcome State Fault Refusal :=
  .next (alu n 0x21 (lanes1 (fun x => toF32 (ofInt x.toInt))) s)

/-- Lanes that the spec does not state: a free value for each, the same for the same operation and operand (R54, log entry 31). -/
def openLanes (op : Nat) (nd : Node) (l : List U32) : List U32 :=
  (List.range 16).map (fun i => Config.cvtLane (pack [(8, op), (32, nd.arg.toNat), (4, nd.modf)]) (lanesNat l) i)

/-- Does an element group lie in the 64 bytes of a token (R128)? -/
def groupFits (code group : Nat) : Bool := cvtCode code && decide ((group + 1) * 16 * elemBits code ≤ 512)

/-- The format code and element group of a conversion. -/
def Node.cvt (nd : Node) : Nat × Nat := (bits nd.arg.toNat 0 4, bits nd.arg.toNat 4 2)

/-- CVT_DN: 16 elements at their group, other bytes zero. -/
def cvtDn (nd : Node) (l : List U32) : List U32 :=
  let c := nd.cvt
  natLanes (packElems (elemBits c.1) (l.map (cvtDnLane c.1 nd.towardZero nd.saturates)) * 2 ^ (c.2 * 16 * elemBits c.1))

/-- CVT_UP: 16 elements of a group. -/
def cvtUp (nd : Node) (l : List U32) : List U32 :=
  let c := nd.cvt
  (unpackElems (elemBits c.1) (16 * c.2) 16 (lanesNat l)).map (cvtUpLane c.1)

/-- A conversion of an element group; for a group or a format that R128 does not give, the lanes are free. -/
def fireCvt (n : NodeRef) (op : Nat) (f : Node → List U32 → List U32) (s : State) : State :=
  match findFiring n [0, 1] op s with
  | none => s
  | some fr =>
    if groupFits fr.nd.cvt.1 fr.nd.cvt.2 then fireResult n fr (f fr.nd (in0 fr.ins)) s
    else fireResult n fr (openLanes op fr.nd (in0 fr.ins)) s

def execCvtDn (n : NodeRef) (s : State) : Host.Outcome State Fault Refusal :=
  .next (fireCvt n 0x22 cvtDn s)
def execCvtUp (n : NodeRef) (s : State) : Host.Outcome State Fault Refusal :=
  .next (fireCvt n 0x23 cvtUp s)
def execPerm (n : NodeRef) (s : State) : Host.Outcome State Fault Refusal :=
  .next (alu n 0x30 (fun l => (in1 l).map (fun b => nth (in0 l) (b.toNat % 16) 0#32)) s)
def execBcast (n : NodeRef) (s : State) : Host.Outcome State Fault Refusal :=
  .next (fireLanes n [0, 1] 0x31 (fun nd l => List.replicate 16 (nth (in0 l) (bits nd.arg.toNat 0 4) 0#32)) s)
def execLaneid (n : NodeRef) (s : State) : Host.Outcome State Fault Refusal :=
  .next (alu n 0x32 (fun _ => (List.range 16).map (BitVec.ofNat 32)) s)

/-- A test of every byte: 0xFF where it holds. -/
def byteMask (p : Nat → Bool) (l : List U32) : List U32 :=
  bytesLanes ((lanesBytes l).map (fun b => if p b.toNat then 0xFF#8 else 0#8))

def execByteEq (n : NodeRef) (s : State) : Host.Outcome State Fault Refusal :=
  .next (fireLanes n [0, 1] 0x33 (fun nd l => byteMask (fun b => b = bits nd.arg.toNat 0 8) (in0 l)) s)
def execByteRange (n : NodeRef) (s : State) : Host.Outcome State Fault Refusal :=
  .next (fireLanes n [0, 1] 0x34 (fun nd l => byteMask (fun b => decide (bits nd.arg.toNat 0 8 ≤ b) && decide (b ≤ bits nd.arg.toNat 8 8)) (in0 l)) s)

/-! ## Special-function unit (R129) -/

/-- A function applied to every lane. -/
def fireSfu (n : NodeRef) (op : Nat) : State → State := fireLanes n [2] op (fun _ l => (in0 l).map (sfu op))

def execExp (n : NodeRef) (s : State) : Host.Outcome State Fault Refusal :=
  .next (fireSfu n 0x00 s)
def execLog (n : NodeRef) (s : State) : Host.Outcome State Fault Refusal :=
  .next (fireSfu n 0x01 s)
def execRcp (n : NodeRef) (s : State) : Host.Outcome State Fault Refusal :=
  .next (fireSfu n 0x02 s)
def execRsqrt (n : NodeRef) (s : State) : Host.Outcome State Fault Refusal :=
  .next (fireSfu n 0x03 s)
def execSin (n : NodeRef) (s : State) : Host.Outcome State Fault Refusal :=
  .next (fireSfu n 0x04 s)
def execCos (n : NodeRef) (s : State) : Host.Outcome State Fault Refusal :=
  .next (fireSfu n 0x05 s)
def execErf (n : NodeRef) (s : State) : Host.Outcome State Fault Refusal :=
  .next (fireSfu n 0x06 s)

/-! ## Reduce unit (R130, R131) -/

def execLsum (n : NodeRef) (s : State) : Host.Outcome State Fault Refusal :=
  .next (fireLanes n [3] 0x00 (fun _ l => List.replicate 16 (treeSum (in0 l))) s)
def execLmax (n : NodeRef) (s : State) : Host.Outcome State Fault Refusal :=
  .next (fireLanes n [3] 0x01 (fun _ l => List.replicate 16 (foldLanes fmax (in0 l))) s)
def execLmin (n : NodeRef) (s : State) : Host.Outcome State Fault Refusal :=
  .next (fireLanes n [3] 0x02 (fun _ l => List.replicate 16 (foldLanes fmin (in0 l))) s)

/-- One token of a group taken; after the G-th the result of group j goes out with iteration j. -/
def groupStep (fr : Firing) (join : Acc → Acc) (out : Acc → List (List Dest × List U32)) (a : Arr) : Arr :=
  let k := fr.key * 16 + tagCtx fr.tag
  let c := join (Tab.get a.accs k Acc.empty)
  if c.count + 1 < fr.nd.group then { a with accs := Tab.set a.accs k { c with count := c.count + 1 } }
  else (out c).foldl (fun a r => fr.send r.1 (mkTag (tagCtx fr.tag) c.groups) r.2 a)
    { a with accs := Tab.set a.accs k ⟨0, c.groups + 1, [], []⟩ }

/-- A lane-wise accumulation over a group. -/
def fireAcc (n : NodeRef) (op : Nat) (f : U32 → U32 → U32) (s : State) : State :=
  match findFiring n [3] op s with
  | none => s
  | some fr =>
    fire n fr (groupStep fr
      (fun c => { c with vals := if c.count = 0 then in0 fr.ins else List.zipWith f c.vals (in0 fr.ins) })
      (fun c => [(fr.nd.dests, c.vals)])) s

def execAccSum (n : NodeRef) (s : State) : Host.Outcome State Fault Refusal :=
  .next (fireAcc n 0x08 fadd s)
def execAccMax (n : NodeRef) (s : State) : Host.Outcome State Fault Refusal :=
  .next (fireAcc n 0x09 fmax s)
def execAccMin (n : NodeRef) (s : State) : Host.Outcome State Fault Refusal :=
  .next (fireAcc n 0x0A fmin s)

/-- The lanes 0 to k − 1 from a list, the others zero. -/
def padLanes (l : List U32) : List U32 := (List.range 16).map (fun i => nth l i 0#32)

/-- TOPK: the k largest values to the first destination, their indices to the second. -/
def execTopk (n : NodeRef) (s : State) : Host.Outcome State Fault Refusal :=
  .next (match findFiring n [3] 0x10 s with
    | none => s
    | some fr =>
      let k := bits fr.nd.arg.toNat 4 4 + 1
      fire n fr (groupStep fr (fun c => { c with cands := topKeep k c.cands ((in0 fr.ins).zip (in1 fr.ins)) })
        (fun c => [(fr.nd.dest0.toList, padLanes (c.cands.map (·.1))), (fr.nd.dest1.toList, padLanes (c.cands.map (·.2)))])) s)

/-! ## Steering unit (R132) -/

/-- Control is taken from lane 0 (R113). -/
def control (l : List U32) : Bool := l.headD 0#32 ≠ 0#32

/-- A steering node: which destinations take which lanes. -/
def fireSteer (n : NodeRef) (op : Nat) (f : Firing → List Dest × List U32) (s : State) : State :=
  match findFiring n [4] op s with
  | none => s
  | some fr => fire n fr (fr.send (f fr).1 fr.tag (f fr).2) s

def execSwitch (n : NodeRef) (s : State) : Host.Outcome State Fault Refusal :=
  .next (fireSteer n 0x00 (fun fr => (if control (in1 fr.ins) then fr.nd.dest0.toList else fr.nd.dest1.toList, in0 fr.ins)) s)
def execGate (n : NodeRef) (s : State) : Host.Outcome State Fault Refusal :=
  .next (fireSteer n 0x01 (fun fr => (if control (in1 fr.ins) then fr.nd.dests else [], in0 fr.ins)) s)
def execMerge (n : NodeRef) (s : State) : Host.Outcome State Fault Refusal :=
  .next (fireSteer n 0x02 (fun fr => (fr.nd.dests, if control (in0 fr.ins) then in1 fr.ins else in2 fr.ins)) s)
def execSelect (n : NodeRef) (s : State) : Host.Outcome State Fault Refusal :=
  .next (fireSteer n 0x03 (fun fr => (fr.nd.dests, lanes3 (fun p a b => if p = 0#32 then b else a) fr.ins)) s)

/-- SPREAD: G copies with iterations j × G + k. -/
def execSpread (n : NodeRef) (s : State) : Host.Outcome State Fault Refusal :=
  .next (match findFiring n [4] 0x04 s with
    | none => s
    | some fr =>
      let g := fr.nd.group
      fire n fr (fun a => (List.range g).foldl
        (fun a k => fr.send fr.nd.dests (mkTag (tagCtx fr.tag) (tagIter fr.tag * g + k)) (in0 fr.ins) a) a) s)

/-! ## Matrix-issue port (R136, R137, R143, R149) -/

/-- A parameter of a plot. -/
def paramOf (s : State) (p k : Nat) : U64 := Tab.get (plotOf s p).params k 0#64

def execParamRd (n : NodeRef) (s : State) : Host.Outcome State Fault Refusal :=
  .next (match findFiring n [7] 0x00 s with
    | none => s
    | some fr =>
      let v := (paramOf s n.plot (bits fr.nd.arg.toNat 0 4)).toNat
      fireResult n fr (padLanes [BitVec.ofNat 32 v, BitVec.ofNat 32 (v / 2 ^ 32)]) s)

def execParamWr (n : NodeRef) (s : State) : Host.Outcome State Fault Refusal :=
  .next (match findFiring n [7] 0x01 s with
    | none => s
    | some fr =>
      let v := (nth (in0 fr.ins) 0 0#32).toNat + 2 ^ 32 * (nth (in0 fr.ins) 1 0#32).toNat
      updPlot n.plot (fun pl => { pl with params := Tab.set pl.params (bits fr.nd.arg.toNat 0 4) (BitVec.ofNat 64 v) })
        (fireResult n fr doneLanes s))

/-- The first request of the epoch stops the sources; a later one, or one in a drain, is ignored and counted (R143, R150). -/
def execSectNext (n : NodeRef) (s : State) : Host.Outcome State Fault Refusal :=
  .next (match findFiring n [7] 0x02 s with
    | none => s
    | some fr =>
      fire n fr (fun a =>
        if a.switchTo.isSome || a.draining then { a with switchIgnored := satInc 64 a.switchIgnored }
        else { a with switchTo := some (bits fr.nd.arg.toNat 0 2) }) s)

/-- A load into the active store slot is a section fault and loads nothing; any other waits its turn (R149). -/
def execSectLoad (n : NodeRef) (s : State) : Host.Outcome State Fault Refusal :=
  .next (match findFiring n [7] 0x03 s with
    | none => s
    | some fr =>
      let slot := bits fr.nd.arg.toNat 10 2
      let s1 := fire n fr id s
      if (plotOf s n.plot).arr.active = some slot then sectionFault 6 n.plot n.slice n.pos n.node s1
      else updArr n.plot (fun a => { a with loads := a.loads ++ [(slot, bits fr.nd.arg.toNat 0 10)] }) s1)

end Sys2Proof.Machine
end

