-- ==== Sys2Proof/Machine/Access.lean ====
section
/-! DEFINITION. The scratchpad access unit, position 5 of the array (R67, R68, R79, R133, R134, R138). -/

namespace Sys2Proof.Machine

open Sys2Proof

/-! ## What a node reaches -/

/-- The agent number of a node's stall: 256 + its key (R67). -/
def stallAgent (key : Nat) : Nat := 256 + key

/-- A double-bit error met by the unit (R82, R83): a compute fault on its slice, and the section stops. -/
def accessFault (n : NodeRef) (op : Nat) (s : State) : State := sectionFault 5 n.plot n.slice n.pos n.node (noteCompute n op 2 s)

/-! ## Cursors (R134) -/

/-- 64 bytes on in a slot; at the end of the part, to the next part. The flag says that the part has ended. -/
def advanceCursor (sl : Slice) (slot : Nat) (c : Nat × Nat) : (Nat × Nat) × Bool :=
  let size := ((sl.slotDef slot).map (·.size)).getD 0
  if c.2 + 64 < size then ((c.1, c.2 + 64), false) else (((c.1 + 1) % sl.partsOf slot, 0), true)

def setCursor (key : Nat) (c : Nat × Nat) (a : Arr) : Arr := { a with cursors := Tab.set a.cursors key c }

/-- The node of a section that holds the cursor of a slot: its STS node (op 1), or its LDS node (op 0), at the lowest array position. -/
def cursorNode (sec : Section) (op slice slot : Nat) : Option (Nat × Node) :=
  sec.nodes.find? (fun e => keyPos e.1 = 5 && e.2.op = op && e.2.slotNo = slot && e.2.target e.1 = slice)

/-! ## Loads and stores by slot -/

/-- LDS: 64 bytes of the part at the cursor. In a slot whose base is only a multiple of 32 they are not aligned to their own size and may cross
a bank, which R57 excludes and nothing refuses; the access is made as it stands (log entry 103, DESIGN CHOICE). -/
def execLds (n : NodeRef) (s : State) : Host.Outcome State Fault Refusal :=
  .next (match findFiring n [5] 0x00 s with
    | none => s
    | some fr =>
      let j := fr.nd.target fr.key
      let slot := fr.nd.slotNo
      let sl := sliceOf s n.plot j
      let c := cursorOf s n.plot fr.key (sl.slot slot).cons
      if !sl.partFull slot c.1 then stallSlice n.plot j slot c.1 false (stallAgent fr.key) s
      else
        let r := spadLoad n.plot j (sl.partBase slot c.1 + c.2) 64 (reachAgent fr.nd.dir) (sourceSlice s n.plot n.slice) s
        if r.2.2 then accessFault n 0x00 r.1
        else
          let next := advanceCursor sl slot c
          let s1 := fire n fr (fun a => fr.send fr.nd.dests fr.tag (bytesLanes r.2.1) (setCursor fr.key next.1 a)) r.1
          if next.2 && !fr.nd.hold then updSlice n.plot j (fun sl => sl.release slot c.1) s1 else s1)

def execSts (n : NodeRef) (s : State) : Host.Outcome State Fault Refusal :=
  .next (match findFiring n [5] 0x01 s with
    | none => s
    | some fr =>
      let j := fr.nd.target fr.key
      let slot := fr.nd.slotNo
      let sl := sliceOf s n.plot j
      let c := cursorOf s n.plot fr.key (sl.slot slot).prod
      if sl.partFull slot c.1 then stallSlice n.plot j slot c.1 true (stallAgent fr.key) s
      else
        let r := spadStore n.plot j (sl.partBase slot c.1 + c.2) (lanesBytes (in0 fr.ins)) (reachAgent fr.nd.dir) (sourceSlice s n.plot n.slice) s
        if r.2 then accessFault n 0x01 r.1
        else
          let next := advanceCursor sl slot c
          let s1 := fire n fr (fun a => fr.send fr.nd.dests fr.tag doneLanes (setCursor fr.key next.1 a)) r.1
          if next.2 then updSlice n.plot j (fun sl => sl.publish slot c.1) s1 else s1)

/-- PUBLISH: the part at the cursor of the slot's STS node, which moves on (R133). -/
def execPublish (n : NodeRef) (s : State) : Host.Outcome State Fault Refusal :=
  .next (match findFiring n [5] 0x06 s with
    | none => s
    | some fr =>
      let j := fr.nd.target fr.key
      let slot := fr.nd.slotNo
      let sl := sliceOf s n.plot j
      let k := (cursorNode fr.sec 1 j slot).map (·.1)
      let c := match k with
        | none => ((sl.slot slot).prod, 0)
        | some k => cursorOf s n.plot k (sl.slot slot).prod
      let move := fun a => match k with
        | none => a
        | some k => setCursor k ((c.1 + 1) % sl.partsOf slot, 0) a
      updSlice n.plot j (fun sl => sl.publish slot c.1) (fire n fr (fun a => fr.send fr.nd.dests fr.tag doneLanes (move a)) s))

/-- RELEASE: the part at the cursor of the slot's LDS node, which moves on (R133; log entry 32). -/
def execRelease (n : NodeRef) (s : State) : Host.Outcome State Fault Refusal :=
  .next (match findFiring n [5] 0x07 s with
    | none => s
    | some fr =>
      let j := fr.nd.target fr.key
      let slot := fr.nd.slotNo
      let sl := sliceOf s n.plot j
      let k := (cursorNode fr.sec 0 j slot).map (·.1)
      let c := match k with
        | none => ((sl.slot slot).cons, 0)
        | some k => cursorOf s n.plot k (sl.slot slot).cons
      let move := fun a => match k with
        | none => a
        | some k => setCursor k ((c.1 + 1) % sl.partsOf slot, 0) a
      updSlice n.plot j (fun sl => sl.release slot c.1) (fire n fr (fun a => fr.send fr.nd.dests fr.tag doneLanes (move a)) s))

/-! ## Loads and stores by offset (R133) -/

/-- Base + (iteration modulo 2^`WRAP_LOG`) × 64. -/
def Node.wrapOffset (nd : Node) (tag : BitVec 16) : Nat := nd.base + tagIter tag % 2 ^ bits nd.arg.toNat 19 4 * 64

def execLd (n : NodeRef) (s : State) : Host.Outcome State Fault Refusal :=
  .next (match findFiring n [5] 0x02 s with
    | none => s
    | some fr =>
      let r := spadLoad n.plot (fr.nd.target fr.key) (fr.nd.wrapOffset fr.tag) 64 (reachAgent fr.nd.dir) (sourceSlice s n.plot n.slice) s
      if r.2.2 then accessFault n 0x02 r.1 else fireResult n fr (bytesLanes r.2.1) r.1)

def execSt (n : NodeRef) (s : State) : Host.Outcome State Fault Refusal :=
  .next (match findFiring n [5] 0x03 s with
    | none => s
    | some fr =>
      let r := spadStore n.plot (fr.nd.target fr.key) (fr.nd.wrapOffset fr.tag) (lanesBytes (in0 fr.ins)) (reachAgent fr.nd.dir)
        (sourceSlice s n.plot n.slice) s
      if r.2 then accessFault n 0x03 r.1 else fireResult n fr doneLanes r.1)

/-- Lane by lane, 4 bytes at base + lane; an address that is not a multiple of 4 reads a free value (R57, log entry 33). -/
def gatherLanes (n : NodeRef) (nd : Node) (j : Nat) (l : List U32) (s : State) : State × List U32 × Bool :=
  match l with
  | [] => (s, [], false)
  | v :: t =>
    if (nd.base + v.toNat) % 4 ≠ 0 then
      let r := gatherLanes n nd j t (drawFree s)
      (r.1, Config.freeWord (16 * s.free) :: r.2.1, r.2.2)
    else
      let a := spadLoad n.plot j (nd.base + v.toNat) 4 (reachAgent nd.dir) (sourceSlice s n.plot n.slice) s
      let r := gatherLanes n nd j t a.1
      (r.1, BitVec.ofNat 32 (leNat a.2.1) :: r.2.1, a.2.2 || r.2.2)

def execGather (n : NodeRef) (s : State) : Host.Outcome State Fault Refusal :=
  .next (match findFiring n [5] 0x04 s with
    | none => s
    | some fr =>
      let r := gatherLanes n fr.nd (fr.nd.target fr.key) (in0 fr.ins) s
      if r.2.2 then accessFault n 0x04 r.1 else fireResult n fr r.2.1 r.1)

/-- One lane stored. An address that is not a multiple of 4 leaves free values in the two words of 4 bytes that it touches (R57, log entry 33). -/
def scatterLane (n : NodeRef) (j x : Nat) (d dir : Nat) (s : State) : State × Bool :=
  let put := fun (a v : Nat) (t : State) => spadStore n.plot j a (le 4 v) (reachAgent dir) (sourceSlice t n.plot n.slice) t
  if x % 4 = 0 then put x d s
  else
    let a := put (x / 4 * 4) (Config.freeWord (16 * s.free)).toNat (drawFree s)
    let b := put (x / 4 * 4 + 4) (Config.freeWord (16 * s.free + 1)).toNat a.1
    (b.1, a.2 || b.2)

/-- Lanes in ascending order, so that the higher lane stands where two name one address (R134). -/
def scatterLanes (n : NodeRef) (nd : Node) (j : Nat) (l : List (U32 × U32)) (s : State) : State × Bool :=
  match l with
  | [] => (s, false)
  | (v, d) :: t =>
    let a := scatterLane n j (nd.base + v.toNat) d.toNat nd.dir s
    let r := scatterLanes n nd j t a.1
    (r.1, a.2 || r.2)

def execScatter (n : NodeRef) (s : State) : Host.Outcome State Fault Refusal :=
  .next (match findFiring n [5] 0x05 s with
    | none => s
    | some fr =>
      let r := scatterLanes n fr.nd (fr.nd.target fr.key) ((in0 fr.ins).zip (in1 fr.ins)) s
      if r.2 then accessFault n 0x05 r.1 else fireResult n fr doneLanes r.1)

end Sys2Proof.Machine
end

