-- ==== Sys2Proof/Machine/Channels.lean ====
section
/-! DEFINITION. The queue access unit, position 6 of the array, and the channels (R135, R154 to R176, R325, R333). -/

namespace Sys2Proof.Machine

open Sys2Proof

/-! ## Sending (R160 to R162, R167, R170) -/

/-- The sideband of an entry (R158): kind 0 first with its length, 1 later with its index, 2 pad with the entries that it covers. -/
def sideband (kind lenM1 seq : Nat) (crc : U32) : List Byte := lay [(4, pack [(2, kind), (6, lenM1), (16, seq)]), (4, crc.toNat)]

/-- An entry of a remote message with its ring position (log entry 13). -/
def remoteEntry (pos : Nat) (side payload : List Byte) : List Byte := le 2 pos ++ side ++ payload

/-- The entries of a message from position `t` on. -/
def remoteEntries (t seq : Nat) (payload : List Byte) : List Byte :=
  (cutEntries payload).zipIdx.flatMap (fun e =>
    remoteEntry (t + e.2) (if e.2 = 0 then sideband 0 (payload.length / 32 - 1) seq (crc32 payload) else sideband 1 e.2 seq 0#32) e.1)
where
  cutEntries (l : List Byte) : List (List Byte) := (List.range (l.length / 32)).map (fun i => (l.drop (32 * i)).take 32)

/-- The CHANNEL_MSG packet of a message and its pad (R167, R168, R367), on its way from the writer's slice to the port. -/
def sendRemote (ch : Channel) (padAt : Option Nat) (t seq : Nat) (payload : List Byte) (from_ : Nat × Site) (s : State) : State :=
  let n := nextNonce (messageCounter ch.peerChannel) s
  let padBytes := match padAt with
    | none => []
    | some q => remoteEntry q (sideband 2 0 (ch.ring - q - 1) 0#32) (List.replicate 32 0#8)
  let pkt : Pkt := ⟨0x10, 1, false, false, 0, 0, 0, 0, false, n.1, s.mesh.addr.getD 0#16, BitVec.ofNat 16 ch.peerMesh, 63, 0, some s.job.jobKey,
    le 1 ch.peerChannel ++ padBytes ++ remoteEntries t seq payload⟩
  carryOut from_.1 from_.2 2 pkt (.reply pkt) (sendPkt 0 pkt) n.2

/-- A message offered to its queue: taken, and its reader's plot wakes (R456), dropped at a closed queue, or none when the writer has to wait
(R161, R167, R170); while the reader's plot is held its queue takes nothing (R152). The shadow ring frees its entries on the
reader's reports alone, pads too (R167). -/
def trySend (c : Nat) (ch : Channel) (from_ : Nat × Site) (payload : List Byte) (s : State) : Option State :=
  let q := chanQueue s c ch
  if (ch.outbound && (chanOf s c).pairing = 0) || (!ch.outbound && plotHeld s ch.readerPlot) then none
  else if !q.isOpen || (ch.outbound && (chanOf s c).pairing = 2) then some (countDrop c ch s)
  else
    let seq := (chanOf s c).seq
    match q.place ch.ring payload seq with
    | none => none
    | some (q', padAt, t) =>
      let s1 := updChan c (fun v => { v with seq := (seq + 1) % 65536 }) (updChanQueue c ch (fun _ => if ch.outbound then q' else q'.skip ch.ring) s)
      some (if ch.outbound then sendRemote ch padAt t seq payload from_ s1 else wakePlot ch.readerPlot s1)

/-- Do two waiters belong to one writer: a node, or a plot's sequencer? -/
def Waiter.sameWriter (a b : Waiter) : Bool := a.plot = b.plot && a.node = b.node

/-- Where a writer stands: the field and the router of its slice; a plot's sequencer stands at the plot's slice 0 (log entry 101). -/
def writerAt (s : State) (p i : Nat) : Nat × Site := (fieldOfPlot p, sliceSite s p i)

/-- A reservation at its queue: granted, or its writer waits for room. -/
def reserveOrWait (c : Nat) (ch : Channel) (w : Waiter) (granted : State → State) (s : State) : State :=
  match trySend c ch (writerAt s w.plot w.slice) w.payload s with
  | some s1 => granted s1
  | none => updChan c (fun v => { v with waiters := v.waiters ++ [w] }) s

/-- A message sent, or waiting; one that its writer's earlier message still waits before does not overtake it (R160). The reservation in a queue of this
module travels as a packet from the writer's slice to the reader's, and waits in a hold pool where its class or its destination is held (R429). -/
def sendOrWait (c : Nat) (ch : Channel) (w : Waiter) (granted : State → State) (s : State) : State :=
  if (chanOf s c).waiters.any (fun v => v.sameWriter w) then updChan c (fun v => { v with waiters := v.waiters ++ [w] }) s
  else if ch.outbound then reserveOrWait c ch w granted s
  else carry (fieldOfPlot w.plot) (sliceSite s w.plot w.slice) 2 (.slice ch.readerPlot ch.readerAt) (.reserve c w.plot w.node)
    (updChan c (fun v => { v with waiters := v.waiters ++ [{ w with held := true }] })) (reserveOrWait c ch w granted) s

/-- QWR: the token as a message, or appended to the message that the slice assembles (R135, R162). A writer that waits has fired and
completes when the queue accepts (R138). -/
def execQwr (n : NodeRef) (s : State) : Host.Outcome State Fault Refusal :=
  .next (match findFiring n [6] 0x01 s with
    | none => s
    | some fr => match channelOf s fr.nd.channel with
      | none => s
      | some ch =>
        if nodeWaits s n.plot fr.key then s
        else
          let chunk := (lanesBytes (in0 fr.ins)).take (if bit fr.nd.modf 0 then 32 else 64)
          let assembled := (sliceOf s n.plot n.slice).asm ++ chunk
          let done := fireResult n fr doneLanes
          if bit fr.nd.modf 1 && decide (assembled.length < 32 * (bits fr.nd.arg.toNat 8 6 + 1)) then
            updSlice n.plot n.slice (fun sl => { sl with asm := assembled }) (done s)
          else
            let payload := if bit fr.nd.modf 1 then assembled else chunk
            let s0 := if bit fr.nd.modf 1 then updSlice n.plot n.slice (fun sl => { sl with asm := [] }) s else s
            let fired := noteWork n.plot n.slice (updArr n.plot (fun a => (fr.take a).pump fr.sec) s0)
            sendOrWait fr.nd.channel ch ⟨n.plot, n.slice, some fr.key, fr.tag, (plotOf s n.plot).arr.epoch, payload, s.ctl.localTime, 0, false⟩
              (completeNode n.plot fr.key fr.tag (plotOf s n.plot).arr.epoch) fired)

/-! ## Reading (R135, R163, R164) -/

/-- MESSAGE_FAULT (R345): channel, sequence number; a section fault on the reading slice (R159, R164). -/
def messageFault (c seq p i : Nat) (s : State) : State := faultEvent ((ev 0x0109 3 [(8, c), (16, seq)]).atSlice p i) (stopArray p s)

/-- A reservation that has left its hold reaches its queue (R429). -/
def landReserve (c p : Nat) (node : Option Nat) (s : State) : State :=
  match Tab.find s.job.channels c, (chanOf s c).waiters.find? (fun w => w.held && w.plot = p && w.node = node) with
  | some ch, some w =>
    let v : Waiter := { w with held := false }
    let s1 := updChan c (fun k => { k with waiters := k.waiters.map (fun u => if u = w then v else u) }) s
    match trySend c ch (writerAt s p w.slice) w.payload s1 with
    | some s2 => endWait c ch v s2
    | none => s1
  | _, _ => s

/-- The slice that reads a channel: of a plot queue the one whose reader waits, else that of the active section's node that reads it, else slice 0, where
the queue stands (log entry 122, DESIGN CHOICE). -/
def readingSlice (s : State) (c : Nat) (ch : Channel) : Nat :=
  if ch.destType = 0 then ch.readerSlice
  else match (chanOf s c).readers with
    | w :: _ => w.slice
    | [] => match activeSection s ch.readerPlot with
      | none => 0
      | some sec => ((sec.nodes.find? (fun e => keyPos e.1 = 6 && e.2.op = 0 && e.2.channel = c)).map (fun e => keySlice e.1)).getD 0

/-- A message that fails its CRC or holds a double-bit error leaves without delivery: every such error recorded, the message counted, and a message fault
on the reading slice (R159, R345). -/
def failMessage (c : Nat) (ch : Channel) (m : QMsg) (i : Nat) (double : List Nat) (s : State) : State :=
  messageFault c m.seq ch.readerPlot i
    (updChanQueue c ch (fun q => { q.dropMsg ch.ring m.start with crcFail := satInc 16 q.crcFail }) (noteQueueUe ch double.eraseDups 8 i s))

/-- A reader that finds no readable message waits (R163). -/
def waitToRead (c : Nat) (n : NodeRef) (key : Nat) (tag : BitVec 16) (s : State) : State :=
  if (chanOf s c).readers.any (fun w => w.plot = n.plot && w.node = some key) then s
  else updChan c (fun v => { v with
    readers := v.readers ++ [⟨n.plot, n.slice, some key, tag, (plotOf s n.plot).arr.epoch, [], s.ctl.localTime, 0, false⟩] }) s

/-- Two entries of the message at the head go out in one token; the message leaves with its last entry. -/
def readToken (c : Nat) (ch : Channel) (m : QMsg) (n : NodeRef) (fr : Firing) (s : State) : State :=
  let lanes := bytesLanes (bytesAt m.payload (32 * m.read) 64)
  let s1 := fireResult n fr lanes s
  let s2 := updChan c (fun v => { v with readers := v.readers.filter (fun w => !(w.plot = n.plot && w.node = some fr.key)) }) s1
  if m.len ≤ m.read + 2 then updChanQueue c ch (fun q => { q.dropMsg ch.ring m.start with delivered := satInc 64 q.delivered }) s2
  else updChanQueue c ch (fun q => { q with msgs := q.msgs.map (fun x => if x.start = m.start then { x with read := x.read + 2 } else x) }) s2

def execQrd (n : NodeRef) (s : State) : Host.Outcome State Fault Refusal :=
  .next (match findFiring n [6] 0x00 s with
    | none => s
    | some fr => match channelOf s fr.nd.channel with
      | none => s
      | some ch => match (chanQueue s fr.nd.channel ch).front with
        | none => waitToRead fr.nd.channel n fr.key fr.tag s
        | some m =>
          if !m.ue.isEmpty then failMessage fr.nd.channel ch m n.slice m.ue s
          else if !fr.nd.isSource && decide (2 < m.len) then messageFault fr.nd.channel m.seq n.plot n.slice s
          else readToken fr.nd.channel ch m n fr s)

/-! ## The queue's own events -/

/-- A waiter placed among others by plot and slice, of one slice by the moment it began to wait (R160). -/
def insertWaiter (w : Waiter) (l : List Waiter) : List Waiter :=
  match l with
  | [] => [w]
  | v :: r => if scoreLe [v.plot, v.slice, v.since.toNat] [w.plot, w.slice, w.since.toNat] then v :: insertWaiter w r else w :: v :: r

/-- Waiting writers in the order in which their reservations are granted: all of them try again in the cycle in which room comes free (R161), so in
ascending order of plot and slice, and of one writer the earliest alone (R160). One whose reservation is still on its way, or whose plot's traffic
is held, takes no grant. -/
def grantOrder (s : State) (l : List Waiter) : List Waiter :=
  (l.zipIdx.filter (fun e => !e.1.held && !plotHeld s e.1.plot && !(l.take e.2).any (fun v => v.sameWriter e.1))).foldl (fun a e => insertWaiter e.1 a) []

/-- The first waiting writer whose message the ring takes, or a closed queue drops (R160, R161, R170). -/
def grantFirst (c : Nat) (ch : Channel) (l : List Waiter) (s : State) : State :=
  match l with
  | [] => s
  | w :: r => match trySend c ch (writerAt s w.plot w.slice) w.payload s with
    | some s1 => endWait c ch w s1
    | none => grantFirst c ch r s

def execQueueReservation (channel : Nat) (s : State) : Host.Outcome State Fault Refusal :=
  .next (match channelOf s channel with
    | none => s
    | some ch => grantFirst channel ch (grantOrder s (chanOf s channel).waiters) s)

/-- The next message becomes readable when its CRC passes; one that fails, or meets a double-bit error, is removed with a message fault
(R159, R163). -/
def execMessageReadable (channel : Nat) (u : QueueUpset) (s : State) : Host.Outcome State Fault Refusal :=
  .next (match channelOf s channel with
    | none => s
    | some ch =>
      let q := chanQueue s channel ch
      if ch.outbound || plotHeld s ch.readerPlot then s
      else match nextUnread ch.ring q.head q.msgs with
        | none => s
        | some m =>
          let double := m.ue ++ m.wordsOf u.doubleBit
          if crc32 m.payload = m.crc && double.isEmpty then
            updChan channel (fun v => { v with readers := [] })
              (updChanQueue channel ch (fun q => { q with
                msgs := q.msgs.map (fun x => if x.start = m.start then { x with readable := true } else x) }) (correctQueue ch u.corrected s))
          else failMessage channel ch m (readingSlice s channel ch) double (correctQueue ch u.corrected s))

/-- Are wait timers frozen for a plot (R73)? Slides are one step here; a re-placement lasts from its fence to its decision. -/
def timersFrozen (s : State) (p : Nat) : Bool := (plotOf s p).sleep = 3 || s.plots.any (fun e => e.2.fencedBy ≠ 0)

/-- A tick during which timers stand frozen: those of waiters and stalls keep their count (R73). -/
def holdTimers (s : State) : State :=
  mapChans (fun t => Tab.mapVals t (fun _ v =>
      let hold := fun (l : List Waiter) => l.map (fun w => if timersFrozen s w.plot then { w with frozen := w.frozen + 1 } else w)
      { v with waiters := hold v.waiters, readers := hold v.readers }))
    (mapPlots (fun t => Tab.mapVals t (fun p pl => if timersFrozen s p then
        { pl with slices := Tab.mapVals pl.slices (fun _ sl => { sl with stalls := sl.stalls.map (fun w => { w with frozen := w.frozen + 1 }) }) }
      else pl)) s)

/-- One period of local time (R299); wait timers that are frozen do not count it (R73), and a shut-down test may go on to its next pair (R405). -/
def tick (s : State) : State := if s.pins.auxOn then nextPair (idle (holdTimers s)) else s

/-- QUEUE_STALL_FAULT (R171, R345): channel, side (0 writer, 1 reader), time waited in µs; a section fault, against the slice whose node waits, or for an
entry of the outbox against the plot (R173). -/
def queueStall (c side : Nat) (w : Waiter) (s : State) : State :=
  let e := ev 0x0108 3 [(8, c), (8, side), (64, usWaited s w.since w.frozen)]
  faultEvent (if w.node.isNone then e.atPlot w.plot else e.atSlice w.plot w.slice) (stopArray w.plot s)

/-- The timer of a waiter expires (R171, R173). It is frozen as R73 says; a reader of a channel with
`READ_NO_TIMEOUT` runs none. -/
def execQueueStallTimeout (channel side waiter : Nat) (s : State) : Host.Outcome State Fault Refusal :=
  .next (match channelOf s channel with
    | none => s
    | some ch =>
      let l := if side = 0 then (chanOf s channel).waiters else (chanOf s channel).readers
      match (l.drop waiter).head? with
      | none => s
      | some w =>
        if timersFrozen s w.plot || (side = 1 && ch.readNoTimeout) then s
        else
          let s1 := updChan channel (fun v => if side = 0 then { v with waiters := v.waiters.erase w } else { v with readers := v.readers.erase w }) s
          let s2 := if side = 0 then updChanQueue channel ch (fun q => { q with stallCycles := satAdd 64 q.stallCycles (cyclesSince s w.plot w.since) }) s1 else s1
          queueStall channel side w s2)

/-! ## Remote channels (R167, R168, R367, R430) -/

/-- Place in the ring as seen from the head. -/
def fromHead (ring head pos : Nat) : Nat := (pos + ring - head) % ring

/-- A message placed among the others in ring order. -/
def insertMsg (ring head : Nat) (m : QMsg) (l : List QMsg) : List QMsg :=
  match l with
  | [] => [m]
  | x :: r => if fromHead ring head m.start < fromHead ring head x.start then m :: x :: r else x :: insertMsg ring head m r

/-- One entry written where it is addressed. -/
def putEntry (ring : Nat) (q : Queue) (e : RemoteEntry) : Queue :=
  if ring ≤ e.pos then q
  else if e.kind = 2 then
    (if q.msgs.any (fun m => m.start = e.pos) then q
     else ({ q with msgs := insertMsg ring q.head ⟨true, e.pos, ring - e.pos, 0, [], 0#32, 0, true, 0, []⟩ q.msgs } : Queue)).skip ring
  else
    let idx := if e.kind = 0 then 0 else e.lenM1
    let start := e.pos - idx
    let old := (q.msgs.find? (fun m => m.start = start)).getD ⟨false, start, 0, e.seq, [], 0#32, 0, false, 0, []⟩
    let m : QMsg := { old with
      len := if e.kind = 0 then e.lenM1 + 1 else old.len
      crc := if e.kind = 0 then e.crc else old.crc
      written := old.written ||| 2 ^ idx
      payload := bytesAt old.payload 0 (32 * idx) ++ bytesAt e.payload 0 32 ++ old.payload.drop (32 * idx + 32) }
    { q with msgs := insertMsg ring q.head m (q.msgs.filter (fun x => x.start ≠ start)) }

/-- The entries in the bytes of a message, as `remoteEntry` lays them out. -/
def entriesIn (bs : List Byte) : List RemoteEntry :=
  (List.range (bs.length / 42)).map (fun i =>
    let b := (bs.drop (42 * i)).take 42
    ⟨numAt b 0 2, bits (numAt b 2 4) 0 2, bits (numAt b 2 4) 2 6, bits (numAt b 2 4) 8 16, BitVec.ofNat 32 (numAt b 6 4), b.drop 10⟩)

/-- A dropped remote message: a violation (R168, R382). -/
def dropRemote (src : U16) : State → State := violation 0x08 .none (sourceModule src)

/-- The entries of a remote message written where they are addressed, and the reader's plot wakes (R456); at a closed queue they are dropped and
counted (R170). -/
def landMessage (m : RemoteMsg) (s : State) : State :=
  match channelOf s m.channel with
  | none => s
  | some ch =>
    if (chanQueue s m.channel ch).isOpen then
      wakePlot ch.readerPlot (updChanQueue m.channel ch (fun q => m.entries.foldl (putEntry ch.ring) q) s)
    else forEach (m.entries.filter (fun e => e.kind = 0)) (fun _ => countDrop m.channel ch) s

/-- A message waits in its buffers while its reader is held and the hold pool of the gateway has no room (R269). -/
def messageStalls (s : State) (c : Nat) : Bool :=
  match channelOf s c with
  | none => false
  | some ch => portStalls s (fieldOfPlot ch.readerPlot) (.gateway 3 (sliceCore s ch.readerPlot ch.readerAt).2) 2 (.slice ch.readerPlot ch.readerAt)

/-- CHANNEL_MSG at the reading module, opened with the job key (R168, R367). It enters the trellis of the reader's field at the west edge, in the slice's row (log
entry 101), and waits in the gateway's hold pool while the reader's traffic is held (R430). -/
def execChannelMsg (p : Pkt) (s : State) : Host.Outcome State Fault Refusal :=
  .next (
    let c := numAt p.body 0 1
    if s.mesh.addr ≠ some p.dest || messageStalls s c then s
    else
      let s := takeInbox p s
      match channelOf s c with
      | none => dropRemote p.src s
      | some ch =>
        if !ch.remoteIn || ch.peerMesh ≠ p.src.toNat then dropRemote p.src s
        else match openBody s.job.jobKey p with
          | none => record (ev 0x0306 6 [(16, c), (16, p.src.toNat)]).atHub (closeChannel c ch (dropRemote p.src s))
          | some bs => match replayVerdict s (4096 + c) p.src false p.nonce with
            | .replayed => dropRemote p.src s
            | .full => countReplayFull s
            | .fresh =>
              carry (fieldOfPlot ch.readerPlot) (.gateway 3 (sliceCore s ch.readerPlot ch.readerAt).2) 2 (.slice ch.readerPlot ch.readerAt)
                (.message ⟨c, entriesIn (bs.drop 1)⟩) id (landMessage ⟨c, entriesIn (bs.drop 1)⟩) (takeNonce (4096 + c) p.src false p.nonce s))

/-- A channel report as it opens (R167, R170): 0 open, 1 head, 2 close, 3 mismatch. -/
structure Report where
  channel : Nat
  src : U16
  kind : Nat
  ringSize : Nat
  maxLenM1 : Nat
  head : Nat
  deriving DecidableEq, Repr

/-- The report in the bytes that `sendReport` lays out. -/
def reportIn (src : U16) (b : List Byte) : Report := ⟨numAt b 0 1, src, numAt b 1 1, numAt b 2 2, numAt b 4 1, numAt b 5 2⟩

/-- The field of an open report that does not match the outbound record: 1 ring size, 2 longest message. -/
def pairingFault (ch : Channel) (r : Report) : Option Nat :=
  if r.ringSize ≠ ch.ring then some 1 else if r.maxLenM1 + 1 ≠ ch.maxLen then some 2 else none

/-- The writing end closes: waits end, drops are counted (R167, R170). -/
def closeOutbound (c : Nat) (ch : Channel) (s : State) : State :=
  dropWaiters c ch (updChan c (fun v => { v with pairing := 2, shadow := v.shadow.close }) s)

/-- An open report at the writing module, for a channel that waits for one; one that arrives before `job.start` counts for it (R167). -/
def openReport (c : Nat) (ch : Channel) (r : Report) (s : State) : State :=
  if (chanOf s c).pairing ≠ 0 && s.ctl.mode ≠ .loaded then s
  else match pairingFault ch r with
    | none => updChan c (fun v => { v with pairing := 1, shadow := { v.shadow with isOpen := true, head := r.head, tail := r.head, msgs := [] } }) s
    | some i =>
      faultEvent (ev 0x0305 3 [(8, c), (16, r.src.toNat), (8, i)])
        (sendReport 3 ch.peerChannel ch.peerMesh ch.ring (ch.maxLen - 1) 0 (closeOutbound c ch s))

/-- A head report frees the entries of the shadow that the reader has passed (R167). -/
def freeShadow (head : Nat) (q : Queue) : Queue :=
  if q.msgs.any (fun m => m.start = head) || q.tail = head then
    { q with head := head, msgs := q.msgs.dropWhile (fun m => m.start ≠ head) }
  else q

/-- The outbound channel that a report of its reader concerns. -/
def outboundFor (s : State) (r : Report) : Option (Nat × Channel) :=
  s.job.channels.find? (fun e => e.2.outbound && e.2.peerMesh = r.src.toNat && e.2.peerChannel = r.channel)

/-- An authentic report is taken up: kinds 0 open, 1 head and 2 close come from the reading module, 3 from a writing module whose pairing failed (R167,
R170). -/
def takeReport (r : Report) (nonce : Nat) (s : State) : State :=
  if r.kind = 3 then
    match channelOf s r.channel with
    | none => dropRemote r.src s
    | some ch =>
      if ch.remoteIn && ch.peerMesh = r.src.toNat then
        updChanQueue r.channel ch Queue.close (takeNonce (4096 + r.channel) r.src true nonce s)
      else dropRemote r.src s
  else match outboundFor s r with
    | none => dropRemote r.src s
    | some (c, ch) =>
      let s1 := takeNonce (4096 + r.channel) r.src true nonce s
      match r.kind with
      | 0 => openReport c ch r s1
      | 1 => if (chanOf s1 c).pairing = 1 then updChan c (fun v => { v with shadow := freeShadow r.head v.shadow }) s1 else s1
      | _ => if s1.ctl.mode = .loaded then updChan c (fun v => { v with pairing := 0 }) s1 else closeOutbound c ch s1

/-- CHANNEL_REPORT, opened with the job key (R168, R367). -/
def execChannelReport (p : Pkt) (s : State) : Host.Outcome State Fault Refusal :=
  .next (
    if s.mesh.addr ≠ some p.dest then s
    else
      let s := takeInbox p s
      match (openBody s.job.jobKey p).map (reportIn p.src) with
      | none => dropRemote p.src s
      | some r => match replayVerdict s (4096 + r.channel) p.src true p.nonce with
        | .replayed => dropRemote p.src s
        | .full => countReplayFull s
        | .fresh => takeReport r p.nonce s)

/-- The reader's head report; none while its plot is being re-placed (R167, R430). -/
def execHeadReport (channel : Nat) (s : State) : Host.Outcome State Fault Refusal :=
  .next (match channelOf s channel with
    | none => s
    | some ch =>
      let q := chanQueue s channel ch
      if !ch.remoteIn || !q.isOpen || q.head = (chanOf s channel).headReported || (plotOf s ch.readerPlot).fencedBy ≠ 0 then s
      else reportQueue 1 channel ch (updChan channel (fun v => { v with headReported := q.head }) s))

/-! ## Debug views (R175, R176, R325, R333) -/

/-- The channel whose reader queue this is. -/
def channelAt (s : State) (p : Nat) (i : Option Nat) (k : Nat) : Nat :=
  ((s.job.channels.find? (fun e => e.2.readerPlot = p && e.2.readerQueue = k &&
    (match i with | some i => e.2.destType = 0 && e.2.readerSlice = i | none => e.2.destType = 1))).map (·.1)).getD 0xFF

/-- Cycles that writers of a channel have spent waiting, those that wait now included (R175). -/
def sendStalls (s : State) (c : Nat) (q : Queue) : Nat :=
  (chanOf s c).waiters.foldl (fun n w => satAdd 64 n (cyclesSince s w.plot w.since)) q.stallCycles

/-- A core-queue record (R175). -/
def coreQueueRecord (s : State) (c : Nat) (q : Queue) : List Byte :=
  lay [(4, pack [(8, c), (1, flag q.isOpen)]), (4, 0), (8, q.delivered), (8, sendStalls s c q), (4, q.closedDrop), (2, q.crcFail), (2, q.discarded)]

/-- The sideband of the head entry, and its payload; zeros when nothing stands there (R176). -/
def headBytes (q : Queue) : List Byte :=
  match q.msgs with
  | m :: _ => if m.start ≠ q.head then lay [(40, 0)] else
    (if m.pad then sideband 2 0 (m.len - 1) 0#32 else sideband 0 (m.len - 1) m.seq m.crc) ++ bytesAt m.payload 0 32
  | [] => lay [(40, 0)]

/-- A plot-queue record (R176). -/
def plotQueueRecord (c : Nat) (q : Queue) : List Byte :=
  lay [(4, pack [(8, c), (1, flag q.isOpen)]), (4, q.occupied)] ++ headBytes q ++ lay [(4, q.closedDrop), (2, q.crcFail), (2, q.discarded), (8, 0)]

/-- Is a plot one of the loaded job's? -/
def jobPlot (s : State) (p : Nat) : Bool := s.job.plots.contains p

def queueView (s : State) (view obj : Nat) : Option (List Byte) :=
  match view with
  | 0 => if jobPlot s (obj / 16) then
      some ((List.range 16).flatMap (fun k => coreQueueRecord s (channelAt s (obj / 16) (some (obj % 16)) k)
        (Tab.get (sliceOf s (obj / 16) (obj % 16)).queues k Queue.empty))) else none
  | 1 => if jobPlot s obj then
      some ((List.range 8).flatMap (fun k => plotQueueRecord (channelAt s obj none k) (Tab.get (plotOf s obj).queues k Queue.empty))) else none
  | 2 => match channelOf s obj with
    | none => none
    | some ch => if ch.outbound then some (coreQueueRecord s obj (chanOf s obj).shadow) else none
  | _ => none

/-- `debug.queue.view` (R333): an object of another principal's job does not belong to the issuer's. -/
def execDebugQueueView (h : Hdr) (v : U64) (s : State) : Host.Outcome State Fault Refusal :=
  .next (request h ⟨0x0C00, 8, false, tenantKind, [.loaded, .running, .draining], true⟩
    (fun s => if !ownJob h s then verifyFailed (fieldDiag 0 333 v.toNat) s
      else match queueView s (v.toNat % 256) (bits v.toNat 8 24) with
        | none => verifyFailed (fieldDiag 0 333 v.toNat) s
        | some b => ok b s) s)

/-- The counters of a scope (R325); none for an object that does not exist. -/
def scopeCounters (s : State) (scope obj : Nat) : Option (List Nat) :=
  match scope with
  | 1 => let sl := sliceOf s (obj / 16) (obj % 16)
    if jobPlot s (obj / 16) then some [sl.spadCe, sl.spadUeCount, sl.gated, sl.bankConflict, sl.accCe, sl.overflowTiles, sl.uncheckedSums] else none
  | 2 => let sl := sliceOf s (obj / 1024) (obj / 64 % 16)
    if jobPlot s (obj / 1024) && (sl.slotDef (obj % 64)).isSome then some [(sl.slot (obj % 64)).redundant] else none
  | 3 => let pl := plotOf s obj
    if jobPlot s obj then some [pl.arr.switchIgnored, pl.arr.residual, pl.arr.forced, pl.arr.stale, pl.trackerWait] else none
  | 4 => let r := Tab.get (fieldOf s (obj / 64)).runs (obj % 64) Run.empty
    if s.job.plots.any (fun p => fieldOfPlot p = obj / 64) then some [r.dup, r.stale, r.epoch] else none
  | 5 => let k := stackOf s obj
    if s.job.loaded && decide (obj < 32) then some [k.opened, k.joined, k.full] else none
  | 6 => if obj < 32 then
      some [(fieldOf s (obj / 4)).logLost, (generalPcs obj).foldl (fun n pc => n + freeSpares s pc) 0, spareBanksUsed s obj] else none
  | 7 => let p := portOf s obj
    if obj < 16 then some [p.hopExpired, p.hostDrops, p.badPacket, p.noRoute, p.unaddressed, p.replayFull] else none
  | _ => none

/-- `debug.counters.read` (R325): scopes 1 to 5 for the job's tenant, 6 and 7 for the fleet operator (log entry 34). -/
def execDebugCountersRead (h : Hdr) (v : U64) (s : State) : Host.Outcome State Fault Refusal :=
  .next (
    let scope := v.toNat % 256
    let reader := if issuerKind h s = 2 then decide (scope ≠ 6) && decide (scope ≠ 7) else !(decide (1 ≤ scope) && decide (scope ≤ 5))
    request h ⟨0x0C01, 8, false, tenantFleet, active, reader⟩
      (fun s => if !ownJob h s then verifyFailed (fieldDiag 0 325 v.toNat) s
        else match scopeCounters s scope (v.toNat / 256 % 2 ^ 24) with
          | none => verifyFailed (fieldDiag 0 325 v.toNat) s
          | some l => ok (l.flatMap (le 8)) s) s)

end Sys2Proof.Machine
end

