-- ==== Sys2Proof/Machine/Sections.lean ====
section
/-! DEFINITION. Section switching and the faults of a section as a whole (R122, R141 to R150). -/

namespace Sys2Proof.Machine

open Sys2Proof

/-! ## What can still fire -/

/-- Does a queue write of the plot's nodes wait: an outstanding operation (R144)? -/
def writesWait (s : State) (p : Nat) : Bool := s.chans.any (fun e => e.2.waiters.any (fun w => w.plot = p && w.node.isSome))

/-- The quiet that R144 asks for: nothing can fire, no token is in an output register or a pass-through register, no queue write waits. -/
def arrayQuiet (s : State) (p : Nat) : Bool :=
  (plotOf s p).arr.outs.isEmpty && (plotOf s p).arr.pass.isEmpty && (openFirings s p).all (firingStalls s p) && !writesWait s p

/-! ## Flush and activation (R145, R148, R163, R174) -/

/-- Stalls of a plot's units that a flush abandons: on slots, and of readers on queues (R144). -/
def stallsOf (s : State) (p : Nat) : Nat :=
  (plotOf s p).slices.foldl (fun n e => n + (e.2.stalls.filter (fun w => decide (256 ≤ w.agent))).length) 0
    + s.chans.foldl (fun n e => n + (e.2.readers.filter (fun w => w.plot = p)).length) 0

/-- What a flush discards and counts: tokens in operand stores, output registers and pass-through registers, abandoned stalls beside their tokens
(R145), and partly assembled messages (log entry 35). -/
def residualOf (s : State) (p : Nat) : Nat :=
  (plotOf s p).arr.toks.length + (plotOf s p).arr.outs.length + (plotOf s p).arr.pass.length + stallsOf s p
    + ((plotOf s p).slices.filter (fun e => !e.2.asm.isEmpty)).length

/-- The flush: what is left is discarded and counted, stalls are abandoned, partly read messages begin again. -/
def flushArray (p : Nat) (s : State) : State :=
  let n := residualOf s p
  let s1 := updPlot p (fun pl => { pl with
    arr := { pl.arr with toks := [], outs := [], pass := [], retrying := [], residual := satAdd 64 pl.arr.residual n, switchTo := none, draining := false, flushed := false }
    slices := Tab.mapVals pl.slices (fun _ sl => { sl with
      stalls := sl.stalls.filter (fun w => decide (w.agent < 256)), asm := [], queues := Tab.mapVals sl.queues (fun _ q => q.rewind) })
    queues := Tab.mapVals pl.queues (fun _ q => q.rewind) }) s
  mapChans (fun t => Tab.mapVals t (fun _ c => { c with readers := c.readers.filter (fun w => w.plot ≠ p) })) s1

/-- Cursors at the slots' current indices, byte 0 (R134, R148). -/
def freshCursors (s : State) (p : Nat) (sec : Section) : Tab (Nat × Nat) :=
  sec.nodes.filterMap (fun e =>
    if keyPos e.1 = 5 && decide (e.2.op < 2) then
      let st := (sliceOf s p (e.2.target e.1)).slot e.2.slotNo
      some (e.1, (if e.2.op = 0 then st.cons else st.prod, 0))
    else none)

/-- Does a section read a channel? -/
def Section.reads (sec : Section) (c : Nat) : Bool := sec.nodes.any (fun e => keyPos e.1 = 6 && e.2.op = 0 && e.2.channel = c)

/-- Queues with `CLOSE_ON_SWITCH` that the new section does not read close (R169). -/
def closeOnSwitch (p : Nat) (s : State) : State :=
  match activeSection s p with
  | none => s
  | some sec =>
    forEach (s.job.channels.filter (fun e => e.2.closeOnSwitch && !e.2.outbound && e.2.readerPlot = p && !sec.reads e.1))
      (fun e => closeChannel e.1 e.2) s

/-- Steps 4 and 5 of R145: the section of a store slot is loaded, the epoch advances, counters and cursors start again, sources start. -/
def activateSection (p slot : Nat) (s : State) : State :=
  let s1 := updArr p (fun a => { a with
    active := some slot, epoch := a.epoch + 1#16, stopped := false, toks := [], outs := [], pass := [], clock := 0, emitted := [], firedAt := [], accs := [], retired := [], retFired := []
    retrying := [], switchTo := none, draining := false, flushed := false }) s
  let cur := match activeSection s1 p with
    | none => []
    | some sec => freshCursors s1 p sec
  closeOnSwitch p (updArr p (fun a => { a with cursors := cur }) s1)

/-- Is a store slot being loaded? -/
def slotLoading (a : Arr) (slot : Nat) : Bool := match a.loads with
  | [] => false
  | l :: _ => l.1 = slot

/-- Steps 3 to 5 for the switch or the drain that waits; under STRICT a residual count is a section fault (R147). While the target store slot is
being loaded, step 4 waits (R145). -/
def passBarrier (p : Nat) (s : State) : State :=
  let a := (plotOf s p).arr
  let strict := ((activeSection s p).map (·.strict)).getD false
  let n := residualOf s p
  let s1 := flushArray p s
  if strict && decide (0 < n) then sectionFault 2 p 0 0 0 s1
  else match a.switchTo with
    | some k => if slotLoading a k then updArr p (fun a => { a with switchTo := some k, flushed := true }) s1 else activateSection p k s1
    | none => updArr p (fun a => { a with stopped := true }) s1

/-- Does a plot wait at the barrier, for a switch or for a drain? -/
def atBarrier (s : State) (p : Nat) : Bool :=
  let a := (plotOf s p).arr
  !a.stopped && !(plotOf s p).stopped && !a.flushed && (a.draining || a.switchTo.isSome)

/-- DRAIN_BARRIER_REACHED (R144, R145, R150). -/
def execDrainBarrierReached (plot : Nat) (s : State) : Host.Outcome State Fault Refusal :=
  .next (if atBarrier s plot && arrayQuiet s plot then passBarrier plot s else s)

/-- `DRAIN_LIMIT` expires before the barrier (R145, R147): under STRICT a section fault, else the steps are taken all the same. -/
def execDrainLimitExpiry (plot : Nat) (s : State) : Host.Outcome State Fault Refusal :=
  .next (if !atBarrier s plot then s
    else if ((activeSection s plot).map (·.strict)).getD false then sectionFault 3 plot 0 0 0 s
    else passBarrier plot (updArr plot (fun a => { a with forced := satInc 64 a.forced }) s))

/-! ## Loads, starvation, stale tokens (R122, R146, R149) -/

/-- The load under way finishes, and a switch that waited for it goes on (R145). One whose slot has become active in the meantime is a section
fault and loads nothing; its requester is not kept, and the fault names slice 0, position 7, node 0 (log entry 111, DESIGN CHOICE). A plot that is paused takes nothing in (R152 step 1). -/
def execSectLoadComplete (plot : Nat) (s : State) : Host.Outcome State Fault Refusal :=
  .next (if (plotOf s plot).stopped then s else match (plotOf s plot).arr.loads with
    | [] => s
    | (slot, num) :: r =>
      let s1 := updArr plot (fun a => { a with loads := r }) s
      let a := (plotOf s plot).arr
      if a.active = some slot && !a.flushed then sectionFault 6 plot 0 7 0 s1
      else
        let s2 := updArr plot (fun a => { a with store := Tab.set a.store slot num }) s1
        if a.flushed && a.switchTo = some slot && !slotLoading (plotOf s2 plot).arr slot then activateSection plot slot s2 else s2)

/-- A slot stall of a unit, or a reader that waits. -/
def unitStalled (s : State) (p : Nat) : Bool :=
  (plotOf s p).slices.any (fun e => e.2.stalls.any (fun w => decide (256 ≤ w.agent))) || s.chans.any (fun e => e.2.readers.any (fun w => w.plot = p))

/-- STARVATION_FAULT: tokens wait, nothing can fire, nothing is outstanding, no unit is stalled (R122). A fault of the plot as a whole names slice 0,
position 0, node 0 (log entry 111, DESIGN CHOICE). A section load under way is outstanding here, though not for the drain barrier (R144; log entry 126, DESIGN CHOICE). -/
def execStarvationFault (plot : Nat) (s : State) : Host.Outcome State Fault Refusal :=
  .next (
    let a := (plotOf s plot).arr
    if arrayRuns s plot 0 && !a.toks.isEmpty && (openFirings s plot).isEmpty && !writesWait s plot && !unitStalled s plot && a.loads.isEmpty then
      sectionFault 1 plot 0 0 0 s
    else s)

/-- STALE_TOKEN_DROP: a token of another epoch arrives (R146); at a paused plot none does (R152 step 1). -/
def execStaleTokenDrop (plot : Nat) (epoch : U16) (s : State) : Host.Outcome State Fault Refusal :=
  .next (if (plotOf s plot).assigned && !(plotOf s plot).stopped && epoch ≠ (plotOf s plot).arr.epoch then noteStale plot s else s)

end Sys2Proof.Machine
end

