-- ==== Sys2Proof/Machine/Sequencer.lean ====
section
/-! DEFINITION. The plot sequencer up to the fill: runs and work counters (R85, R86, R96 to R98, R102), fills (R92, R93), and the requests
that DMA engines issue for fills and commits (R95, R193 to R196, R292). -/

namespace Sys2Proof.Machine

open Sys2Proof

/-! ## Who may issue -/

/-- Does the sequencer of a plot issue: RUNNING, no drain, the plot awake and not paused? -/
def seqRuns (s : State) (p : Nat) : Bool :=
  let pl := plotOf s p
  decide (s.ctl.mode = .running) && !s.job.issueStopped && pl.assigned && !pl.stopped && decide (pl.sleep = 0)

/-- May a slice issue: its core not fenced, no confirmation check and no chunk on it (R190, R416, R438)? -/
def canIssue (s : State) (p i : Nat) : Bool := seqRuns s p && !coreDue s p i && (sliceOf s p i).confirm.isNone && !inChunk s p i

/-- Slices of a mask. -/
def maskSlices (m : U16) : List Nat := bitsOf m.toNat 16

/-- Plots that take part in a descriptor: its own, or every plot of the field that holds the spanning record (R97). -/
def spanning (s : State) (p d : Nat) (dd : Desc) : List Nat :=
  if dd.pool then
    s.job.plots.filter (fun q => fieldOfPlot q = fieldOfPlot p && (match descOf s q d with
      | some e => e.pool && e.runId = dd.runId
      | none => false))
  else [p]

/-- The run in which a slice may issue now. -/
def liveRun (s : State) (p i d : Nat) : Option (Run × Desc) :=
  match joinedRun s p d with
  | none => none
  | some (r, dd) => if canIssue s p i && !r.halted && (maskSlices dd.sliceMask).contains i then some (r, dd) else none

/-! ## Faults of a run (R102) -/

/-- A run stops handing out items and starting issues. -/
def haltRun (f k : Nat) : State → State := updRun f k (fun r => { r with halted := true })

/-- TILE_ISSUE_FAULT: descriptor, check code, tile index (R102, R345). -/
def issueFault (p i d : Nat) (dd : Desc) (code tile : Nat) (s : State) : State :=
  faultEvent ((ev 0x0105 3 [(8, d), (8, code), (32, tile)]).atSlice p i) (haltRun (fieldOfPlot p) dd.runId s)

/-! ## Opening (R98) -/

/-- A plot joins an opening: its participating slices begin, and the chain stands in the run. No operand is held from an earlier run or
descriptor: R92 speaks of consecutive issues of one walk (log entry 105, DESIGN CHOICE). -/
def joinRun (p c d : Nat) (dd : Desc) (s : State) : State :=
  let s1 := updRun (fieldOfPlot p) dd.runId (fun r => { r with joined := r.joined ++ [p] }) s
  updPlot p (fun pl => { pl with
    chains := Tab.set pl.chains c ⟨d, 1⟩
    slices := (maskSlices dd.sliceMask).foldl (fun t i =>
      Tab.upd t i Slice.empty (fun sl => { sl with work := Tab.set sl.work d Work.empty })) pl.slices }) s1

/-- The counter of a descriptor set to 0 (R97). -/
def setCounter (p : Nat) (dd : Desc) (v : Nat) (s : State) : State :=
  if dd.pool then updField (fieldOfPlot p) (fun f => { f with poolCounters := Tab.set f.poolCounters dd.counter v }) s
  else updPlot p (fun pl => { pl with counters := Tab.set pl.counters dd.counter v }) s

def counterOf (s : State) (p : Nat) (dd : Desc) : Nat :=
  if dd.pool then Tab.get (fieldOf s (fieldOfPlot p)).poolCounters dd.counter 0 else Tab.get (plotOf s p).counters dd.counter 0

/-- The parameters of a plot, 0 to 15. -/
def paramsOf (s : State) (p : Nat) : List U64 := (List.range 16).map (fun k => Tab.get (plotOf s p).params k 0#64)

/-- Part sizes of a slice. -/
def partSizes (s : State) (p i slot : Nat) : Nat := (((sliceOf s p i).slotDef slot).map (·.size)).getD 0

/-- The opening of a run in the order of R98: epoch, counter, bitmap, snapshot, checks. The event of a check that fails names the lowest slice
of `SLICE_MASK` and tile 0: R102 does not say which slice and tile an opening records (log entry 108, DESIGN CHOICE). -/
def openRun (p c d : Nat) (dd : Desc) (s : State) : State :=
  let f := fieldOfPlot p
  let ps := paramsOf s p
  let who := (spanning s p d dd).flatMap (fun q => (maskSlices dd.sliceMask).map (fun i => (q, i)))
  let s1 := updRun f dd.runId (fun r => { r with
    isOpen := true, epoch := (r.epoch + 1) % 65536, everOpened := true, plot := p, desc := d, mode := dd.commitMode, joined := [], active := who
    params := ps, bits := [], count := 0, transit := 0, halted := false, last := p, failed := [] }) s
  let s2 := joinRun p c d dd (setCounter p dd 0 (clearLedger f dd.runId s1))
  match (dd.resolve ps).openFault s.job.plots (who.map (fun a => partSizes s a.1 a.2)) with
  | none => s2
  | some code => issueFault p ((maskSlices dd.sliceMask).headD 0) d dd code 0 s2

/-- RUN_OPEN: a chain reaches its descriptor; it opens the run, joins an opening, or waits for an earlier one to close (R98). -/
def execRunOpen (plot chain : Nat) (s : State) : Host.Outcome State Fault Refusal :=
  .next (match Tab.find (plotOf s plot).chains chain with
    | none => s
    | some ch => match descOf s plot ch.desc with
      | none => s
      | some dd =>
        let r := runOf s (fieldOfPlot plot) dd.runId
        if ch.status ≠ 0 || !seqRuns s plot then s
        else if !r.isOpen then openRun plot chain ch.desc dd s
        else if r.desc = ch.desc && !r.joined.contains plot && r.active.any (fun a => a.1 = plot) then joinRun plot chain ch.desc dd s
        else s)

/-! ## Work counters (R93, R96) -/

/-- The distance of fills ahead for an operand (R87, R93). -/
def prefetchOf (sl : Slice) (dd : Desc) (op : Nat) : Nat :=
  if dd.prefetch ≠ 0 then dd.prefetch else sl.partsOf (if op = 1 then dd.slotB else if op = 2 then dd.slotC else dd.slotA) - 1

/-- Does the sequencer fetch the next item now? With `PREFETCH` 0 the distances of the operands differ, and R93 does not say which decides; the
larger of A's and B's (log entry 106, DESIGN CHOICE). -/
def fetchDue (sl : Slice) (dd : Desc) (w : Work) : Bool :=
  w.remaining dd = 0 || (dd.kind = 0 && decide (w.remaining dd < max (prefetchOf sl dd 0) (prefetchOf sl dd 1)))

/-- Have all participating slices of a plot stopped taking items? -/
def plotStopped (s : State) (p d : Nat) (dd : Desc) : Bool := (maskSlices dd.sliceMask).all (fun i => (workOf s p i d).stopped)

/-- Chains of a plot that stand at a descriptor, waiting (`st` 0) or in its run (1). -/
def moveChains (st p d : Nat) (g : Chain → Chain) : State → State :=
  updPlot p (fun pl => { pl with chains := Tab.mapVals pl.chains (fun _ c => if c.desc = d && c.status = st then g c else c) })

/-- A slice has found the counter exhausted; under OVERLAP the chain goes on when it was the plot's last (R85). -/
def stopSlice (p i d : Nat) (dd : Desc) (s : State) : State :=
  let s1 := updRun (fieldOfPlot p) dd.runId (fun r => { r with last := p }) (updWork p i d (fun w => { w with stopped := true }) s)
  if dd.chain = 2 && plotStopped s1 p d dd then moveChains 1 p d (fun _ => ⟨dd.next, 0⟩) s1 else s1

/-- WORK_COUNTER_FETCH: fetch and add; a value of items or more, or a halted run, ends the slice's work (R96, R102). -/
def execWorkCounterFetch (plot slice desc : Nat) (s : State) : Host.Outcome State Fault Refusal :=
  .next (match joinedRun s plot desc with
    | none => s
    | some (r, dd) =>
      let w := workOf s plot slice desc
      if !canIssue s plot slice || !(maskSlices dd.sliceMask).contains slice || w.stopped || !fetchDue (sliceOf s plot slice) dd w then s
      else if r.halted then stopSlice plot slice desc dd s
      else
        let v := counterOf s plot dd
        let s1 := setCounter plot dd ((v + dd.chunk) % 2 ^ 48) s
        if dd.items ≤ v then stopSlice plot slice desc dd s1
        else updWork plot slice desc (fun w => { w with ranges := w.ranges ++ [(v, min dd.chunk (dd.items - v))] }) s1)

/-! ## Fills (R90, R92, R93) -/

def Desc.slotFor (dd : Desc) (op : Nat) : Nat := match op with | 0 => dd.slotA | 1 => dd.slotB | 2 => dd.slotC | _ => dd.slotD

/-- Has a slice an issue of a descriptor under way? -/
def Slice.runs (sl : Slice) (d : Nat) : Bool := (sl.issue.toList ++ sl.ahead.toList).any (fun t => t.desc = d)

/-- Fills of a slot on their way. -/
def fillsInFlight (s : State) (p i slot : Nat) : List Transfer :=
  ((fieldOf s (fieldOfPlot p)).transfers.filter (fun e => e.2.plot = p && e.2.slice = i && e.2.slot = slot && decide (e.2.operand < 3))).map (·.2)

/-- A new transfer of a field under its next number. -/
def addTransfer (f : Nat) (t : Transfer) : State → State :=
  updField f (fun v => { v with transfers := Tab.set v.transfers v.nextId t, nextId := v.nextId + 1 })

/-- A fill issued into a part. -/
def issueFill (p i d op n place part : Nat) (dd : Desc) (s : State) : State :=
  let o := dd.operand op
  let s1 := addTransfer (fieldOfPlot p)
    ⟨p, i, d, op, dd.slotFor op, part, dd.runId, place / dd.steps, if o.remote then some o.mesh else none, dd.rows op place, 0, false, false, 0⟩ s
  updWork p i d (fun w => if dd.kind = 0 then { w with fills := w.fills ++ [⟨op, n, part⟩] } else w.advance dd n) s1

/-- The next fill of an operand: for the first issue to come without one, at most the prefetch distance ahead of the issue that runs, or of the
next one where none runs (R92, R93). A move of a FILL descriptor comes in its turn. -/
def nextFill (sl : Slice) (dd : Desc) (w : Work) (d op : Nat) : Option (Nat × Nat) :=
  if dd.kind = 0 then
    dd.fillSite op none (w.fillsOf op).length (w.upcoming dd (if sl.runs d then prefetchOf sl dd op else prefetchOf sl dd op + 1))
  else (w.upcoming dd 1).head?

/-- FILL_ISSUE: the next fill of an operand within the prefetch distance, once its part is empty (R67, R93); a misaligned address is a
tile-issue fault (R101 check 0x09). -/
def execFillIssue (plot slice desc operand : Nat) (s : State) : Host.Outcome State Fault Refusal :=
  .next (match liveRun s plot slice desc with
    | none => s
    | some (_, dd) =>
      let w := workOf s plot slice desc
      let sl := sliceOf s plot slice
      if dd.kind = 2 || !dd.usedOps.contains operand || operand = 3 then s
      else match nextFill sl dd w desc operand with
        | none => s
        | some (n, place) =>
          let slot := dd.slotFor operand
          let busy := fillsInFlight s plot slice slot
          let part := ((sl.slot slot).prod + busy.length) % sl.partsOf slot
          if !addrAligned (dd.addr operand place) then issueFault plot slice desc dd 0x09 (place / dd.steps) s
          else if sl.partFull slot part then stallSlice plot slice slot part true desc s
          else if busy.any (fun t => t.part = part) then s
          else issueFill plot slice desc operand n place part dd s)

/-! ## DMA engines (R193 to R196) -/

/-- Engines in use, of a field or of one plot. -/
def enginesOf (f : Field) (p : Option Nat) : Nat :=
  (f.transfers.filter (fun e => e.2.engine && (match p with
    | none => true
    | some q => e.2.plot = q))).length

/-- Tracked requests of a plot (R194). -/
def trackedBy (s : State) (p : Nat) : Nat :=
  let own := fun (d : ReqDest) => match d with
    | .window _ _ => false
    | _ => true
  ((fieldOf s (fieldOfPlot p)).requests.filter (fun e => e.2.plot = p && own e.2.dest)).length
    + (s.mesh.remote.filter (fun e => match e.2.dest with
      | .fill _ q _ _ => q = p
      | _ => false)).length

/-- The piece that starts at a byte of a transfer: its address and its length, at most 256 bytes and within one 256-byte block (R193). -/
def pieceAt (rows : List (Int × Nat)) (off : Nat) : Option (Int × Nat) :=
  match rows with
  | [] => none
  | (a, n) :: t => if off < n then
      let x := a + off
      some (x, min (n - off) (256 - (x % 256).toNat))
    else pieceAt t (off - n)

/-- Transfers of a field that wait for a shared tracked request, in order of request. -/
def trackerWaiters (f : Field) : List Nat := f.trackerQueue.filter (fun t => (Tab.find f.transfers t).isSome)

/-- Is a tracked request free for a transfer of a plot: one of the plot's own 128, or one of the shared rest, which go out in order of request
(R194)? -/
def trackerFree (s : State) (t p : Nat) : Bool :=
  let ps := s.job.plots.filter (fun q => fieldOfPlot q = fieldOfPlot p)
  decide (trackedBy s p < 128)
    || (decide ((ps.map (fun q => trackedBy s q - 128)).foldl (· + ·) 0 < 16384 - 128 * ps.length)
      && ((trackerWaiters (fieldOf s (fieldOfPlot p))).headD t = t))

/-- Plots of a field with a transfer that waits for an engine and that may take one. -/
def enginePlots (s : State) (f : Nat) : List Nat :=
  let fl := fieldOf s f
  ((fl.transfers.filter (fun e => !e.2.engine && (pieceAt e.2.rows e.2.offset).isSome && !(plotOf s e.2.plot).stopped
    && decide (enginesOf fl (some e.2.plot) < 8))).map (·.2.plot)).eraseDups

/-- The plot that is granted the next engine: round-robin in ascending order of plot from the one granted last (R193). -/
def engineNext (s : State) (f : Nat) : Option Nat :=
  let l := enginePlots s f
  let least := fun (l : List Nat) => match l with
    | [] => none
    | a :: r => some (r.foldl min a)
  (least (l.filter (fun p => decide ((fieldOf s f).engineTurn < p)))).orElse (fun _ => least l)

/-- May a transfer have an engine now: it holds one, or the field has one free and its plot is next? -/
def engineFree (s : State) (f : Nat) (tr : Transfer) : Bool :=
  tr.engine || (decide (enginesOf (fieldOf s f) none < 64) && decide (engineNext s f = some tr.plot))

/-- The remote-window entry that holds a range and gives a right (R292). -/
def remoteEntryFor (s : State) (mesh : Nat) (a : Int) (n : Nat) (right : RemoteWin → Bool) : Option RemoteWin :=
  s.job.remotes.find? (fun w => w.target = mesh && decide ((w.base : Int) ≤ a) && decide (a + n ≤ ((w.base + w.size : Nat) : Int)) && right w)

/-- A read of a remote window: 64-byte steps from the line that holds the address (R275, R293). -/
def sendRemoteRead (f : Nat) (dest : ReqDest) (w : RemoteWin) (a n : Nat) (s : State) : State :=
  let c := nextNonce (requestCounter w.target w.window) s
  let tag := s.mesh.nextTag
  let len := (a % 64 + n + 63) / 64 * 64
  let pkt : Pkt := ⟨0x01, 0, false, false, w.window, tag, a - a % 64, 0, false, c.1, s.mesh.addr.getD 0#16, BitVec.ofNat 16 w.target, 63, 0, some w.key, le 2 len⟩
  carryOut f (.gateway (outwardEdge f) 16) 0 pkt (.reply pkt) (sendPkt 0 pkt)
    (mapMesh (fun m => { m with
      remote := Tab.set m.remote tag ⟨BitVec.ofNat 16 w.target, w.window, false, a, n, dest, f, false⟩
      nextTag := (tag + 1) % 65536 }) c.2)

/-- Zeros for a read without rights; a write without rights is discarded (R56, R95, R195). -/
def denied (f t : Nat) (tr : Transfer) (off n cause : Nat) (scope : VScope) (s : State) : State :=
  let s1 := violation cause scope (sourceSlice s tr.plot tr.slice) s
  if tr.operand < 3 then landFill f t off (List.replicate n 0#8) false s1 else s1

/-- A tracked request to the scratchpad aperture, performed at its slice (R68, R80). -/
def performAccess (f rid : Nat) (s : State) : State :=
  match requestOf s f rid with
  | none => s
  | some q => match apertureOf q.addr with
    | none => endAccess f rid (List.replicate q.len 0#8) false s
    | some (p, i, off) =>
      if q.write then
        let r := spadStore p i off q.data 0 (sourceSlice s q.plot q.slice) s
        answerAccess f rid p i [] r.2 r.1
      else
        let r := spadLoad p i off q.len 0 (sourceSlice s q.plot q.slice) s
        answerAccess f rid p i r.2.1 r.2.2 r.1

/-- Where a request enters the trellis: the data of a write at its slice, which sends it; a read where its engine stands, beside the outward edge of the field
(R193), in the column of what it reads (log entry 101). -/
def requestSite (s : State) (f : Nat) (tr : Transfer) (col : Nat) : Site :=
  if tr.operand = 3 then sliceSite s tr.plot tr.slice else .gateway (outwardEdge f) col

/-- A request to the scratchpad aperture, addressed by offset (R68, R80): it travels to the slice that it names, and waits in a hold pool while that plot's traffic is held; it stays tracked (R194). -/
def apertureRequest (f t : Nat) (tr : Transfer) (a n : Nat) (data : List Byte) (s : State) : State :=
  match apertureOf a with
  | none => denied f t tr tr.offset n 0x01 .none s
  | some (p, i, _) =>
    if !(plotOf s p).assigned then denied f t tr tr.offset n 0x03 .none s
    else
      let rid := (fieldOf s f).nextId
      carry f (requestSite s f tr (sliceCore s p i).1) 0 (.slice p i) (.access f rid) (holdOne f rid) (performAccess f rid)
        (addRequest f ⟨decide (tr.operand = 3), a, n, data, if tr.operand = 3 then .commit t else .fill t tr.plot tr.slice tr.offset,
          tr.plot, tr.slice, true, [], false, 0⟩ s)

/-- One request to a local address (R195, R203, R204): to a stack controller, to the aperture, or a silent violation. -/
def localRequest (f t : Nat) (tr : Transfer) (a : Int) (n : Nat) (data : List Byte) (s : State) : State :=
  let x := a.toNat
  if a < 0 || decide ((2 : Int) ^ 48 ≤ a) then denied f t tr tr.offset n 0x01 .none s
  else if inAperture a then apertureRequest f t tr x n data s
  else if closedRange x then denied f t tr tr.offset n 0x03 .none s
  else match regionAt s.hbm.regions x with
    | none => denied f t tr tr.offset n 0x01 .none s
    | some (id, r) =>
      if r.owner ≠ s.job.principal || !bit r.rights (if tr.operand < 3 then 0 else 1) then denied f t tr tr.offset n 0x02 (.region id) s
      else
        sendRequest f (requestSite s f tr ((addressGateway s f x).2.lane 0)) f (fieldOf s f).nextId x
          (addRequest f ⟨decide (tr.operand = 3), x, n, data, if tr.operand = 3 then .commit t else .fill t tr.plot tr.slice tr.offset,
            tr.plot, tr.slice, false, [], false, 0⟩ s)

/-- DMA_REQUEST_ISSUE: an engine issues the next request of a transfer. A transfer without an engine takes one when the field has one free and its
plot's turn has come (R193); an engine without a tracked request waits a mesh cycle (R194). -/
def execDmaRequestIssue (field transfer : Nat) (s : State) : Host.Outcome State Fault Refusal :=
  .next (match transferOf s field transfer with
    | none => s
    | some tr => match pieceAt tr.rows tr.offset with
      | none => s
      | some (a, n) =>
        if (plotOf s tr.plot).stopped || !engineFree s field tr then s
        else
          let s1 := if tr.engine then s else
            updField field (fun v => { v with engineTurn := tr.plot }) (updTransfer field transfer (fun v => { v with engine := true }) s)
          if !trackerFree s1 transfer tr.plot then
            updField field (fun v => { v with trackerQueue := if v.trackerQueue.contains transfer then v.trackerQueue else v.trackerQueue ++ [transfer] })
              (updPlot tr.plot (fun pl => { pl with trackerWait := satInc 64 pl.trackerWait }) s1)
          else
            let s2 := updField field (fun v => { v with trackerQueue := v.trackerQueue.filter (· ≠ transfer) })
              (updTransfer field transfer (fun v => { v with offset := v.offset + n }) s1)
            let sl := sliceOf s tr.plot tr.slice
            let data := if tr.operand = 3 then sl.bytes (sl.partBase tr.slot tr.part + tr.offset) n else []
            match tr.remote with
            | none => localRequest field transfer tr a n data s2
            | some mesh => match remoteEntryFor s mesh a n (·.rd) with
              | none => denied field transfer tr tr.offset n 0x04 .none s2
              | some w => sendRemoteRead field (.fill transfer tr.plot tr.slice tr.offset) w a.toNat n s2)

end Sys2Proof.Machine
end

