-- ==== Sys2Proof/Machine/Tiles.lean ====
section
/-! DEFINITION. Tile issues and their faults: operands in, drain, checksum verdict, replay, confirmation check (R26, R41, R47, R48, R65, R66, R90 to
R92, R108 to R110, R414 to R420, R483), the end of a fill (R65, R218), and the slot-wait fault (R74). -/

namespace Sys2Proof.Machine

open Sys2Proof

/-! ## Replay (R110, R418) -/

/-- The part of an operand where the slots go back to when the failed issue's own is gone: that of the first fill in place, else the next to fill. -/
def Slice.firstPart (sl : Slice) (dd : Desc) (w : Work) (op : Nat) : Nat :=
  match (w.fillsOf op).head? with
  | some e => e.part
  | none => (sl.slot (dd.slotFor op)).prod

/-! ### Tile issues in the accumulator banks (R38, R39) -/

/-- E of R39. -/
def Desc.entries (dd : Desc) : Nat := (if dd.pair then 2 else 1) * (dd.m * dd.n)

/-- The issues of a slice that have not ended, oldest first. -/
def Slice.issues (sl : Slice) : List TileIssue := sl.issue.toList ++ sl.ahead.toList

def Slice.setIssues (sl : Slice) (l : List TileIssue) : Slice := { sl with issue := l.head?, ahead := (l.drop 1).head? }

/-- The oldest issue ends: the one in the other bank, if there is one, drains next. -/
def Slice.endIssue (sl : Slice) : Slice := { sl with issue := sl.ahead, ahead := none }

/-- An issue that has failed leaves the accumulator; the one in the other bank goes on (R111). -/
def Slice.dropIssue (sl : Slice) (d n : Nat) : Slice := sl.setIssues (sl.issues.filter (fun t => !(t.desc = d && t.number = n)))

/-- May a tile of `e` entries start: into an empty accumulator, or double-banked beside one tile that leaves a bank free (R39)? -/
def Slice.bankFree (sl : Slice) (e : Nat) : Bool :=
  match sl.issue with
  | none => true
  | some t => sl.ahead.isNone && decide (e ≤ bankEntries) && decide (t.entries ≤ bankEntries)

/-- The bank of a tile that starts now. -/
def Slice.nextBank (sl : Slice) : Nat := match sl.issue with | none => 0 | some t => 1 - t.bank

/-- A tile takes its bank. -/
def Slice.startIssue (sl : Slice) (ti : TileIssue) : Slice := if sl.issue.isNone then { sl with issue := some ti } else { sl with ahead := some ti }

/-- Parts emptied, and both indices at a part. -/
def Slice.rewindSlot (sl : Slice) (slot part : Nat) (parts : List Nat) : Slice :=
  let v := parts.foldl (fun sl k => sl.forceEmpty slot k) sl
  v.setSlot slot { v.slot slot with prod := part, cons := part }

/-- The parts of a slot that hold fills of any descriptor. -/
def slotFills (s : State) (p i slot : Nat) : List Nat :=
  (sliceOf s p i).work.flatMap (fun e => match descOf s p e.1 with
    | none => []
    | some d => (e.2.fills.filter (fun r => d.slotFor r.operand = slot)).map (·.part))

/-- A slot goes back to a part: every fill in it is dropped and made again, in order, when its issue comes (R418). -/
def rewindSlot (p i slot part : Nat) (s : State) : State :=
  let gone := slotFills s p i slot
  let s1 := updField (fieldOfPlot p) (fun f => { f with
    transfers := f.transfers.filter (fun e => !(e.2.plot = p && e.2.slice = i && e.2.slot = slot && decide (e.2.operand < 3) && gone.contains e.2.part)) }) s
  updSlice p i (fun sl =>
    let v := sl.rewindSlot slot part (part :: gone)
    { v with work := Tab.mapVals v.work (fun k w => match descOf s p k with
      | none => w
      | some d => { w with fills := w.fills.filter (fun r => d.slotFor r.operand ≠ slot) }) }) s1

/-- The slots of A, B and C go back to the parts of a failed issue (R418). -/
def rewind (p i : Nat) (dd : Desc) (part : Nat → Nat) (s : State) : State :=
  forEach (dd.usedOps.filter (fun op => decide (op < 3))) (fun op => rewindSlot p i (dd.slotFor op) (part op)) s

/-- Does the replay of a step start again from step 0, because the partial that the step reads is poisoned (R110)? -/
def partialLost (sl : Slice) (dd : Desc) (place : Nat) : Bool :=
  let j := place % dd.steps
  j ≠ 0 && sl.partPoisoned dd.slotP ((j - 1) % 2)

/-- The partial that a replayed step reads is full again; a restart from step 0 leaves it empty (R110). -/
def Slice.restorePartial (sl : Slice) (dd : Desc) (place : Nat) (restart : Bool) : Slice :=
  let j := place % dd.steps
  if j = 0 then sl
  else if restart then sl.forceEmpty dd.slotP ((j - 1) % 2)
  else sl.forceFull dd.slotP ((j - 1) % 2)

/-- A tile issue is to be made again (R110, R414, R418, R420): its slots, its partial, the walk and the failures of its tile, of which a first one is
replayed, a second goes to the confirmation check, and one after a slide is a job fault. The issue in the other bank goes on. -/
def replayIssue (p i d : Nat) (dd : Desc) (r : Run) (n place code cause : Nat) (restart : Bool) (part : Nat → Nat) (s : State) : State :=
  let tile := place / dd.steps
  let f := (workOf s p i d).failsOf tile
  let why := if restart then 4 else cause
  let s1 := updSlice p i (fun sl => (sl.dropIssue d n).restorePartial dd place restart) (rewind p i dd part s)
  let s2 := updWork p i d (fun w => (w.replay dd tile (if restart then rangeFrom (n - place % dd.steps) (place % dd.steps + 1) else [n])).noteFail tile n code why) s1
  if f.slid then jobFault 0x02 code s2
  else if f.count = 0 then noteReplay p i r dd tile why s2
  else updSlice p i (fun sl => { sl with confirm := some 0 }) s2

/-- A tile issue fails: it is replayed; a drain, or a run that has stopped, abandons it alone, and so does the end of its tile (R100, R102, R111,
R218). -/
def tileFailed (p i d : Nat) (dd : Desc) (r : Run) (n place code cause : Nat) (part : Nat → Nat) (s : State) : State :=
  if s.job.issueStopped || r.halted || (workOf s p i d).skipped.contains (place / dd.steps) then updSlice p i (fun sl => sl.dropIssue d n) s
  else replayIssue p i d dd r n place code cause (partialLost (sliceOf s p i) dd place) part s

/-! ## Counting and commits (R99, R103) -/

/-- A tile counted once in its run. -/
def countTile (f k tile : Nat) : State → State :=
  updRun f k (fun r => if r.bits.contains tile then r else { r with bits := r.bits ++ [tile], count := satInc 32 r.count })

/-- A commit of a part, in transit from now on (R104, R105). -/
def createCommit (p i d : Nat) (dd : Desc) (r : Run) (place part : Nat) (s : State) : State :=
  let f := fieldOfPlot p
  updRun f dd.runId (fun v => { v with transit := v.transit + 1 })
    (updField f (fun v => { v with
      commits := Tab.set v.commits v.nextId
        ⟨dd.runId, r.epoch, place / dd.steps, p, i, d, dd.slotD, part, dd.rows 3 place, dd.commitMode, 0, false⟩
      nextId := v.nextId + 1 }) s)

/-! ## Tile issue (R25, R26, R66, R90 to R92) -/

/-- The operand parts that an issue at a place has read for the last time are released; a part that the next issue reads again stays (R66, R92). `w` is
the walk after the issue. -/
def releaseRead (p i d place : Nat) (dd : Desc) (w : Work) (ops : List Nat) (s : State) : State :=
  forEach ops (fun op s =>
    let slot := dd.slotFor op
    match ((workOf s p i d).fillsOf op).head? with
    | none => updSlice p i (fun sl => sl.release slot (sl.slot slot).cons) s
    | some e =>
      if op ≠ 2 && decide ((w.place dd (w.next dd)).map (dd.addr op) = some (dd.addr op place)) then s
      else updWork p i d (fun w => { w with fills := w.fills.erase e }) (updSlice p i (fun sl => sl.release slot e.part) s)) s

/-- The part that the next issue reads of an operand: its fill's, else where the consumer index stands. -/
def readPart (sl : Slice) (dd : Desc) (w : Work) (op : Nat) : Nat :=
  match (w.fillsOf op).head? with
  | some e => e.part
  | none => (sl.slot (dd.slotFor op)).cons

/-- Operands that a step reads by fill: C only at step 0. -/
def issueOps (dd : Desc) (j : Nat) : List Nat := dd.usedOps.filter (fun op => op = 0 || op = 1 || (op = 2 && j = 0))

/-- Bytes of the operands of a step, read by the matrix-issue port: A, B, and C or the partial. The flag says that a double-bit error
was found. -/
def readOperands (p i : Nat) (dd : Desc) (j : Nat) (part : Nat → Nat) (s : State) : State × List Byte × List Byte × List Byte × Bool :=
  let sl := sliceOf s p i
  let src := sourceSlice s p i
  let a := spadLoad p i (sl.partBase dd.slotA (part 0)) (dd.totalBytes 0) 1 src s
  let b := spadLoad p i (sl.partBase dd.slotB (part 1)) (dd.totalBytes 1) 1 src a.1
  let c : Loaded := if j ≠ 0 then spadLoad p i (sl.partBase dd.slotP ((j - 1) % 2)) dd.partialBytes 1 src b.1
    else if dd.accInit = 1 then spadLoad p i (sl.partBase dd.slotC (part 2)) (dd.totalBytes 2) 1 src b.1
    else (b.1, [], false)
  (c.1, a.2.1, b.2.1, c.2.1, a.2.2 || b.2.2 || c.2.2)

/-- Does a step read a part whose poison bit is set (R108)? -/
def poisonedRead (sl : Slice) (dd : Desc) (j : Nat) (part : Nat → Nat) : Bool :=
  (issueOps dd j).any (fun op => sl.partPoisoned (dd.slotFor op) (part op)) || (j ≠ 0 && sl.partPoisoned dd.slotP ((j - 1) % 2))

/-- A tile issue under way, with the accumulator that it holds at drain and its predicted sums. -/
def startTile (p i d n place : Nat) (dd : Desc) (r : Run) (a b : Mat) (cb : List Byte) (part : Nat → Nat) (s : State) : State :=
  let j := place % dd.steps
  let t := dd.spec j
  let c0 := initAcc t cb
  let acc := multiply t a b c0
  let ps := predictSums t a b c0
  let ti : TileIssue := ⟨d, dd.runId, r.epoch, place / dd.steps, j, decide (j + 1 = dd.steps), n, dd.m, dd.n, acc.map (·.hi),
    if dd.pair then acc.map (·.lo) else [], acc.any (·.flow), ps.1, ps.2, part 0, part 1, part 2, (sliceOf s p i).nextBank, []⟩
  let s1 := releaseRead p i d place dd ((workOf s p i d).advance dd n) (issueOps dd j)
    (updSlice p i (fun sl => if j ≠ 0 then sl.release dd.slotP ((j - 1) % 2) else sl) s)
  let s2 := updWork p i d (fun w => w.advance dd n) s1
  updSlice p i (fun sl => { sl.startIssue ti with bankConflict := satAdd 64 sl.bankConflict (Config.freeU64 (32 * s.free)).toNat }) (drawFree (noteWork p i s2))

/-- A tile issue whose operand parts are full: its checks at issue, its reads, its start (R101, R108). -/
def issueTile (p i d n place : Nat) (dd : Desc) (r : Run) (part : Nat → Nat) (s : State) : State :=
  let j := place % dd.steps
  if dd.commitMode ≠ 2 && !addrAligned (dd.addr 3 place) then issueFault p i d dd 0x09 (place / dd.steps) s
  else
    let rd := readOperands p i dd j part s
    if rd.2.2.2.2 || poisonedRead (sliceOf s p i) dd j part then tileFailed p i d dd r n place 0x010C 3 part rd.1
    else match readMat dd.aFmt dd.bsCode dd.m dd.k false rd.2.1, readMat dd.bFmt dd.bsCode dd.n dd.k dd.sparse rd.2.2.1 with
      | some a, some b => startTile p i d n place dd r a b rd.2.2.2.1 part rd.1
      | _, _ => issueFault p i d dd 0x10 (place / dd.steps) rd.1

/-- A move of a COMMIT descriptor: the next part of `SLOT_D`, once full, is committed (R90); a part whose commit is not yet answered is still
the earlier move's (R66). -/
def issueMove (p i d n place : Nat) (dd : Desc) (r : Run) (s : State) : State :=
  let sl := sliceOf s p i
  let out := ((fieldOf s (fieldOfPlot p)).commits.filter (fun e => e.2.plot = p && e.2.slice = i && e.2.slot = dd.slotD && decide (e.2.part < 16))).map (·.2.part)
  let part := ((sl.slot dd.slotD).cons + out.length) % sl.partsOf dd.slotD
  if !addrAligned (dd.addr 3 place) then issueFault p i d dd 0x09 place s
  else if out.contains part then s
  else if !sl.partFull dd.slotD part then stallSlice p i dd.slotD part false d s
  else
    updWork p i d (fun w => w.advance dd n) (createCommit p i d dd r place part s)

/-- Does a replay of another descriptor of the slice go first: one whose restored partial keeps an issue in an accumulator bank from draining
(R110)? -/
def replayAhead (s : State) (p i d : Nat) : Bool :=
  (sliceOf s p i).work.any (fun e => e.1 ≠ d && (sliceOf s p i).runs e.1 && (match joinedRun s p e.1, e.2.redo with
    | some (r, dd), n :: _ => !r.halted && decide (((e.2.place dd n).getD 0) % dd.steps ≠ 0)
    | _, _ => false))

/-- TILE_ISSUE: the next issue of a slice, once an accumulator bank is free for it (R39) and its operand parts are full; an empty one stalls
the port (R67). For a COMMIT descriptor it is the next move. -/
def execTileIssue (plot slice desc : Nat) (s : State) : Host.Outcome State Fault Refusal :=
  .next (match liveRun s plot slice desc with
    | none => s
    | some (r, dd) =>
      let w := workOf s plot slice desc
      let sl := sliceOf s plot slice
      match w.place dd (w.next dd) with
      | none => s
      | some place =>
        let j := place % dd.steps
        let part := readPart sl dd w
        if dd.kind = 1 then s
        else if dd.kind = 2 then issueMove plot slice desc (w.next dd) place dd r s
        else if !sl.bankFree dd.entries || replayAhead s plot slice desc then s
        else match (issueOps dd j).find? (fun op => !sl.partFull (dd.slotFor op) (part op)) with
          | some op => stallSlice plot slice (dd.slotFor op) (part op) false desc s
          | none =>
            if j ≠ 0 && !sl.partFull dd.slotP ((j - 1) % 2) then stallSlice plot slice dd.slotP ((j - 1) % 2) false desc s
            else issueTile plot slice desc (w.next dd) place dd r part s)

/-! ## Drain and check (R41, R43, R47, R48, R65, R483) -/

/-- A sum as it compares at drain: index, O, P and M, verdict. -/
structure SumAt where
  index : Nat
  o : Nat
  p : Nat
  m : Nat
  verdict : SumCheck
  deriving DecidableEq, Repr

/-- The tolerance in force: 0 selects 12 (R49). -/
def tolInForce (s : State) : Nat := if s.job.tolExp = 0 then 12 else s.job.tolExp

/-- Sums of the columns (or rows) against their predictions. -/
def checkAll (s : State) (t : TileSpec) (preds : List (Nat × Nat)) (part : Nat → List AccEl) : List SumAt :=
  preds.zipIdx.map (fun e =>
    let o := observe t (part e.2)
    ⟨e.2, o, e.1.1, e.1.2, checkSum t (tolInForce s) s.job.tolAbs o e.1⟩)

/-- An INT32 sum sign-extended to 64 bits; a binary64 value as it is (R483). -/
def sumBits (t : TileSpec) (v : Nat) : Nat := if t.isInt then toBits 64 (ofBits 32 v) else v

/-- CHECKSUM_FAULT with its three continuation records (R483). -/
def noteChecksum (p i : Nat) (ti : TileIssue) (t : TileSpec) (cols rows : List SumAt) (s : State) : State :=
  let fc := cols.filter (fun e => e.verdict = .fail)
  let fr := rows.filter (fun e => e.verdict = .fail)
  let v := fun (l : List SumAt) (g : SumAt → Nat) => (l.head?.map (fun e => sumBits t (g e))).getD 0
  let w := fun (l : List SumAt) => (l.head?.map (fun e => if t.isInt then 0 else e.m)).getD 0
  let ix := fun (l : List SumAt) => (l.head?.map (·.index)).getD 0xFFFF
  recordLong ((ev 0x0102 2 [(6, ti.run), (10, 0), (16, ti.epoch), (20, ti.tile), (12, 0), (16, ix fc), (16, ix fr), (8, fc.length), (8, fr.length),
      (5, tolInForce s)]).atSlice p i)
    [[(64, v fc (·.o)), (64, v fc (·.p))], [(64, w fc), (64, v fr (·.o))], [(64, v fr (·.p)), (64, w fr)]] s

/-- Entries of the accumulator changed by a defect. -/
def upset (l : List (Nat × U32)) (acc : List U32) : List U32 := l.foldl (fun a e => a.set e.1 e.2) acc

/-- The accumulator of an issue at drain, element by element. -/
def accEls (ti : TileIssue) (u : TileUpset) : List AccEl := ((upset u.entries ti.acc).zipIdx).map (fun e => ⟨e.1, nth ti.lo e.2 0#32, false⟩)

/-- Where a passed issue drains: `SLOT_D` at the producer index, or the partial part of its step (R91). -/
def drainTarget (sl : Slice) (dd : Desc) (ti : TileIssue) : Nat × Nat :=
  if ti.lastStep then (dd.slotD, (sl.slot dd.slotD).prod) else (dd.slotP, ti.step % 2)

/-- The failures of a tile are forgotten when its D part is released, or consumed in place (R420). -/
def forgetTile (p i d tile : Nat) : State → State := updWork p i d (fun w => { w with fails := Tab.erase w.fails tile })

/-- An issue that passes where its tile's first replay was still to pass: a recovered fault of its core (R415). -/
def repeatPassed (p i : Nat) (ti : TileIssue) (s : State) : State :=
  let f := (workOf s p i ti.desc).failsOf ti.tile
  if f.pending && f.number = ti.number then
    let s1 := updWork p i ti.desc (fun w => { w with fails := Tab.upd w.fails ti.tile TileFail.none (fun f => { f with pending := false }) }) s
    if f.count = 1 && !f.slid then noteSliceRecovered p i f.code s1 else s1
  else s

/-- A passed issue: drained, published, counted or committed (R65, R99, R103). -/
def drainPass (p i : Nat) (dd : Desc) (r : Run) (ti : TileIssue) (els : List AccEl) (target : Nat × Nat) (s : State) : State :=
  let t := dd.spec ti.step
  let data := if ti.lastStep then drainAll dd.drainFmt dd.sat dd.pair dd.shift els else drainAll (partialFmt t) false dd.pair 0 els
  let st := spadStore p i ((sliceOf s p i).partBase target.1 target.2) data 1 (sourceSlice s p i) s
  let s1 := repeatPassed p i ti (updSlice p i (fun sl => (sl.publish target.1 target.2).endIssue) st.1)
  if !ti.lastStep then s1
  else if dd.commitMode = 2 then countTile (fieldOfPlot p) dd.runId ti.tile (forgetTile p i ti.desc ti.tile s1)
  else createCommit p i ti.desc dd r (ti.tile * dd.steps + ti.step) target.2 s1

/-- ONDIE_UE for an entry of an issue: two entries to a 64-bit word, and a single-banked tile goes on in bank 1 (R38, R40, R41). -/
def TileIssue.accUe (ti : TileIssue) (k : Nat) : EventRec := ondieUe 1 (ti.bank + k / bankEntries) (k % bankEntries / 2) 1

/-- The end of a tile issue whose destination part is empty. A floating-point tile whose sum overflowed counts in the overflow counter as a wrapped integer one does
(R36 names the latter, R42 only the flag: log entry 126, DESIGN CHOICE). -/
def drainTile (p i : Nat) (dd : Desc) (r : Run) (ti : TileIssue) (u : TileUpset) (target : Nat × Nat) (discard : Bool) (s : State) : State :=
  let t := dd.spec ti.step
  let place := ti.tile * dd.steps + ti.step
  let part := fun op => if op = 0 then ti.partA else if op = 1 then ti.partB else ti.partC
  let s0 := updSlice p i (fun sl => { sl with accCe := satAdd 64 sl.accCe u.corrected }) (endWork p i s)
  let bad := (u.accDouble.toList ++ ti.ue).map ti.accUe
  if !bad.isEmpty then tileFailed p i ti.desc dd r ti.number place 0x010C 2 part (forEach bad.eraseDups (fun e => record (e.atSlice p i)) s0)
  else
    let els := accEls ti u
    let cols := checkAll s t ti.predCol (colOf t els)
    let rows := checkAll s t ti.predRow (rowOf t els)
    let n := ((cols ++ rows).filter (fun e => e.verdict = .unchecked)).length
    let s1 := updSlice p i (fun sl => { sl with
      uncheckedSums := satAdd 64 sl.uncheckedSums n
      overflowTiles := if ti.overflow then satInc 64 sl.overflowTiles else sl.overflowTiles
      flags := ⟨els.any (·.isNan t), ti.overflow, decide (0 < n)⟩ }) s0
    if (cols ++ rows).any (fun e => e.verdict = .fail) then
      tileFailed p i ti.desc dd r ti.number place 0x0102 1 part (noteChecksum p i ti t cols rows s1)
    else if discard then updSlice p i Slice.endIssue s1
    else drainPass p i dd r ti els target s1

/-- TILE_DRAIN_CHECK: `u` is what strikes the accumulator. A destination part that is still full stalls the drain (R67); under a drain or in a
stopped run only the last step of a tile still counts (R100, R102); the result of an abandoned tile is discarded (R218). -/
def execTileDrainCheck (plot slice : Nat) (u : TileUpset) (s : State) : Host.Outcome State Fault Refusal :=
  .next (match (sliceOf s plot slice).issue with
    | none => s
    | some ti => match joinedRun s plot ti.desc with
      | none => s
      | some (r, dd) =>
        let sl := sliceOf s plot slice
        let target := drainTarget sl dd ti
        let discard := ((s.job.issueStopped || r.halted) && !ti.lastStep) || (workOf s plot slice ti.desc).skipped.contains ti.tile
        if (plotOf s plot).stopped || coreDue s plot slice then s
        else if !discard && sl.partFull target.1 target.2 then stallSlice plot slice target.1 target.2 true ti.desc s
        else drainTile plot slice dd r ti u target discard s)

/-! ## Confirmation check (R416, R420) -/

/-- A tile of a slice that has failed twice and is still to pass. -/
def twiceFailed (sl : Slice) : Option TileFail :=
  ((sl.work.flatMap (fun e => e.2.fails.map (·.2))).find? (fun f => decide (2 ≤ f.count) && f.pending))

/-- CONFIRMATION_CHECK_DONE: a core that passes computes correctly, so the job ends; one that fails is fenced, and the tile or firing is
repeated on the new core after the slide (`replayWaiting`). -/
def execConfirmationCheckDone (plot slice : Nat) (pass : Bool) (s : State) : Host.Outcome State Fault Refusal :=
  .next (
    let sl := sliceOf s plot slice
    let s1 := updSlice plot slice (fun v => { v with confirm := none }) s
    match sl.confirm with
    | none => s
    | some 0 => match twiceFailed sl with
      | none => s1
      | some f => if pass then jobFault 0x02 f.code s1 else fenceSliceCore plot slice f.code s1
    | some _ => if pass then jobFault 0x03 0x0103 s1 else fenceSliceCore plot slice 0x0103 s1)

/-! ## The end of a fill (R65, R108, R218) -/

/-- The issue number of a place of the nest. -/
def numberOf (per : Nat) (ranges : List (Nat × Nat)) (place base : Nat) : Option Nat :=
  match ranges with
  | [] => none
  | (f, c) :: t => if f * per ≤ place && place < (f + c) * per then some (base + (place - f * per)) else numberOf per t place (base + c * per)

/-- The fills of an operand from the first that was made for a tile on are dropped, their parts empty, the producer index back at the first of them. -/
def dropFills (p i d tile : Nat) (dd : Desc) (op : Nat) (s : State) : State :=
  let w := workOf s p i d
  let slot := dd.slotFor op
  let gone := (w.fillsOf op).dropWhile (fun e => w.tileOf dd e.number ≠ some tile)
  match gone with
  | [] => s
  | e0 :: _ =>
    let parts := gone.map (·.part)
    let s1 := updField (fieldOfPlot p) (fun f => { f with
      transfers := f.transfers.filter (fun e => !(e.2.plot = p && e.2.slice = i && e.2.slot = slot && decide (e.2.operand < 3) && parts.contains e.2.part)) }) s
    let left := (fillsInFlight s1 p i slot).length
    let s2 := updSlice p i (fun sl =>
      let v := parts.foldl (fun sl k => sl.forceEmpty slot k) sl
      v.setSlot slot { v.slot slot with prod := (e0.part + v.partsOf slot - left % v.partsOf slot) % v.partsOf slot }) s1
    updWork p i d (fun w => { w with fills := w.fills.filter (fun e => !gone.contains e) }) s2

/-- Parts that an issue has read and that the next one does not read are released. -/
def releaseHeld (p i d : Nat) (dd : Desc) (s : State) : State :=
  forEach [0, 1] (fun op s =>
    let w := workOf s p i d
    match (w.fillsOf op).head? with
    | none => s
    | some e =>
      if w.redo.contains e.number || decide (w.issue ≤ e.number)
          || decide ((w.place dd (w.next dd)).map (dd.addr op) = (w.place dd e.number).map (dd.addr op)) then s
      else updWork p i d (fun w => { w with fills := w.fills.erase e }) (updSlice p i (fun sl => sl.release (dd.slotFor op) e.part) s)) s

/-- The partial part that an issue number reads as C. -/
def Work.partialRead (w : Work) (dd : Desc) (n : Nat) : Option Nat :=
  match w.place dd n with
  | none => none
  | some q => if q % dd.steps = 0 then none else some ((q % dd.steps - 1) % 2)

/-- The partial parts of a tile that is abandoned: all where the walk stands in its reduction, but for a part that a replay waits to read; the
restored one where a replay of it was waiting. -/
def abandonedPartials (w : Work) (dd : Desc) (tile : Nat) : List Nat :=
  let mine := w.redo.filter (fun n => w.tileOf dd n = some tile)
  let other := (w.redo.filter (fun n => w.tileOf dd n ≠ some tile)).head?.bind (w.partialRead dd)
  if w.midTile dd && w.tileOf dd w.issue = some tile then [0, 1].filter (fun k => other != some k) else (mine.head?.bind (w.partialRead dd)).toList

/-- The output tile is abandoned: its fills, replays and partials go, the walk steps over it (R218 SKIP_TILE). -/
def skipTile (p i d : Nat) (dd : Desc) (tile : Nat) (s : State) : State :=
  let parts := abandonedPartials (workOf s p i d) dd tile
  let s1 := forEach (dd.usedOps.filter (fun op => decide (op < 3))) (fun op => dropFills p i d tile dd op) s
  let s2 := updWork p i d (fun w =>
    let v := { w with skipped := w.skipped ++ [tile], redo := w.redo.filter (fun n => w.tileOf dd n ≠ some tile), fails := Tab.erase w.fails tile }
    { v with issue := stepOver dd v (v.total dd.perItem) v.issue }) s1
  releaseHeld p i d dd (updSlice p i (fun sl => parts.foldl (fun sl k => sl.forceEmpty dd.slotP k) sl) s2)

/-- A part poisoned again after its refill (R218). -/
def poisonedAgain (f t : Nat) (tr : Transfer) (s : State) : State :=
  let addr := (tr.rows.head?.map (·.1)).getD 0
  let region := match regionAt s.hbm.regions addr.toNat with
    | some (id, _) => id
    | none => 0x3FF
  let s1 := updField f (fun v => { v with transfers := Tab.erase v.transfers t }) s
  let r := runOf s f tr.run
  if s.job.uePolicy = 0 then
    jobFault 0x0B 0x010D (record ((ev 0x010D 3 [(8, tr.run), (24, tr.tile), (64, toBits 64 addr), (16, region)]).atSlice tr.plot tr.slice) (haltRun f tr.run s1))
  else
    let s2 := record ((ev 0x010A 2 [(8, tr.run), (16, r.epoch), (24, tr.tile), (64, toBits 64 addr)]).atSlice tr.plot tr.slice)
      (mapJob (fun j => { j with tilesSkipped := satInc 32 j.tilesSkipped }) s1)
    match descOf s tr.plot tr.desc with
    | none => s2
    | some dd => skipTile tr.plot tr.slice tr.desc (dd.resolve r.params) tr.tile s2

/-- DMA_TRANSFER_COMPLETE: every request of a fill has been answered, so its part becomes full; a poisoned one is issued again, once
(R65, R108, R196, R218). A paused plot's responses are held (R152). The write of a commit is answered to the ledger. -/
def execDmaTransferComplete (field transfer : Nat) (s : State) : Host.Outcome State Fault Refusal :=
  .next (match transferOf s field transfer with
    | none => s
    | some tr =>
      if 3 ≤ tr.operand || (pieceAt tr.rows tr.offset).isSome || fillPending s field transfer || (plotOf s tr.plot).stopped then s
      else if !tr.poisoned then
        updSlice tr.plot tr.slice (fun sl => sl.publish tr.slot tr.part) (updField field (fun f => { f with transfers := Tab.erase f.transfers transfer }) s)
      else if tr.tries = 0 then
        updTransfer field transfer (fun v => { v with offset := 0, engine := false, poisoned := false, tries := 1 }) s
      else poisonedAgain field transfer tr s)

/-! ## Slot-wait fault (R71 to R74) -/

/-- SLOT_WAIT_TIMEOUT: the stalled access is not performed, its descriptor or section stops, a job fault (R74). The event names the slice that holds the slot, also for
the access of a neighbour's node (log entry 126, DESIGN CHOICE). -/
def execSlotWaitTimeout (plot slice slot : Nat) (producer : Bool) (s : State) : Host.Outcome State Fault Refusal :=
  .next (match (sliceOf s plot slice).stalls.find? (fun w => w.slot = slot && w.producer == producer) with
    | none => s
    | some w =>
      if timersFrozen s plot then s
      else
        let s1 := updSlice plot slice (fun sl => { sl with stalls := sl.stalls.filter (fun v => decide (v ≠ w)) }) s
        let s2 := if 256 ≤ w.agent then stopArray plot s1
          else match descOf s plot w.agent with
            | none => s1
            | some dd => haltRun (fieldOfPlot plot) dd.runId s1
        faultEvent ((ev 0x0104 3 [(8, slot), (8, w.part), (8, flag producer), (64, usWaited s w.since w.frozen)]).atSlice plot slice) s2)

end Sys2Proof.Machine
end

