-- ==== Sys2Proof/Machine/Commits.lean ====
section
/-! DEFINITION. Commits and the field ledger (R99, R103 to R107, R109, R111), and the close of a run with its message (R99, R173). -/

namespace Sys2Proof.Machine

open Sys2Proof

/-! ## The ledger (R104) -/

/-- Commits in the pending table: those under LEDGER whose write is in flight. -/
def pendingTable (f : Field) : List Commit := (f.commits.filter (fun e => e.2.status = 2 && e.2.mode = 0)).map (·.2)

/-- What the ledger makes of a commit. -/
inductive Treatment where
  | stale
  | duplicate
  | hold
  | write
  deriving DecidableEq, Repr

def treatment (f : Field) (c : Commit) : Treatment :=
  let r := Tab.get f.runs c.run Run.empty
  if c.mode ≠ 0 then .write
  else if !r.isOpen || c.epoch ≠ r.epoch then .stale
  else if r.bits.contains c.tile then .duplicate
  else if (pendingTable f).any (fun v => v.run = c.run && v.tile = c.tile) then .hold
  else if 4096 ≤ (pendingTable f).length then .hold
  else .write

/-- The write of a commit: a transfer under the commit's own number. -/
def startWrite (f c : Nat) (v : Commit) : State → State :=
  updField f (fun fl => { fl with
    commits := Tab.set fl.commits c { v with status := 2, bad := false }
    transfers := Tab.set fl.transfers c ⟨v.plot, v.slice, v.desc, 3, v.slot, v.part, v.run, v.tile, none, v.rows, 0, false, false, 0⟩ })

/-- Is the word of the bitmap that holds a commit's bit marked as uncorrectable (R207, R217)? -/
def ledgerMarked (s : State) (f : Nat) (v : Commit) : Bool := s.hbm.isMarked (ledgerByte f v.run v.tile)

/-- The field as the ledger finds it for a commit: what it reads from a marked word the spec does not say, a free value (log entry 125). -/
def ledgerField (s : State) (f : Nat) (v : Commit) : Field :=
  if ledgerMarked s f v then { fieldOf s f with
    runs := Tab.upd (fieldOf s f).runs v.run Run.empty (fun r => { r with
      bits := if Config.freeBool s.free then v.tile :: r.bits else r.bits.filter (· ≠ v.tile) }) }
  else fieldOf s f

/-- A commit treated by tag. -/
def treat (f c : Nat) (s : State) : State :=
  match commitOf s f c with
  | none => s
  | some v =>
    let t := treatment (ledgerField s f v) v
    let s := onlyIf (ledgerMarked s f v) drawFree s
    match t with
    | .stale => updRun f v.run (fun r => { r with stale := satInc 32 r.stale }) (updCommit f c (fun v => { v with status := 5 }) s)
    | .duplicate => updRun f v.run (fun r => { r with dup := satInc 32 r.dup }) (updCommit f c (fun v => { v with status := 4 }) s)
    | .hold => updCommit f c (fun v => { v with status := 1 }) s
    | .write => startWrite f c v s

/-- Bytes that a commit moves. -/
def Commit.size (v : Commit) : Nat := v.rows.foldl (fun n r => n + r.2) 0

/-- Words of a D part that hold a double-bit error. -/
def badWords (sl : Slice) (v : Commit) : List Nat :=
  (wordsIn (sl.partBase v.slot v.part) v.size).filter (fun w => sl.spadUe.contains w && sl.poweredAt (8 * w))

/-- A commit that ends for its slice: it leaves transit (R105). -/
def endCommit (f c : Nat) (v : Commit) : State → State :=
  updField f (fun fl => { fl with
    commits := Tab.erase fl.commits c
    runs := Tab.upd fl.runs v.run Run.empty (fun r => { r with transit := r.transit - 1, last := v.plot }) })

/-- Is the partial that the last step of a tile reads lost (R109, R110): poisoned, written by a later step of the descriptor, or about to be written
by one that stands in an accumulator bank (log entry 112)? -/
def lastPartialLost (sl : Slice) (d : Nat) (dd : Desc) (w : Work) (last : Nat) : Bool :=
  let writes := fun n => match w.place dd n with
    | none => false
    | some q => decide (q % dd.steps + 1 ≠ dd.steps) && decide (q % dd.steps % 2 = (dd.steps - 2) % 2)
  1 < dd.steps && (sl.partPoisoned dd.slotP ((dd.steps - 2) % 2) || (rangeFrom (last + 1) (w.issue - (last + 1))).any writes
    || sl.issues.any (fun t => t.desc = d && t.number ≠ last && writes t.number))

/-- A double-bit error in a D part at commit (R82, R109): recorded, the part poisoned and empty, the tile's last step replayed with cause 5. Other
tiles go on. -/
def redoTile (f c : Nat) (v : Commit) (ws : List Nat) (s : State) : State :=
  let s1 := forEach ws (fun w => record ((ondieUe 0 (8 * w / bankSize) w 0).atSlice v.plot v.slice))
    (updSlice v.plot v.slice (fun sl => (ws.foldl Slice.strike sl).forceEmpty v.slot v.part) s)
  let s2 := endCommit f c v s1
  match joinedRun s2 v.plot v.desc with
  | none => s2
  | some (r, dd) =>
    let w := workOf s2 v.plot v.slice v.desc
    let sl := sliceOf s2 v.plot v.slice
    let place := v.tile * dd.steps + (dd.steps - 1)
    match numberOf dd.perItem w.ranges place 0 with
    | none => s2
    | some last =>
      if s2.job.issueStopped || r.halted then s2
      else replayIssue v.plot v.slice v.desc dd r last place 0x010C 5 (lastPartialLost sl v.desc dd w last) (sl.firstPart dd w) s2

/-- The commit DMA reads the D part of a commit that arrives for the first time. -/
def readCommit (v : Commit) (s : State) : State :=
  if v.status = 0 then spadCorrect v.plot v.slice ((sliceOf s v.plot v.slice).partBase v.slot v.part) v.size s else s

/-- COMMIT_ARRIVAL: commit DMA reads the D part, and the ledger treats the commit by its tag; under DIRECT the write goes straight to
memory (R103, R104, R107). -/
def execCommitArrival (field commit : Nat) (s : State) : Host.Outcome State Fault Refusal :=
  .next (match commitOf s field commit with
    | none => s
    | some v =>
      if 1 < v.status || (plotOf s v.plot).stopped then s
      else
        let ws := badWords (sliceOf s v.plot v.slice) v
        if v.status = 0 && !ws.isEmpty then redoTile field commit v ws (readCommit v s) else treat field commit (readCommit v s))

/-- Held commits treated again, in ascending order of plot and slice (R104, R106). -/
def treatHeld (f : Nat) (s : State) : State :=
  forEach ((List.range 512).flatMap (fun p => (List.range 16).flatMap (fun i =>
    ((fieldOf s f).commits.filter (fun e => e.2.status = 1 && e.2.plot = p && e.2.slice = i)).map (·.1)))) (fun c => treat f c) s

/-- LEDGER_WRITE_ACK: every write of a commit has been answered. The bit is set and the tile counted, or the write failed (R104, R99). -/
def execLedgerWriteAck (field commit : Nat) (s : State) : Host.Outcome State Fault Refusal :=
  .next (match commitOf s field commit, transferOf s field commit with
    | some v, some tr =>
      if v.status ≠ 2 || (pieceAt tr.rows tr.offset).isSome || commitPending s field commit then s
      else
        let s1 := updField field (fun f => { f with transfers := Tab.erase f.transfers commit }) s
        let s2 := if v.bad then updCommit field commit (fun v => { v with status := 6 }) s1
          else updCommit field commit (fun v => { v with status := if v.mode = 0 then 3 else 7 })
            (if v.mode = 0 then countTile field v.run v.tile s1 else s1)
        treatHeld field s2
    | _, _ => s)

/-- The same tile's other commits of a slice no longer release the part. -/
def disownTwins (f : Nat) (v : Commit) : State → State :=
  updField f (fun fl => { fl with
    commits := Tab.mapVals fl.commits (fun _ e =>
      if e.plot = v.plot && e.slice = v.slice && e.desc = v.desc && e.run = v.run && e.epoch = v.epoch && e.tile = v.tile then { e with part := 16 } else e) })

/-- COMMIT_FAULT after the third Failed answer: run, tile index (R106, R345). -/
def commitFault (v : Commit) : State → State := faultEvent ((ev 0x0106 3 [(16, v.run), (32, v.tile)]).atSlice v.plot v.slice)

/-- COMMIT_ANSWER: the slice receives the answer. The part is released, or the commit is issued again, or the third Failed of its tile in the
run is a commit fault (R66, R105, R106). A commit whose part has gone to a reissue just ends. Answers to a paused plot are held (R105). -/
def execCommitAnswer (field commit : Nat) (s : State) : Host.Outcome State Fault Refusal :=
  .next (match commitOf s field commit with
    | none => s
    | some v =>
      if v.status < 3 || (plotOf s v.plot).stopped then s
      else if v.status = 6 then
        let n := Tab.get (runOf s field v.run).failed v.tile 0
        let s1 := updRun field v.run (fun r => { r with failed := Tab.set r.failed v.tile (n + 1) }) s
        if n < 2 then (if v.part < 16 then updCommit field commit (fun v => { v with status := 0, bad := false }) s1 else endCommit field commit v s1)
        else commitFault v (endCommit field commit v s1)
      else
        let s1 := endCommit field commit v s
        let s2 := if v.part < 16 then
            forgetTile v.plot v.slice v.desc v.tile (updSlice v.plot v.slice (fun sl => sl.release v.slot v.part) (disownTwins field v s1))
          else s1
        if v.status = 7 then countTile field v.run v.tile s2 else s2)

/-! ## Close (R99, R173) -/

/-- Has a participant nothing more to do in a run? Under a drain, or in a stopped run, what it has not issued is abandoned (R100, R102). -/
def sliceDone (s : State) (f : Nat) (r : Run) (dd : Desc) (a : Nat × Nat) : Bool :=
  let w := workOf s a.1 a.2 r.desc
  let sl := sliceOf s a.1 a.2
  sl.issues.all (fun t => t.desc ≠ r.desc)
    && !(fieldOf s f).transfers.any (fun e => e.2.plot = a.1 && e.2.slice = a.2 && e.2.desc = r.desc)
    && (s.job.issueStopped || r.halted || (r.joined.contains a.1 && w.stopped && w.remaining dd = 0 && sl.confirm ≠ some 0))

/-- Is a run ready to close: every participant stopped, every commit answered (R99, R105)? -/
def runDone (s : State) (f : Nat) (r : Run) (dd : Desc) : Bool := r.isOpen && r.transit = 0 && r.active.all (sliceDone s f r dd)

/-- Outbox entries of a plot in use (R173). -/
def outboxUsed (s : State) (p : Nat) : Nat :=
  s.chans.foldl (fun n e => n + (e.2.waiters.filter (fun w => w.plot = p && w.node.isNone)).length) 0

/-- The run-closed message (R99). -/
def closeMessage (f k : Nat) (r : Run) : List Byte := lay [(2, pack [(6, k), (3, f)]), (2, r.epoch), (4, r.count), (8, 0), (16, 0)]

/-- Chains of the plots that took part go on, end, or halt; under a drain they end. In a run that a fault stopped, every chain that holds the
descriptor halts, also one of a participant that has not joined yet (R85, R102). -/
def releaseChains (r : Run) (dd : Desc) (s : State) : State :=
  let s1 := forEach r.joined (fun p s =>
    moveChains 1 p r.desc (fun _ =>
      if r.halted then ⟨r.desc, 3⟩
      else if s.job.issueStopped || dd.chain = 0 then ⟨r.desc, 2⟩
      else ⟨dd.next, 0⟩) s) s
  if r.halted then forEach ((r.active.map (·.1)).eraseDups.filter (fun p => !r.joined.contains p)) (fun p => moveChains 0 p r.desc (fun _ => ⟨r.desc, 3⟩)) s1
  else s1

/-- RUN_CLOSE: the entry closes, the message goes to the outbox of the plot that completes the close, and the chains go on. A full outbox
holds the close back. -/
def execRunClose (field run : Nat) (s : State) : Host.Outcome State Fault Refusal :=
  .next (
    let r := runOf s field run
    match descOf s r.plot r.desc with
    | none => s
    | some d0 =>
      let dd := d0.resolve r.params
      if !runDone s field r dd || (dd.done ≠ 0xFF && decide (4 ≤ outboxUsed s r.last)) then s
      else
        let s1 := releaseChains r dd (updRun field run (fun v => { v with isOpen := false }) s)
        let s2 := match channelOf s1 dd.done with
          | none => s1
          | some ch => if dd.done = 0xFF then s1 else sendOrWait dd.done ch ⟨r.last, 0, none, 0#16, 0#16, closeMessage field run r, s.ctl.localTime, 0, false⟩ id s1
        forEach r.joined sleepCheck s2)

end Sys2Proof.Machine
end

