-- ==== Sys2Proof/Machine/Holds.lean ====
section
/-! DEFINITION. The end of a hold (R188 step 4, R429) and the re-placement of a plot, during which its traffic is held (R424 to R428). -/

namespace Sys2Proof.Machine

open Sys2Proof

/-- A kept packet at its goal. -/
def landCargo (c : Cargo) (s : State) : State :=
  match c with
  | .request f rid => freeOne f rid s
  | .line f rid off bs poisoned => landKept f rid off bs poisoned s
  | .done f rid => concludeWrite f rid s
  | .answer tag data poisoned failed => landRemote tag data poisoned failed s
  | .access f rid => performAccess f rid (freeOne f rid s)
  | .data f rid bs failed => endAccess f rid bs failed s
  | .window _ p read body => windowAccess p read body s
  | .reply p => if [0x04, 0x05, 0x06].contains p.ptype then respondWindow p p.ptype p.poison p.failed p.body s else sendPkt 0 p s
  | .message m => landMessage m s
  | .reserve c p node => landReserve c p node s

/-- A packet that has left its hold goes on over the next bridge, where it may be held again, or arrives. -/
def landParcel (v : Parcel) (s : State) : State := carryLegs ((v.legs s).drop 1) v.cls v.goal v.cargo id (landCargo v.cargo) s

/-- A remap ends: the hold bits clear, the packets that were held arrive, and the next fence of the field begins its remap (R190). -/
def endRemap (f : Nat) (s : State) : State :=
  let r := leaveHold f s
  beginRemap f (forEach r.2 landParcel r.1)

/-- What becomes of a fenced plot: it moves to the nearest HELD position that passes its check, or is lost with the first cause that applies. -/
def decidePlot (p : Nat) (e : ReplaceEnv) (s : State) : State :=
  let pl := plotOf s p
  if pl.pinned then plotLost p 0x06 s
  else if s.ctl.policyFull then plotLost p 0x07 s
  else
    let t := chooseTarget (fieldOfPlot p) (plotPosition s p) e 64 s
    match t.2 with
    | none => plotLost p 0x05 t.1
    | some q => if e.controlUe then plotLost p 0x08 (record ((ondieUe 3 0 0 7).atPlot p) t.1) else movePlot p q e (updTrellis (fieldOfPlot p) (fun g => { g with hold := g.hold ++ [q] }) t.1)

/-- PLOT_REPLACEMENT: the remap of a plot fence, when it is the field's next one (R190, R424 to R428). -/
def execPlotReplacement (plot : Nat) (e : ReplaceEnv) (s : State) : Host.Outcome State Fault Refusal :=
  .next (
    let pl := plotOf s plot
    let f := fieldOfPlot plot
    if pl.fencedBy = 0 || !pl.assigned || !assignable s plot || (fieldOf s f).fenced then s
    else match (fieldOf s f).fenceDue with
      | .plot q :: rest => if q = plot then endRemap f (decidePlot plot e (updField f (fun v => { v with fenceDue := rest }) s)) else s
      | _ => s)

end Sys2Proof.Machine
end

