-- ==== Sys2Proof/Machine/Image.lean ====
section
/-! DEFINITION. The Tasal image: how its tables are read (R61, R87 to R89, R124, R125, R141, R156, R327 to R330) and what the loader checks in
them, part by part, in the order of R328 (R49, R63, R71, R101, R142, R157, R218, R329 to R331). -/

namespace Sys2Proof.Machine

open Sys2Proof

/-! ## Reading -/

def n8 (m : Mem) (a : Nat) : Nat := leNat (Mem.read m a 1)
def n16 (m : Mem) (a : Nat) : Nat := leNat (Mem.read m a 2)
def n32 (m : Mem) (a : Nat) : Nat := leNat (Mem.read m a 4)
def n64 (m : Mem) (a : Nat) : Nat := leNat (Mem.read m a 8)
/-- Are `n` bytes zero? -/
def zeroAt (m : Mem) (a n : Nat) : Bool := leNat (Mem.read m a n) = 0

/-! ## Diagnostics -/

def imgDiag (table rule entry ref value : Nat) : Diag := ⟨table, rule, entry, 0x1FF, 0, 0, 0, ref, value⟩
def Diag.ofPlot (d : Diag) (p : Nat) : Diag := { d with plot := p }
def Diag.ofSlice (d : Diag) (i : Nat) : Diag := { d with slice := i }

/-- The first check that fails. -/
def firstBad (l : List (Bool × Diag)) : Option Diag := (l.find? (fun e => !e.1)).map (·.2)

/-- The first failure in a list of parts. -/
def firstIn {α : Type} (l : List α) (f : α → Option Diag) : Option Diag :=
  match l with
  | [] => none
  | a :: r => match f a with
    | some d => some d
    | none => firstIn r f

/-- One check after another. -/
def thenCheck (a : Option Diag) (b : Option Diag) : Option Diag := match a with | some d => some d | none => b

/-! ## Header and directory (R327, R328) -/

/-- A limit in µs: 0, or in its range. -/
def limitOk (lo hi v : Nat) : Bool := v = 0 || (decide (lo ≤ v) && decide (v ≤ hi))

def headerFault (m : Mem) (bodyLen : Nat) : Option Diag :=
  let d := fun ref v => imgDiag 0x01 0 0 ref v
  let tol := bits (n32 m 0x10) 0 5
  let abs := n32 m 0x14
  firstBad [
    (decide (n32 m 0 = 0x4C534154), d 327 (n32 m 0)),
    (decide (n16 m 4 = 1), d 327 (n16 m 4)),
    (decide (n64 m 8 = bodyLen), d 327 (n64 m 8)),
    (decide (n16 m 6 = 0), d 327 (n16 m 6)),
    (decide (bits (n32 m 0x10) 5 3 = 0), d 327 (bits (n32 m 0x10) 5 3)),
    (decide (bits (n32 m 0x10) 10 22 = 0), d 327 (bits (n32 m 0x10) 10 22)),
    (decide (tol = 0) || (decide (4 ≤ tol) && decide (tol ≤ 24)), d 49 tol),
    (!bit abs 31 && decide (bits abs 23 8 ≠ 255), d 49 abs),
    (limitOk 10 1000000 (n32 m 0x18), d 71 (n32 m 0x18)),
    (limitOk 10 1000000 (n32 m 0x1C), d 157 (n32 m 0x1C)),
    (decide (bits (n32 m 0x10) 8 2 ≤ 1), d 218 (bits (n32 m 0x10) 8 2))]

/-- A directory entry; bits [31:8] of its first word are reserved and ignored (R10, R328). -/
structure DirEntry where
  kind : Nat
  count : Nat
  off : Nat
  deriving DecidableEq, Repr

def dirEntry (m : Mem) (i : Nat) : DirEntry := ⟨n8 m (0x40 + 16 * i), n32 m (0x44 + 16 * i), n64 m (0x48 + 16 * i)⟩

/-- Entry size, least and greatest count of a table kind; none for any other kind code. -/
def tableKind (k : Nat) : Option (Nat × Nat × Nat) :=
  match k with
  | 0x00 => some (0, 0, 0)
  | 0x02 => some (64, 1, 512)
  | 0x05 => some (49152, 0, 1024)
  | 0x06 => some (32, 0, 255)
  | 0x07 => some (64, 0, 4096)
  | 0x08 => some (32, 0, 1024)
  | 0x09 => some (64, 0, 4096)
  | _ => none

def DirEntry.bytes (e : DirEntry) : Nat := match tableKind e.kind with | some (z, _) => z * e.count | none => 0

/-- Do two tables overlap? -/
def DirEntry.meets (a b : DirEntry) : Bool :=
  decide (0 < a.bytes) && decide (0 < b.bytes) && decide (a.off < b.off + b.bytes) && decide (b.off < a.off + a.bytes)

def dirFault (m : Mem) (i : Nat) : Option Diag :=
  let e := dirEntry m i
  let others := ((List.range 16).filter (· ≠ i)).map (dirEntry m)
  let d := fun v => imgDiag 0x01 0 i 328 v
  match tableKind e.kind with
  | none => some (d e.kind)
  | some (_, lo, hi) =>
    firstBad [
      (decide (e.kind = 0) || !((List.range i).map (dirEntry m)).any (fun o => o.kind = e.kind), d e.kind),
      (decide (e.kind ≠ 0) || (decide (e.count = 0) && decide (e.off = 0)), d e.off),
      (decide (e.off % 64 = 0), d e.off),
      (decide (lo ≤ e.count) && decide (e.count ≤ hi), d e.count),
      (decide (e.bytes = 0) || (decide (320 ≤ e.off) && !others.any e.meets), d e.off),
      (decide (e.kind = 0) || decide (e.off + e.bytes ≤ n64 m 8), d e.off)]

def directoryFault (m : Mem) : Option Diag :=
  thenCheck (firstIn (List.range 16) (dirFault m))
    (if (List.range 16).any (fun i => (dirEntry m i).kind = 2) then none else some (imgDiag 0x01 0 0xFFFF 328 0))

/-- The table of a kind; an absent one is empty. -/
def tableAt (m : Mem) (kind : Nat) : DirEntry := ((List.range 16).map (dirEntry m)).find? (fun e => e.kind = kind) |>.getD ⟨kind, 0, 0⟩

/-- Offsets of the entries of a table. -/
def entriesOf (m : Mem) (kind : Nat) : List Nat :=
  let t := tableAt m kind
  (List.range t.count).map (fun i => t.off + i * ((tableKind kind).map (·.1)).getD 0)

/-! ## Plot records, slot tables (R61, R63, R329) -/

/-- A plot record. -/
structure PlotRec where
  plot : Nat
  descCount : Nat
  chainValid : Nat
  preloadValid : Nat
  chainStart : Nat
  preload : Nat
  slotTables : Nat
  descTable : Nat
  params : Nat
  deriving DecidableEq, Repr

def plotRec (m : Mem) (a : Nat) : PlotRec :=
  ⟨bits (n32 m a) 0 9, bits (n32 m a) 16 9, bits (n32 m (a + 4)) 0 4, bits (n32 m (a + 4)) 4 4, n32 m (a + 8), bits (n64 m (a + 0x10)) 0 40,
    n64 m (a + 0x18), n64 m (a + 0x20), n64 m (a + 0x28)⟩

def plotRecs (m : Mem) : List PlotRec := (entriesOf m 0x02).map (plotRec m)

def PlotRec.chain (r : PlotRec) (c : Nat) : Option Nat := if bit r.chainValid c then some (bits r.chainStart (8 * c) 8) else none
def PlotRec.preloaded (r : PlotRec) (k : Nat) : Option Nat := if bit r.preloadValid k then some (bits r.preload (10 * k) 10) else none
def PlotRec.descAt (r : PlotRec) (d : Nat) : Nat := r.descTable + 384 * d

/-- Is descriptor `d` of a plot valid? -/
def PlotRec.descValid (r : PlotRec) (m : Mem) (d : Nat) : Bool := decide (d < r.descCount) && bit (n32 m (r.descAt d)) 0

/-- Slot table of a slice. -/
def PlotRec.slotTable (r : PlotRec) (i : Nat) : Nat := r.slotTables + 1040 * i

def slotRecAt (m : Mem) (a : Nat) : Option SlotDef :=
  if bit (n32 m (a + 8)) 8 then
    some ⟨bits (n32 m a) 0 19, bits (n32 m (a + 4)) 0 19, bits (n32 m (a + 4)) 19 4 + 1, bit (n32 m (a + 4)) 23, bits (n32 m (a + 8)) 0 4,
      bits (n32 m (a + 8)) 4 4, bits (n32 m (a + 8)) 16 16⟩
  else none

def PlotRec.slotAt (r : PlotRec) (m : Mem) (i k : Nat) : Option SlotDef := if k < 64 then slotRecAt m (r.slotTable i + 16 + 16 * k) else none

def PlotRec.slots (r : PlotRec) (m : Mem) (i : Nat) : Tab SlotDef := (List.range 64).filterMap (fun k => (r.slotAt m i k).map (fun v => (k, v)))

/-- A neighbour agent code that names no slice (R63 rule 5): 3 west, 4 east, 5 north, 6 south. -/
def agentReaches (i code : Nat) : Bool :=
  match code with
  | 3 => (reachSlice i 1).isSome
  | 4 => (reachSlice i 2).isSome
  | 5 => (reachSlice i 3).isSome
  | 6 => (reachSlice i 4).isSome
  | _ => true

def SlotDef.stop (v : SlotDef) : Nat := v.base + v.parts * v.size

/-- The first bits of a list of reserved fields that are not all zero. -/
def reservedIn (l : List Nat) : Option Nat := l.find? (fun v => v ≠ 0)

def slotFault (m : Mem) (r : PlotRec) (i k : Nat) : Option Diag :=
  let a := r.slotTable i + 16 + 16 * k
  let d := fun rule v => ((imgDiag 0x03 rule k 63 v).ofPlot r.plot).ofSlice i
  let res := reservedIn [bits (n32 m a) 19 13, bits (n32 m (a + 4)) 24 8, bits (n32 m (a + 8)) 9 7, n32 m (a + 12)]
  match slotRecAt m a with
  | none => res.map (d 1)
  | some v =>
    firstBad [
      (res.isNone, d 1 (res.getD 0)),
      (decide (v.producer ≤ 6), d 1 v.producer),
      (decide (v.consumer ≤ 6), d 1 v.consumer),
      (decide (v.base % 32 = 0), d 2 v.base),
      (decide (v.size % 32 = 0) && decide (32 ≤ v.size), d 2 v.size),
      (decide (v.stop ≤ jobAreaEnd), d 3 v.stop),
      (((List.range k).filterMap (r.slotAt m i)).all (fun o => decide (o.stop ≤ v.base) || decide (v.stop ≤ o.base)), d 4 v.base),
      (agentReaches i v.producer, d 5 v.producer),
      (agentReaches i v.consumer, d 5 v.consumer),
      (decide (v.waitUs = 0) || decide (10 ≤ v.waitUs), d 6 v.waitUs)]

def slotTableFault (m : Mem) (r : PlotRec) (i : Nat) : Option Diag :=
  let a := r.slotTable i
  thenCheck ((reservedIn [bits (n32 m a) 12 20, n32 m (a + 4), n32 m (a + 8), n32 m (a + 12)]).map
      (fun v => ((imgDiag 0x03 1 0xFFFF 63 v).ofPlot r.plot).ofSlice i))
    (firstIn (List.range 64) (slotFault m r i))

/-! ## Descriptors (R87 to R89) -/

def operandAt (m : Mem) (a : Nat) : Operand :=
  ⟨bits (n64 m a) 0 48, bits (n64 m a) 48 16, bits (n64 m (a + 8)) 0 40, bit (n64 m (a + 16)) 0, bit (n64 m (a + 16)) 1, bit (n64 m (a + 16)) 2,
    bits (n64 m (a + 16)) 3 4⟩

def levelAt (m : Mem) (a : Nat) : Level :=
  ⟨bits (n32 m a) 0 24 + 1, bits (n32 m a) 24 3, bit (n32 m a) 27, bit (n32 m a) 28, bit (n32 m a) 29, bits (n32 m (a + 4)) 0 4,
    ofBits 40 (n64 m (a + 8)), ofBits 40 (n64 m (a + 0x10)), ofBits 40 (n64 m (a + 0x18)), ofBits 40 (n64 m (a + 0x20))⟩

/-- `LEVELS_M1` + 1. -/
def levelCount (m : Mem) (a : Nat) : Nat := bits (n32 m a) 3 3 + 1

def descAt (m : Mem) (a : Nat) : Desc :=
  let w0 := n32 m a
  let w1 := n32 m (a + 4)
  let w2 := n32 m (a + 8)
  let w3 := n32 m (a + 0xC)
  let w4 := n32 m (a + 0x10)
  let w5 := n32 m (a + 0x14)
  let sh := shapeOf w1
  { kind := bits w0 1 2, next := bits w0 6 8, chain := bits w0 14 2, commitMode := bits w0 16 2, prefetch := bits w0 18 4
    m := sh.1, n := sh.2.1, k := sh.2.2, aFmt := bits w1 11 4, bFmt := bits w1 15 4, bsCode := bits w1 19 2, sparse := bit w1 21
    accInit := bits w1 22 2, pair := bit w1 24, cFmt := bits w1 25 4, moveRows := bits w1 0 8 + 1, moveRowBytes := bits w1 8 12 * 32
    drainFmt := bits w2 0 4, sat := bit w2 4, shift := bits w2 5 5, shapeFromParam := bit w2 10, shapeParam := bits w2 11 4
    slotA := bits w3 0 6, slotB := bits w3 6 6, slotC := bits w3 12 6, slotD := bits w3 18 6, slotP := bits w3 24 6
    pool := bit w4 0, counter := bits w4 1 6, chunk := bits w4 8 8 + 1, sliceMask := BitVec.ofNat 16 (bits w4 16 16)
    runId := bits w5 0 6, done := bits w5 8 8
    a := operandAt m (a + 0x20), b := operandAt m (a + 0x38), c := operandAt m (a + 0x50), d := operandAt m (a + 0x68)
    levels := (List.range (min 6 (levelCount m a))).map (fun k => levelAt m (a + 0x80 + 40 * k)) }

/-- A valid descriptor of the image: its plot's record, its index, what it says. -/
structure DescRef where
  owner : PlotRec
  index : Nat
  off : Nat
  d : Desc
  deriving DecidableEq, Repr

def descRefs (m : Mem) (l : List PlotRec) : List DescRef :=
  l.flatMap (fun r => (List.range r.descCount).filterMap (fun d => if r.descValid m d then some ⟨r, d, r.descAt d, descAt m (r.descAt d)⟩ else none))

/-- The value of the first check of a list that fails. -/
def firstVal (l : List (Bool × Nat)) : Option Nat := (l.find? (fun e => !e.1)).map (·.2)

/-- Check 0x01, its reserved fields: those that are not zero. -/
def descReserved (m : Mem) (a : Nat) (d : Desc) : Option Nat :=
  let w1 := n32 m (a + 4)
  reservedIn ([bits (n32 m a) 22 10, (if d.kind = 0 then bits w1 29 3 else bits w1 20 12), bits (n32 m (a + 8)) 15 17, bits (n32 m (a + 0xC)) 30 2,
      bits (n32 m (a + 0x10)) 7 1, bits (n32 m (a + 0x14)) 6 2, bits (n32 m (a + 0x14)) 16 16, n64 m (a + 0x18), n64 m (a + 0x170), n64 m (a + 0x178)]
    ++ d.usedOps.flatMap (fun op => [bits (n64 m (a + 0x20 + 24 * op + 8)) 40 24, bits (n64 m (a + 0x20 + 24 * op + 16)) 7 57])
    ++ (List.range (min 6 (levelCount m a))).flatMap (fun k =>
      let b := a + 0x80 + 40 * k
      [bits (n32 m b) 30 2, bits (n32 m (b + 4)) 4 28] ++ [8, 0x10, 0x18, 0x20].map (fun o => bits (n64 m (b + o)) 40 24)))

/-- Check 0x02: each order 0 to `LEVELS_M1` once; the value of the first order that is out of range or stands twice. -/
def ordersBad (m : Mem) (a : Nat) (d : Desc) : Option Nat :=
  firstVal ((decide (levelCount m a ≤ 6), levelCount m a - 1) ::
    d.levels.zipIdx.map (fun e => (decide (e.1.order < d.levels.length) && !(d.levels.take e.2).any (fun o => o.order = e.1.order), e.1.order)))

/-- Check 0x03. -/
def nestBad (d : Desc) : Option Nat :=
  let red := (d.levels.filter (·.reduce)).length
  let par := (d.levels.filter (·.parallel)).length
  firstVal ([(decide (par ≤ 1), par)]
    ++ d.levels.map (fun l => (!(l.parallel && l.reduce), l.order))
    ++ d.levels.map (fun l => (!l.reduce || decide (d.levels.length - red ≤ l.order), l.order))
    ++ d.levels.map (fun l => (!l.reduce || decide (l.strideD = 0), toBits 40 l.strideD))
    ++ [(decide (d.kind = 0) || decide (red = 0), red)])

/-- The pairs of R33. -/
def pairOk (a b : Nat) : Bool :=
  (decide (a ≤ 4) && decide (b ≤ 4)) || (isMx a && isMx b) || (decide (a = 10 ∨ a = 11) && decide (b = 10 ∨ b = 11))
    || (decide (a = b) && decide (12 ≤ a) && decide (a ≤ 14))

/-- Is a format code one that R27 defines for an operand? -/
def opFormat (c : Nat) : Bool := decide (c ≤ 4) || isMx c || (decide (10 ≤ c) && decide (c ≤ 14))

/-- Check 0x04 (R27, R31, R33, R37, R38, R43, R45). -/
def formatsBad (d : Desc) : Option Nat :=
  let int := isInt d.aFmt
  if d.kind ≠ 0 then none
  else firstVal [
    (opFormat d.aFmt, d.aFmt),
    (pairOk d.aFmt d.bFmt, d.bFmt),
    (if isMx d.aFmt then decide (d.bsCode ≤ 2) else decide (d.bsCode = 0), d.bsCode),
    (!d.sparse || decide (d.aFmt ≤ 9) || decide (d.aFmt = 12) || decide (d.aFmt = 13), 1),
    (decide (d.accInit ≤ 1), d.accInit),
    (!(d.pair && int), 1),
    (decide (d.accInit = 0) || (if int then decide (d.cFmt = 5) else decide (d.cFmt ≤ 2) || (decide (d.cFmt = 7) && d.pair)), d.cFmt),
    (if int then decide (d.drainFmt = 5) || decide (d.drainFmt = 6) else decide (d.drainFmt ≤ 4) || (decide (d.drainFmt = 7) && d.pair), d.drainFmt),
    (decide (d.drainFmt = 6) || decide (d.shift = 0), d.shift)]

/-- Check 0x06 in one slice: the number of the first slot that fails. -/
def slotsBad (d : Desc) (slot : Nat → Option SlotDef) : Option Nat :=
  let has := fun k (p : SlotDef → Bool) => (match slot k with
    | none => false
    | some v => p v, k)
  firstVal (match d.kind with
  | 0 => [has d.slotA (fun v => v.producer = 0 && v.consumer = 1), has d.slotB (fun v => v.producer = 0 && v.consumer = 1),
      if d.accInit ≠ 1 then (true, 0) else has d.slotC (fun v => v.producer = 0 && v.consumer = 1),
      has d.slotD (fun v => v.producer = 1 && (decide (d.commitMode = 2) || decide (v.consumer = 0))),
      if !d.levels.any (·.reduce) then (true, 0) else has d.slotP (fun v => v.producer = 1 && v.consumer = 1 && v.parts = 2)]
  | 1 => [has d.slotA (fun v => v.producer = 0)]
  | _ => [has d.slotD (fun v => v.consumer = 0)])

/-- Check 0x07 in one slice: the part size of the first slot that is too small. -/
def partsBad (d : Desc) (size : Nat → Nat) : Option Nat :=
  if d.partsFit size then none
  else if d.kind = 1 then some (size d.slotA)
  else if d.kind = 2 then some (size d.slotD)
  else firstVal [
    (decide (d.totalBytes 0 ≤ size d.slotA), size d.slotA),
    (decide (d.totalBytes 1 ≤ size d.slotB), size d.slotB),
    (d.accInit ≠ 1 || decide (d.totalBytes 2 ≤ size d.slotC), size d.slotC),
    (decide (d.totalBytes 3 ≤ size d.slotD), size d.slotD),
    (false, size d.slotP)]

/-- Check 0x08 in one slice. -/
def prefetchOk (d : Desc) (slot : Nat → Option SlotDef) : Bool :=
  (d.usedOps.filter (· ≠ 3)).all (fun op => decide (d.prefetch ≤ ((slot (d.slotFor op)).map (·.parts)).getD 1 - 1))

/-- Check 0x09 of a literal base: base, strides, `PITCH`. -/
def alignBad (d : Desc) (op : Nat) : Option Nat :=
  let o := d.operand op
  let u := alignUnit (o.base : Int)
  if o.fromParam then none
  else firstVal ([(decide ((o.base : Int) % u = 0), o.base)] ++ d.levels.map (fun l => (decide (l.stride op % u = 0), toBits 40 (l.stride op)))
    ++ [(!o.pitched || decide ((o.pitch : Int) % u = 0), o.pitch)])

/-- Check 0x0A: a set bit that must be clear, or the base of D. -/
def layoutBad (d : Desc) (plots : List Nat) : Option Nat :=
  firstVal [
    (decide (d.kind ≠ 0) || !((isMx d.aFmt && d.a.pitched) || ((isMx d.bFmt || d.sparse) && d.b.pitched)), 1),
    (!d.usedOps.contains 3 || !d.d.remote, 1),
    (!d.usedOps.contains 3 || d.d.fromParam || d.dPlaced plots, d.d.base)]

/-- Checks 0x0D and 0x0E against the other descriptors of the field: copies, counters and run entries are shared only as R97 and R99
allow. -/
def copyOf (m : Mem) (a b : DescRef) : Bool := a.d.pool && b.d.pool && a.index = b.index && Mem.read m a.off 384 = Mem.read m b.off 384

/-- Check 0x0D: the counter, or the plot of a copy that R97 does not allow. A spanning descriptor that stands in another field at the same
index is held by plots of two fields; one whose counter a different record at its index names is held in unlike copies; any two that name
one counter share `RUN_ID` (R97). -/
def countersBad (m : Mem) (l : List DescRef) (a : DescRef) : Option Nat :=
  firstVal ((a.d.pool || decide (a.d.counter ≤ 15), a.d.counter) ::
    l.map (fun b =>
      if fieldOfPlot b.owner.plot ≠ fieldOfPlot a.owner.plot then (!copyOf m a b, b.owner.plot)
      else if a.d.pool != b.d.pool || a.d.counter ≠ b.d.counter || (!a.d.pool && a.owner.plot ≠ b.owner.plot) then (true, 0)
      else if a.owner.plot ≠ b.owner.plot && a.index = b.index then (copyOf m a b, b.owner.plot)
      else (decide (a.d.runId = b.d.runId), a.d.counter)))

def runsOk (m : Mem) (l : List DescRef) (a : DescRef) : Bool :=
  l.all (fun b =>
    fieldOfPlot b.owner.plot ≠ fieldOfPlot a.owner.plot || b.d.runId ≠ a.d.runId || (a.owner.plot = b.owner.plot && a.index = b.index)
      || (a.owner.plot = b.owner.plot && !a.d.pool && !b.d.pool && a.d.sliceMask = b.d.sliceMask) || copyOf m a b)

/-- Check 0x0F in one slice: the row in units of 32 bytes, or the bytes of the move. A move that takes its shape from a parameter has no size at load; check 0x07 looks at it
when its run opens (log entry 126, DESIGN CHOICE). -/
def moveBad (d : Desc) (size : Nat → Nat) : Option Nat :=
  if d.kind = 0 then none
  else firstVal [
    (decide (32 ≤ d.moveRowBytes) && decide (d.moveRowBytes ≤ 65536), d.moveRowBytes / 32),
    (d.shapeFromParam || decide (d.moveRows * d.moveRowBytes ≤ size (if d.kind = 1 then d.slotA else d.slotD)), d.moveRows * d.moveRowBytes)]

/-- The checks of R101 at load, in order of their codes, then that of R273. `plots` are those that the image assigns. -/
def descFault (own : Option U16) (m : Mem) (plots : List Nat) (l : List DescRef) (a : DescRef) : Option Diag :=
  let d := a.d
  let slices := maskSlices d.sliceMask
  let slot := fun i k => a.owner.slotAt m i k
  let size := fun i k => ((slot i k).map (·.size)).getD 0
  let lit := !d.levels.any (fun l => l.fromParam && !l.reduce)
  let e := fun code (v : Option Nat) => (code, v)
  let found := ([
    e 0x01 (match descReserved m a.off d with
      | some v => some v
      | none => firstVal [(decide (d.kind ≠ 3), d.kind), (decide (d.chain ≠ 3), d.chain), (decide (d.commitMode ≠ 3), d.commitMode),
          (decide (d.chain = 0) || a.owner.descValid m d.next, d.next)]),
    e 0x02 (ordersBad m a.off d),
    e 0x03 (nestBad d),
    e 0x04 (formatsBad d),
    e 0x05 (if d.kind ≠ 0 || d.shapeFromParam || d.shapeOk then none else some (n32 m (a.off + 4))),
    e 0x06 (slices.findSome? (fun i => slotsBad d (slot i))),
    e 0x07 (if d.shapeFromParam then none else slices.findSome? (fun i => partsBad d (size i))),
    e 0x08 (if slices.all (fun i => prefetchOk d (slot i)) then none else some d.prefetch),
    e 0x09 (d.usedOps.findSome? (alignBad d)),
    e 0x0A (layoutBad d plots),
    e 0x0B ((d.levels.find? (fun v => !(v.fromParam || boundOk v.bound))).map (·.bound)),
    e 0x0C (if !lit || d.tilesOk then none else some d.tiles),
    e 0x0D (countersBad m l a),
    e 0x0E (if runsOk m l a then none else some d.runId),
    e 0x0F (slices.findSome? (fun i => moveBad d (size i)))] : List (Nat × Option Nat)).find? (fun c => c.2.isSome)
  match found with
  | some (code, v) => some ((imgDiag 0x04 code a.index 101 (v.getD 0)).ofPlot a.owner.plot)
  | none => if own.isSome || !d.usedOps.any (fun op => (d.operand op).remote) then none
    else some ((imgDiag 0x04 0 a.index 273 1).ofPlot a.owner.plot)

/-! ## Plot records (R329) -/

/-- A range of the body at a multiple of 64. -/
def inBody (m : Mem) (off n : Nat) : Bool := off % 64 = 0 && decide (off + n ≤ n64 m 8)

/-- The checks of a plot record (R329, R142 rules 10 and 11). A preloaded number, or that of a SECT_LOAD, below the length of the section list passes also when its record has `VALID`
clear (log entry 126, DESIGN CHOICE). -/
def plotRecFault (s : State) (m : Mem) (sections : Nat) (before : List PlotRec) (entry a : Nat) : Option Diag :=
  let r := plotRec m a
  let d := fun rule ref v => (imgDiag 0x02 rule entry ref v).ofPlot r.plot
  let chains := (List.range 4).filterMap r.chain
  let pre := (List.range 4).filterMap r.preloaded
  firstBad [
    (decide (r.descCount ≤ 256), d 0 329 r.descCount),
    (assignable s r.plot && !(fieldOf s (fieldOfPlot r.plot)).fenced && !before.any (fun b => b.plot = r.plot), d 0 329 r.plot),
    (chains.all (fun c => decide (c < r.descCount) && r.descValid m c), d 0 329 r.chainStart),
    (pre.all (fun k => decide (k < sections)), d 0 329 r.preload),
    (inBody m r.slotTables 16640, d 0 329 r.slotTables),
    (if r.descCount = 0 then decide (r.descTable = 0) else inBody m r.descTable (384 * r.descCount), d 0 329 r.descTable),
    (inBody m r.params 128, d 0 329 r.params),
    (decide (r.preloadValid = 0) || bit r.preloadValid 0, d 11 142 r.preloadValid)]

/-- Every plot record with its slot tables and descriptors (R63, R101, R329). -/
def plotsFault (s : State) (m : Mem) : Option Diag :=
  let offs := entriesOf m 0x02
  let recs := plotRecs m
  let l := descRefs m recs
  let plots := recs.map (·.plot)
  firstIn offs.zipIdx (fun e =>
    let r := plotRec m e.1
    thenCheck (plotRecFault s m (entriesOf m 0x05).length (recs.take e.2) e.2 e.1)
      (thenCheck (firstIn (List.range 16) (slotTableFault m r)) (firstIn (descRefs m [r]) (descFault s.mesh.addr m plots l))))

/-! ## Sections (R141, R142) -/

def destAt (v : Nat) : Option Dest := if bit v 15 then some ⟨bits v 0 4, bits v 4 3, bits v 7 4, bits v 11 2⟩ else none

def nodeAt (m : Mem) (a : Nat) : Option Node :=
  let w := n32 m a
  let k := n32 m (a + 8)
  if bit w 8 then
    some ⟨bits w 0 8, bits w 9 2, bit w 11, bits w 12 2, bits w 14 4, bits w 18 4, destAt (n16 m (a + 4)), destAt (n16 m (a + 6)), bits k 0 2, bits k 2 7,
      bits k 9 2, bits k 11 7, BitVec.ofNat 32 (n32 m (a + 12))⟩
  else none

def nodeOff (key : Nat) : Nat := 0x2100 + key * 16

def sectionAt (m : Mem) (a : Nat) : Section :=
  { strict := bit (n32 m a) 17, windowEn := bit (n32 m a) 18, sliceMask := BitVec.ofNat 16 (n16 m (a + 4)), iterWindow := bits (n32 m (a + 4)) 16 11 + 1
    retireCount := bits (n32 m (a + 4)) 27 4 + 1, starveUs := if n32 m (a + 8) = 0 then 100 else n32 m (a + 8)
    drainUs := if n32 m (a + 12) = 0 then 1000 else n32 m (a + 12)
    nodes := (List.range 2048).filterMap (fun k => (nodeAt m (a + nodeOff k)).map (fun v => (k, v)))
    consts := (List.range 2048).map (fun k => (k, BitVec.ofNat 32 (n32 m (a + 0x100 + 4 * k)))) }

def sectionValid (m : Mem) (a : Nat) : Bool := bit (n32 m a) 16

/-- Input counts that an operation of a unit may have (R128 to R136); none for a code that is not defined. -/
def arities (pos op : Nat) : List Nat :=
  match pos with
  | 0 | 1 =>
    if op = 0x04 then [3]
    else if op = 0 || (7 ≤ op && op ≤ 9) || (0x20 ≤ op && op ≤ 0x23) || (0x31 ≤ op && op ≤ 0x34) then [1]
    else if op ≤ 0x0C || (0x10 ≤ op && op ≤ 0x1A) || op = 0x30 then [2]
    else []
  | 2 => if op ≤ 6 then [1] else []
  | 3 => if op ≤ 2 || (8 ≤ op && op ≤ 10) then [1] else if op = 0x10 then [2] else []
  | 4 => if op ≤ 1 then [2] else if op ≤ 3 then [3] else if op = 4 then [1] else []
  | 5 => if op = 0 then [0, 1] else if op = 5 then [2] else if op ≤ 7 then [1] else []
  | 6 => if op = 0 then [0, 1] else if op = 1 then [1] else []
  | _ => if op ≤ 3 then [1] else []

/-- LDS and QRD, which may be sources. -/
def maySource (pos op : Nat) : Bool := (pos = 5 || pos = 6) && op = 0

/-- Rule 3: constant ports. -/
def constsOk (pos : Nat) (nd : Node) : Bool :=
  let ks := ([nd.kport0, nd.kport1].filter (· ≠ 3))
  ks.all (fun k => decide (k < nd.inCount)) && (decide (ks.length < 2) || decide (nd.kport0 ≠ nd.kport1))
    && (maySource pos nd.op || decide (ks.length < nd.inCount))

/-- Rule 4: destinations. -/
def destOk (sec : Section) (d : Option Dest) (raw : Nat) : Bool :=
  match d with
  | none => decide (raw = 0)
  | some v => sec.sliceMask.getLsbD v.slice && (match Tab.find sec.nodes v.key with
    | none => false
    | some t => decide (v.port < t.inCount) && decide (t.kport0 ≠ v.port) && decide (t.kport1 ≠ v.port))

/-- Operations that name a slot, and whether they read it. -/
def slotUse (pos op : Nat) : Option Bool :=
  if pos ≠ 5 then none else if op = 0 || op = 7 then some true else if op = 1 || op = 6 then some false else none

/-- Rule 5 for one plot: the slot as the slice that the direction names declares it. -/
def nodeSlotOk (m : Mem) (r : PlotRec) (key : Nat) (nd : Node) : Bool :=
  match slotUse (keyPos key) nd.op, reachSlice (keySlice key) nd.dir with
  | some reads, some j => match r.slotAt m j nd.slotNo with
    | none => false
    | some v => decide ((if reads then v.consumer else v.producer) = reachAgent nd.dir) && decide (v.size % 64 = 0)
  | _, _ => true

/-- Nodes of a section with an operation of the scratchpad access unit on a slot of a slice. -/
def usersOf (sec : Section) (op j slot : Nat) : List Node :=
  (sec.nodes.filter (fun e => keyPos e.1 = 5 && e.2.op = op && e.2.slotNo = slot && reachSlice (keySlice e.1) e.2.dir = some j)).map (·.2)

/-- Rule 6 for the slot that a node names, in one plot. -/
def slotOwnersOk (l : List DescRef) (r : PlotRec) (sec : Section) (key : Nat) (nd : Node) : Bool :=
  match slotUse (keyPos key) nd.op, reachSlice (keySlice key) nd.dir with
  | some reads, some j =>
    if reads then
      let free := ((usersOf sec 0 j nd.slotNo).filter (fun v => !v.hold)).length
      let rel := (usersOf sec 7 j nd.slotNo).length
      (usersOf sec 0 j nd.slotNo).isEmpty || (free = 1 && rel = 0) || (free = 0 && rel = 1)
    else
      (usersOf sec 1 j nd.slotNo).isEmpty ||
        (decide ((usersOf sec 1 j nd.slotNo).length = 1)
          && !l.any (fun a => a.owner.plot = r.plot && a.d.kind = 1 && a.d.slotA = nd.slotNo && a.d.sliceMask.getLsbD j))
  | _, _ => true

/-- Rule 8. -/
def offsetsOk (pos : Nat) (nd : Node) : Bool :=
  (!(pos = 5 && (nd.op = 2 || nd.op = 3)) || (decide (nd.base % 64 = 0) && decide (bits nd.arg.toNat 19 4 ≤ 12)))
    && (!((pos = 3 && 8 ≤ nd.op) || (pos = 4 && nd.op = 4)) || decide (bits nd.arg.toNat 0 4 ≤ 11))

/-! ## Channels (R156, R157) -/

def chanValid (m : Mem) (a : Nat) : Bool := bit (n32 m a) 0

/-- Stall limits of 0 select the job's. -/
def chanAt (m : Mem) (a : Nat) : Channel :=
  let w := n32 m a
  let r := n32 m (a + 4)
  let q := n32 m (a + 8)
  let v := n32 m (a + 0xC)
  let p := n32 m (a + 0x10)
  { destType := bits w 1 2, readNoTimeout := bit w 3, closeOnSwitch := bit w 4, remoteIn := bit w 5, maxLen := bits w 16 6 + 1
    readerPlot := bits r 0 9, readerSlice := bits r 9 4, readerQueue := bits r 13 4, pqBase := bits q 0 13, pqSize := (bits q 13 7 + 1) * 64
    writerPlot := bits v 0 9, writerAny := bit v 9, seqWriter := bit v 10, writerSlices := BitVec.ofNat 16 (bits v 16 16)
    peerMesh := bits p 0 16, peerChannel := bits p 16 8, stallUs := n32 m (a + 0x14) }

/-- The valid channels of the image by number. -/
def chanTable (m : Mem) : Tab Channel := (entriesOf m 0x06).zipIdx.filterMap (fun e => if chanValid m e.1 then some (e.2, chanAt m e.1) else none)

/-- May a slice of a plot write a channel? -/
def Channel.writes (c : Channel) (p i : Nat) : Bool := c.writerAny || (c.writerPlot = p && c.writerSlices.getLsbD i)
/-- Is the reader of a channel a queue of this slice or plot? -/
def Channel.readAt (c : Channel) (p i : Nat) : Bool := (c.destType = 0 && c.readerPlot = p && c.readerSlice = i) || (c.destType = 1 && c.readerPlot = p)

/-- Rule 9 of R142 for one plot. -/
def nodeChannelOk (t : Tab Channel) (p key : Nat) (nd : Node) : Bool :=
  keyPos key ≠ 6 || (match Tab.find t nd.channel with
    | none => false
    | some c => if nd.op = 0 then c.readAt p (keySlice key) else !c.remoteIn && c.writes p (keySlice key))

/-- Do two channels name one queue? -/
def Channel.sameQueue (a b : Channel) : Bool :=
  !a.outbound && !b.outbound && a.destType = b.destType && a.readerPlot = b.readerPlot && a.readerQueue = b.readerQueue
    && (a.destType = 1 || a.readerSlice = b.readerSlice)

def chanFault (own : Option U16) (plots : List Nat) (m : Mem) (i a : Nat) : Option Diag :=
  let c := chanAt m a
  let before := (chanTable m).filter (fun e => decide (e.1 < i))
  let pqs := before.filter (fun e => e.2.destType = 1 && e.2.readerPlot = c.readerPlot)
  let d := fun rule v => imgDiag 0x06 rule i 157 v
  let res := reservedIn [bits (n32 m a) 6 2, bits (n32 m a) 22 10, bits (n32 m (a + 4)) 17 15, bits (n32 m (a + 8)) 20 12, bits (n32 m (a + 0xC)) 11 5,
    bits (n32 m (a + 0x10)) 24 8, n64 m (a + 0x18)]
  if !chanValid m a then res.map (d 1)
  else
    firstBad [
      (res.isNone, d 1 (res.getD 0)),
      (decide (bits (n32 m a) 8 8 = i), d 1 (bits (n32 m a) 8 8)),
      (if c.destType = 0 || c.destType = 2 then decide (c.maxLen ≤ 4) else decide (c.maxLen ≤ 64) && decide (c.maxLen ≤ c.pqSize), d 2 (c.maxLen - 1)),
      (c.outbound || plots.contains c.readerPlot, d 3 c.readerPlot),
      (c.writerAny || c.remoteIn || plots.contains c.writerPlot, d 3 c.writerPlot),
      (!before.any (fun e => e.2.sameQueue c), d 3 c.readerQueue),
      (decide (c.destType ≠ 1) || decide (c.readerQueue ≤ 7), d 4 c.readerQueue),
      (decide (c.destType ≠ 1) || (decide (c.pqBase % 64 = 0) && decide (pqs.length < 8) && decide (c.pqBase + c.pqSize ≤ 8192)
        && pqs.all (fun e => decide (e.2.pqBase + e.2.pqSize ≤ c.pqBase) || decide (c.pqBase + c.pqSize ≤ e.2.pqBase))), d 4 c.pqBase),
      ((!c.outbound || (!c.writerAny && !c.remoteIn))
        && (!(!c.outbound && c.remoteIn) || (!c.writerAny && !c.seqWriter && decide (c.writerSlices = 0#16)))
        && (!(c.outbound || c.remoteIn) || decide (own.map (·.toNat) ≠ some c.peerMesh)), d 5 (n32 m (a + 0x10))),
      (!(c.outbound || c.remoteIn) || own.isSome, imgDiag 0x06 0 i 273 (n32 m a)),
      (limitOk 10 1000000 c.stallUs, d 6 c.stallUs)]

/-- Rule 8: a run-closed channel lets the sequencer of its descriptor's plot write. -/
def doneFault (t : Tab Channel) (a : DescRef) : Option Diag :=
  if a.d.done = 0xFF then none
  else match Tab.find t a.d.done with
    | none => some ((imgDiag 0x06 8 a.d.done 157 a.d.done).ofPlot a.owner.plot)
    | some c => if c.seqWriter && (c.writerAny || c.writerPlot = a.owner.plot) then none else some ((imgDiag 0x06 8 a.d.done 157 a.d.done).ofPlot a.owner.plot)

/-- Rule 9: the assembling writers of a section. -/
def assembleFault (t : Tab Channel) (sec : Section) (i : Nat) : Option Diag :=
  let l := sec.nodes.filter (fun e => keyPos e.1 = 6 && e.2.op = 1 && bit e.2.modf 1 && keySlice e.1 = i)
  match l with
  | [] => none
  | (key, nd) :: r =>
    let d : Diag := { imgDiag 0x06 9 nd.channel 157 nd.arg.toNat with slice := i, pos := 6, node := key % 16 }
    let n := bits nd.arg.toNat 8 6 + 1
    match Tab.find t nd.channel with
    | none => some d
    | some c => if r.isEmpty && decide (n ≤ c.maxLen) && (bit nd.modf 0 || n % 2 = 0) then none else some d

def channelsFault (own : Option U16) (m : Mem) : Option Diag :=
  let recs := plotRecs m
  let t := chanTable m
  let secs := (entriesOf m 0x05).zipIdx.filter (fun e => sectionValid m e.1)
  thenCheck (firstIn (entriesOf m 0x06).zipIdx (fun e => chanFault own (recs.map (·.plot)) m e.2 e.1))
    (thenCheck (firstIn (descRefs m recs) (doneFault t))
      (firstIn secs (fun e => firstIn (List.range 16) (assembleFault t (sectionAt m e.1)))))

/-- An all-zero job key with a remote channel (R327). -/
def keyFault (m : Mem) : Option Diag :=
  if zeroAt m 0x20 32 && (chanTable m).any (fun e => e.2.outbound || e.2.remoteIn) then some (imgDiag 0x01 0 0 327 0) else none

/-! ## The section list (R142) -/

/-- Section numbers that a section may load. -/
def loadsOf (sec : Section) : List Nat := (sec.nodes.filter (fun e => keyPos e.1 = 7 && e.2.op = 3)).map (fun e => bits e.2.arg.toNat 0 10)

/-- Sections that a plot may come to hold: those preloaded, and those that they load. -/
def reachSections (m : Mem) (offs : List Nat) (fuel : Nat) (l : List Nat) : List Nat :=
  match fuel with
  | 0 => l
  | n + 1 =>
    let more := (l.flatMap (fun k => match offs[k]? with
      | none => []
      | some a => loadsOf (sectionAt m a))).filter (fun k => !l.contains k)
    if more.isEmpty then l else reachSections m offs n (l ++ more.eraseDups)

/-- Reserved fields of a section record, nodes included (rule 1). -/
def sectionReserved (m : Mem) (a : Nat) : Bool :=
  decide (bits (n32 m a) 10 6 = 0) && decide (bits (n32 m a) 19 13 = 0) && !bit (n32 m (a + 4)) 31 && zeroAt m (a + 0x10) 0xF0 && zeroAt m (a + 0xA100) 0x1F00
    && (List.range 2048).all (fun k =>
      let b := a + nodeOff k
      decide (bits (n32 m b) 22 10 = 0) && decide (bits (n32 m (b + 8)) 18 14 = 0) && decide (bits (n16 m (b + 4)) 13 2 = 0) && decide (bits (n16 m (b + 6)) 13 2 = 0))

/-- The first node that breaks a rule. -/
def nodeRule (num rule : Nat) (plot : Nat) (sec : Section) (ok : Nat → Node → Bool) : Option Diag :=
  (sec.nodes.find? (fun e => !ok e.1 e.2)).map (fun e =>
    ⟨0x05, rule, num, plot, keySlice e.1, keyPos e.1, e.1 % 16, 142, e.2.arg.toNat⟩)

/-- A section record against rules 1 to 10; rules 5, 6 and 9 in every plot that may come to hold it. -/
def sectionFaultOf (m : Mem) (offs : List Nat) (l : List DescRef) (recs : List PlotRec) (num a : Nat) : Option Diag :=
  let d := fun v => imgDiag 0x05 1 num 142 v
  let base := firstBad [
    (sectionReserved m a && decide (bits (n32 m a) 0 10 = num), d (n32 m a)),
    (limitOk 10 100000 (n32 m (a + 8)), d (n32 m (a + 8))),
    (limitOk 10 1000000 (n32 m (a + 12)), d (n32 m (a + 12)))]
  if !sectionValid m a then base
  else
    let sec := sectionAt m a
    let t := chanTable m
    let holders := recs.filter (fun r => (reachSections m offs offs.length ((List.range 4).filterMap r.preloaded)).contains num)
    let nr := fun rule ok => nodeRule num rule 0x1FF sec ok
    let per := fun rule (ok : PlotRec → Nat → Node → Bool) => firstIn holders (fun r => nodeRule num rule r.plot sec (ok r))
    let checks := [
      nr 2 (fun k nd => sec.sliceMask.getLsbD (keySlice k) && (arities (keyPos k) nd.op).contains nd.inCount),
      nr 3 (fun k nd => constsOk (keyPos k) nd),
      nr 4 (fun k nd => destOk sec nd.dest0 (n16 m (a + nodeOff k + 4)) && destOk sec nd.dest1 (n16 m (a + nodeOff k + 6))),
      per 5 (nodeSlotOk m),
      per 6 (fun r k nd => slotOwnersOk l r sec k nd),
      nr 7 (fun k nd => keyPos k ≠ 5 || (reachSlice (keySlice k) nd.dir).isSome),
      nr 8 (fun k nd => offsetsOk (keyPos k) nd),
      per 9 (fun r k nd => nodeChannelOk t r.plot k nd),
      nr 10 (fun k nd => !(keyPos k = 7 && nd.op = 3) || decide (bits nd.arg.toNat 0 10 < offs.length))]
    thenCheck base (firstIn checks id)

def sectionsFault (m : Mem) : Option Diag :=
  let offs := entriesOf m 0x05
  let recs := plotRecs m
  let l := descRefs m recs
  firstIn offs.zipIdx (fun e => sectionFaultOf m offs l recs e.2 e.1)

/-! ## Remote windows (R330) -/

def remoteAt (m : Mem) (a : Nat) : RemoteWin :=
  let w := n32 m a
  ⟨bits w 0 16, bits w 16 12, bit w 28, bit w 29, bit w 30, bits (n64 m (a + 8)) 0 48, bits (n64 m (a + 0x10)) 0 40,
    BitVec.ofNat 256 (leNat (Mem.read m (a + 0x20) 32))⟩

def remoteFault (own : Option U16) (m : Mem) (before : List RemoteWin) (i a : Nat) : Option Diag :=
  let r := remoteAt m a
  let d := fun rule v => imgDiag 0x09 rule i 330 v
  let res := reservedIn [bits (n32 m a) 31 1, n32 m (a + 4), bits (n64 m (a + 8)) 48 16, bits (n64 m (a + 0x10)) 40 24, n64 m (a + 0x18)]
  firstBad [
    (res.isNone, d 1 (res.getD 0)),
    (decide (r.base % 4096 = 0), d 2 r.base),
    (decide (r.size % 4096 = 0) && decide (4096 ≤ r.size), d 2 r.size),
    (own.isSome, imgDiag 0x09 0 i 273 r.target),
    (decide (own.map (·.toNat) ≠ some r.target), d 3 r.target),
    (before.all (fun b => b.target ≠ r.target || decide (b.base + b.size ≤ r.base) || decide (r.base + r.size ≤ b.base)), d 4 r.base)]

def remotesFault (own : Option U16) (m : Mem) : Option Diag :=
  let offs := entriesOf m 0x09
  let all := offs.map (remoteAt m)
  firstIn offs.zipIdx (fun e => remoteFault own m (all.take e.2) e.2 e.1)

end Sys2Proof.Machine
end

