-- ==== Sys2Proof/Machine/Load.lean ====
section
/-! DEFINITION. The job commands (R323): loading a Tasal image (R326 to R331, R366), `job.start` (R64, R69, R85, R150, R167, R169, R202,
R326), `job.drain`, `job.unload`, `job.status` (R335). -/

namespace Sys2Proof.Machine

open Sys2Proof

/-! ## The region plan (R331) -/

def rec4At (m : Mem) (a : Nat) : Rec4 :=
  ⟨BitVec.ofNat 64 (n64 m a), BitVec.ofNat 64 (n64 m (a + 8)), BitVec.ofNat 64 (n64 m (a + 16)), BitVec.ofNat 64 (n64 m (a + 24))⟩

/-- Are the reserved bits of a region record zero (R208)? -/
def regionReserved (w : Rec4) : Bool :=
  decide (w.w0.toNat / 2 ^ 48 = 0) && decide (w.w1.toNat / 2 ^ 48 = 0) && decide (bits w.w2.toNat 28 36 = 0) && decide (w.w3 = 0#64)

/-- Do two records agree in every input field? -/
def Region.sameInput (a b : Region) : Bool :=
  a.base = b.base && a.size = b.size && a.interleave = b.interleave && a.place = b.place && a.code = b.code && a.pageCheck = b.pageCheck
    && a.resident == b.resident && a.rights = b.rights && a.keySlot = b.keySlot

/-- An entry refers to an ACTIVE region of the principal. -/
def refersTo (s : State) (w : Rec4) (owner : Digest) : Bool :=
  regionReserved w && s.hbm.regions.any (fun e => e.2.owner = owner && e.2.isActive && e.2.sameInput (regionInput w))

/-- Who loads: principal, kind, quota, session. -/
structure Loader where
  owner : Digest
  kind : Nat
  quota : Nat
  session : Nat
  deriving DecidableEq, Repr

def vf (d : Diag) : Reply := ⟨stVerifyFailed, 0, d.bytes⟩

/-- The plan, entry by entry, on a state that is kept only if every check passes; two choices of the module for each region that it defines
(log entry 1). -/
def planRegions (m : Mem) (who : Loader) (l : List (Nat × Nat)) (picks : List Nat) (s : State) : Except Reply State :=
  match l with
  | [] => .ok s
  | (a, i) :: t =>
    let w := rec4At m a
    if refersTo s w who.owner then planRegions m who t picks s
    else
      let r := { regionInput w with owner := who.owner, session := who.session }
      match regionFault s w r who.owner true with
      | some e => .error (vf (imgDiag 0x08 0 i e.2.1 e.2.2))
      | none =>
        if overQuota s r who.owner who.kind who.quota then .error (vf (imgDiag 0x08 0 i 210 r.keySlot))
        else match pickRegionId s.hbm.regions picks.head?, placeRegion s.hbm.regions r (picks.drop 1).head? with
          | some id, some st => planRegions m who t (picks.drop 2) (defineRegion id { r with start := st } s)
          | _, _ => .error ⟨stExhausted, 0, (imgDiag 0x08 0 i 331 r.size).bytes⟩

/-! ## Window requests (R330) -/

/-- The id that a window request asks for. -/
def wantedWindow (w : Rec4) : Nat := bits w.w2.toNat 48 12

def planWindows (m : Mem) (who : Loader) (plots : List Nat) (l : List (Nat × Nat)) (s : State) : Except Reply State :=
  match l with
  | [] => .ok s
  | (a, i) :: t =>
    let r := rec4At m a
    let w := windowInput r (BitVec.ofNat 256 (leNat (Mem.read m (a + 0x20) 32))) who.owner who.session true
    match windowFault s r w plots with
    | some (rule, _, v) => .error (vf (imgDiag 0x07 rule i 291 v))
    | none =>
      if w.size % 4096 ≠ 0 then .error (vf (imgDiag 0x07 1 i 291 w.size))
      else if (Tab.find s.mesh.windows (wantedWindow r)).isSome then .error (vf (imgDiag 0x07 0 i 330 (wantedWindow r)))
      else planWindows m who plots t (openWindow (wantedWindow r) w s)

/-! ## Installing -/

/-- A plot of the image: slot tables, banks filled with zero, descriptors, parameters, chains, preloaded sections; clock-stopped until
the start (R12, R76, R329). -/
def loadPlot (m : Mem) (r : PlotRec) (old : Plot) : Plot :=
  let pre : Tab Nat := (List.range 4).filterMap (fun k => (r.preloaded k).map (fun n => (k, n)))
  { Plot.empty with
    assigned := true
    descs := (List.range r.descCount).filterMap (fun d => if r.descValid m d then some (d, descAt m (r.descAt d)) else none)
    params := (List.range 16).map (fun k => (k, BitVec.ofNat 64 (n64 m (r.params + 8 * k))))
    chainStarts := (List.range 4).filterMap (fun c => (r.chain c).map (fun d => (c, d)))
    preload := pre
    slices := (List.range 16).map (fun i =>
      let slots := r.slots m i
      (i, { Slice.empty with slots := slots, banks := poweredBanks slots (bits (n32 m (r.slotTable i)) 0 12) }))
    arr := { Arr.empty with store := pre }
    slackPs := old.slackPs, slackMin := old.slackMin }

/-- The loaded job: header values of R49, R71, R157 and R218, the job key, and the tables. -/
def loadJob (m : Mem) (who : Loader) (len : Nat) : Job :=
  let wait := n32 m 0x18
  let stall := n32 m 0x1C
  let tol := bits (n32 m 0x10) 0 5
  { Job.empty with
    loaded := true, session := who.session, principal := who.owner, meas := Config.sha384 (Mem.read m 0 len)
    tolExp := tol, tolAbs := BitVec.ofNat 32 (n32 m 0x14), uePolicy := bits (n32 m 0x10) 8 2
    slotWaitUs := if wait = 0 then 1000 else wait, queueStallUs := if stall = 0 then 1000 else stall
    jobKey := BitVec.ofNat 256 (leNat (Mem.read m 0x20 32))
    plots := (plotRecs m).map (·.plot)
    channels := chanTable m
    sections := (entriesOf m 0x05).zipIdx.filterMap (fun e => if sectionValid m e.1 then some (e.2, sectionAt m e.1) else none)
    remotes := (entriesOf m 0x09).map (remoteAt m)
    windows := (entriesOf m 0x07).map (fun a => wantedWindow (rec4At m a)) }

/-- The sections of which a field's system area holds a copy: those that its plots preload or load (R207). -/
def sectionCopies (m : Mem) (f : Nat) : List Nat :=
  let offs := entriesOf m 0x05
  (((plotRecs m).filter (fun r => fieldOfPlot r.plot = f)).flatMap
    (fun r => reachSections m offs offs.length ((List.range 4).filterMap r.preloaded))).eraseDups

/-- The image in place: tables, plots, section copies, no run yet opened. -/
def installImage (m : Mem) (who : Loader) (len : Nat) (s : State) : State :=
  let s1 := mapJob (fun _ => loadJob m who len) (mapChans (fun _ => []) s)
  let s2 := forEach (plotRecs m) (fun r => updPlot r.plot (loadPlot m r)) s1
  mapFlds (fun t => Tab.mapVals t (fun k f => { f with
    runs := Tab.mapVals f.runs (fun _ r => r.startJob), poolCounters := [], copies := sectionCopies m k })) s2

/-- Every check of the loader in the order of R328, on a copy of the state that regions and windows enter as they pass. -/
def checkImage (m : Mem) (who : Loader) (len : Nat) (picks : List Nat) (s : State) : Except Reply State :=
  match thenCheck (headerFault m len) (thenCheck (directoryFault m) (keyFault m)) with
  | some d => .error (vf d)
  | none => match planRegions m who (entriesOf m 0x08).zipIdx picks s with
    | .error r => .error r
    | .ok s1 => match thenCheck (plotsFault s1 m) (thenCheck (sectionsFault m) (channelsFault s.mesh.addr m)) with
      | some d => .error (vf d)
      | none => match planWindows m who ((plotRecs m).map (·.plot)) (entriesOf m 0x07).zipIdx s1 with
        | .error r => .error r
        | .ok s2 => match remotesFault s.mesh.addr m with
          | some d => .error (vf d)
          | none => .ok s2

/-- The header of the envelope of an image (R366). -/
structure Envelope where
  version : Nat
  imageSeq : Nat
  bodyLen : Nat
  deriving DecidableEq, Repr

def envelopeAt (bs : List Byte) : Envelope := ⟨numAt bs 0 4, numAt bs 8 8, numAt bs 0x10 8⟩

/-- What the envelope must meet before its tag is tested: version, a sequence number above those that the session has loaded, a body within the descriptor's length. -/
def envelopeFault (s : State) (session : Nat) (len : Nat) (e : Envelope) : Option Diag :=
  let d := fun v => imgDiag 0x01 0 0 366 v
  let last := (Tab.find s.gateh.sessions session).bind (·.imageSeq)
  firstBad [
    (decide (e.version = 1), d e.version),
    (decide (e.bodyLen + 48 ≤ len), d e.bodyLen),
    ((last.map (fun n => decide (n < e.imageSeq))).getD true, d e.imageSeq)]

/-- The body as it opens under `K_IMG` of the issuing session: the IV is 32 zero bits and `IMAGE_SEQ`, the header is authenticated with it (R366). -/
def openImage (s : State) (session : Nat) (data : List Byte) : Option (List Byte) :=
  match Tab.find s.gateh.sessions session with
  | none => none
  | some k => gcmOpen 0 k.keys.img (BitVec.ofNat 96 (envelopeAt data).imageSeq) (data.take 32) ((data.drop 32).take ((envelopeAt data).bodyLen + 16))

/-- The session has loaded an image of this sequence number (R366). -/
def noteImage (session seq : Nat) : State → State :=
  mapGate (fun g => { g with
  sessions := match Tab.find g.sessions session with
    | none => g.sessions
    | some e => Tab.set g.sessions session { e with imageSeq := some seq } })

/-- `job.load` (R309, R328, R366): a failure loads nothing and defines nothing. -/
def execJobLoad (h : Hdr) (b : Bulk) (x : Ext) (s : State) : Host.Outcome State Fault Refusal :=
  .next (request h ⟨0x0300, 16, false, tenantKind, [.ready], true⟩
    (fun s =>
      if !bulkOk h b s then verifyFailed (bulkDiag b.addr.toNat) s
      else
        let e := envelopeAt (bulkData b s)
        match envelopeFault s h.session b.len.toNat e with
        | some d => verifyFailed d s
        | none => match openImage s h.session (bulkData b s) with
          | none => signatureFailed (imgDiag 0x01 0 0 366 0) s
          | some body =>
            let m := Mem.write [] 0 body
            let who : Loader := ⟨issuerHash h s, issuerKind h s, ((issuer h s).map (·.quota)).getD 0, h.session⟩
            match checkImage m who e.bodyLen x.picks s with
            | .error r => (s, r)
            | .ok s1 => ok [] (setMode .loaded 0x0300 (noteImage h.session e.imageSeq (installImage m who e.bodyLen s1)))) s)

/-! ## Start -/

/-- What R326 checks again: plots mapped, fields not fenced, the module addressed where the image has remote entries (every value is a
module address: R271). -/
def startFault (s : State) : Option Diag :=
  thenCheck
    (firstIn s.job.plots.zipIdx (fun e =>
      if assignable s e.1 && !(fieldOf s (fieldOfPlot e.1)).fenced then none else some ((imgDiag 0x02 0 e.2 326 e.1).ofPlot e.1)))
    (if s.job.remotes.isEmpty || s.mesh.addr.isSome then none else some (imgDiag 0x09 0 0 326 ((s.job.remotes.head?.map (·.target)).getD 0)))

/-- A slice at the start: slots as declared, no work, queues closed until their channel opens them (R69, R169). -/
def Slice.startJob (sl : Slice) : Slice :=
  { sl.startSlots with work := [], issue := none, ahead := none, confirm := none, queues := [], asm := [] }

/-- A plot at the start: chains at their first descriptors, sections as preloaded, awake in 2 or 20 µs (R85, R150, R456). A store slot with no
preloaded section is empty again, also one that a load at run time has filled, of which R150 does not speak (log entry 110, DESIGN CHOICE). -/
def Plot.startJob (pl : Plot) : Plot :=
  { pl with
    chains := Tab.mapVals pl.chainStarts (fun _ d => d) |>.map (fun e => (e.1, ⟨e.2, 0⟩))
    counters := []
    slices := Tab.mapVals pl.slices (fun _ sl => sl.startJob)
    queues := []
    arr := { pl.arr with store := pl.preload, faulted := false, loads := [] }
    sleep := if pl.sleep = 0 then 0 else 3 }

/-- An outbound channel at the start keeps the pairing of a report that has arrived, with its ring; all else begins again (R167, R169). -/
def ChanState.startJob (v : ChanState) : ChanState :=
  if v.pairing = 0 then ChanState.empty
  else { ChanState.empty with
    pairing := v.pairing
    shadow := { v.shadow with delivered := 0, stallCycles := 0, closedDrop := 0, crcFail := 0, discarded := 0 } }

/-- The queue of a channel opens empty (R169); a writing module's waits for the report of its reader. -/
def openChannel (c : Nat) (ch : Channel) (s : State) : State :=
  if ch.outbound then s
  else
    let s1 := updChanQueue c ch (fun _ => { Queue.empty with isOpen := true }) s
    if ch.remoteIn then reportQueue 0 c ch s1 else s1

/-- Everything that `job.start` resets, before the queues open. -/
def resetJob (s : State) : State :=
  let s1 := mapJob (fun j => { j with
    issueStopped := false, faulted := false, faultCause := 0, faultEvent := 0, faultTime := 0#64, startTime := s.ctl.localTime
    tileReplays := 0, opRetries := 0, coreSlides := 0, replacements := 0, tilesSkipped := 0 }) s
  let s2 := mapPlots (fun t => Tab.mapVals t (fun _ pl => if pl.assigned then pl.startJob else pl)) s1
  let s3 := mapFlds (fun t => Tab.mapVals t (fun _ f => { f with runs := Tab.mapVals f.runs (fun _ r => r.startJob), poolCounters := [] })) s2
  let s4 := mapChans (fun t => Tab.mapVals t (fun _ v => v.startJob)) s3
  mapHbm (fun b => { b with stks := Tab.mapVals b.stks (fun _ k => { k with opened := 0, joined := 0, full := 0 }) }) s4

/-- A plot with a section activates slot 0 (R150). -/
def startArray (p : Nat) (s : State) : State := if (plotOf s p).preload.isEmpty then s else activateSection p 0 s

/-- Routes are written anew (R185), queues open and readers report (R167, R169), sections start (R150), and the module is RUNNING. -/
def startJob (s : State) : State :=
  let s1 := forEach s.job.channels (fun e => openChannel e.1 e.2) (writeFieldRoutes (resetJob s))
  setMode .running 0x0301 (forEach s.job.plots startArray s1)

/-- `job.start` (R326). -/
def execJobStart (h : Hdr) (s : State) : Host.Outcome State Fault Refusal :=
  .next (request h ⟨0x0301, 0, false, tenantKind, [.loaded], ownJob h s⟩
    (fun s => match startFault s with
      | some d => verifyFailed d s
      | none => ok [] (startJob s)) s)

/-! ## Drain, unload, status -/

/-- `job.drain` (R100): answered at entry to DRAINING. -/
def execJobDrain (h : Hdr) (s : State) : Host.Outcome State Fault Refusal :=
  .next (request h ⟨0x0302, 0, false, tenantFleet, [.running], ownJob h s⟩ (fun s => ok [] (beginDrain 0x0302 s)) s)

/-- `job.unload` (R76, R169, R330). -/
def execJobUnload (h : Hdr) (s : State) : Host.Outcome State Fault Refusal :=
  .next (request h ⟨0x0303, 0, false, tenantFleet, [.loaded], ownJob h s⟩ (fun s => ok [] (unloadJob 0x0303 s)) s)

/-- Run entries of the module by index, field × 64 + `RUN_ID`. -/
def allRuns (s : State) : List (Nat × Run) := s.flds.flatMap (fun e => e.2.runs.map (fun r => (e.1 * 64 + r.1, r.2)))

/-- A run record (R335). -/
def runRecord (i : Nat) (r : Run) : List Byte :=
  lay [(4, pack [(3, i / 64), (6, i % 64), (1, flag r.isOpen), (6, 0), (16, r.epoch)]), (4, min r.count 0xFFFFFFFF), (4, min r.dup 0xFFFFFFFF),
    (4, min r.stale 0xFFFFFFFF)]

/-- The 64-byte summary (R335). -/
def jobSummary (s : State) (records next : Nat) : List Byte :=
  let j := s.job
  let cap := fun v => min v 0xFFFFFFFF
  lay [(4, pack [(4, s.ctl.mode.code), (1, flag j.faulted)]), (4, pack [(8, j.faultCause), (8, 0), (16, j.faultEvent)]), (8, j.faultTime.toNat),
    (8, j.startTime.toNat), (4, cap j.tileReplays), (4, cap j.opRetries), (4, cap j.coreSlides), (4, cap j.replacements), (4, cap j.tilesSkipped),
    (4, pack [(16, ((allRuns s).filter (fun e => e.2.isOpen)).length), (16, records)]), (4, next), (12, 0)]

/-- The summary and, for a tenant, the records of the runs that have opened since the start (R335). -/
def jobStatusBytes (tenant : Bool) (start : Nat) (s : State) : List Byte :=
  let runs := if tenant then (allRuns s).filter (fun e => e.2.everOpened && decide (start ≤ e.1)) else []
  let part := runs.take 252
  let next := if runs.length ≤ 252 then 512 else ((part.getLast?.map (·.1)).getD 511) + 1
  jobSummary s part.length next ++ part.flatMap (fun e => runRecord e.1 e.2)

/-- `job.status` (R335). -/
def execJobStatus (h : Hdr) (v : U64) (s : State) : Host.Outcome State Fault Refusal :=
  .next (request h ⟨0x0304, 8, false, tenantFleet, [.loaded, .running, .draining], ownJob h s⟩
    (fun s => ok (jobStatusBytes (issuerKind h s = 2) (bits v.toNat 0 9) s) s) s)

end Sys2Proof.Machine
end

