-- ==== Sys2Proof/Machine/Mailbox.lean ====
section
/-! DEFINITION. The mailbox rings (R302 to R309, R324): how a request record is read and which command it is, the doorbell, the response
head, plain register writes, and host DMA (R278). -/

namespace Sys2Proof.Machine

open Sys2Proof

/-! ## Payloads -/

/-- The n-th 8-byte value of a payload (R324). -/
def value (p : List Byte) (n : Nat) : U64 := BitVec.ofNat 64 (numAt p (8 * n) 8)

def bulkAt (p : List Byte) : Bulk := ⟨value p 0, BitVec.ofNat 32 (numAt p 8 4)⟩
def rec4In (p : List Byte) : Rec4 := ⟨value p 0, value p 1, value p 2, value p 3⟩
/-- A release record or an unlock token (R378, R379). -/
def tokenIn (p : List Byte) : Token := ⟨BitVec.ofNat 96 (numAt p 0 12), numAt p 0x0C 4, numAt p 0x10 4, BitVec.ofNat 32 (numAt p 0x14 4)⟩
def helloIn (p : List Byte) : Hello :=
  ⟨numAt p 1 1, numAt p 2 1, BitVec.ofNat 256 (numAt p 8 32), BitVec.ofNat 776 (numAt p 0x28 97), numAt p 3 5 + 2 ^ 40 * numAt p 0x89 7⟩
def finishIn (p : List Byte) : Finish :=
  ⟨numAt p 1 1, numAt p 2 2, BitVec.ofNat 776 (numAt p 0x08 97), BitVec.ofNat 768 (numAt p 0x70 96), BitVec.ofNat 384 (numAt p 0xD0 48),
    (p.drop 0x100).take 176, numAt p 4 4 + 2 ^ 32 * numAt p 0x69 7⟩
/-- The entries of `mesh.route.write` (R338). -/
def routesIn (p : List Byte) : List (Nat × U16) :=
  (List.range (numAt p 2 2)).map (fun i => (numAt p (8 + 8 * i) 2 % 1024, BitVec.ofNat 16 (numAt p (10 + 8 * i) 2)))

/-! ## Commands by code (R323) -/

/-- `session.open` with a `STEP` that is neither 1 nor 2. -/
def unknownStep (h : Hdr) (p : List Byte) (s : State) : State :=
  request h ⟨0x0200, if h.len = 256 || h.len = 432 then h.len else 144, true, [], .sealed :: served, true⟩
    (verifyFailed (fieldDiag 0 360 (numAt p 0 1))) s

/-- `memory.retire` with a kind other than page and bank. -/
def unknownRetire (h : Hdr) (p : List Byte) (s : State) : State :=
  request h ⟨0x0504, 16, false, fleetKind, active, true⟩ (verifyFailed (fieldDiag 1 324 (numAt p 8 1))) s

/-- Module, session, attestation and owner commands. -/
def dispatchModule (code : Nat) (h : Hdr) (p : List Byte) (x : Ext) (s : State) : Host.Outcome State Fault Refusal :=
  match code with
  | 0x0100 => execModuleIdentify h s
  | 0x0101 => execModuleState h s
  | 0x0102 => execModuleWake h s
  | 0x0103 => if value p 0 = 0#64 then execModuleShutdown h (value p 1) s else execModuleShutdownTest h (value p 0) (value p 1) s
  | 0x0104 => execModuleRestart h s
  | 0x0105 => execModuleFirmwareInstall h (bulkAt p) x s
  | 0x0200 =>
    if numAt p 0 1 = 1 then execSessionOpenHello h (helloIn p) x s
    else if numAt p 0 1 = 2 then execSessionOpenFinish h (finishIn p) x s
    else .next (unknownStep h p s)
  | 0x0201 => execSessionClose h s
  | 0x0202 => execAttestReport h (BitVec.ofNat 384 (numAt p 0 48)) s
  | 0x0203 => execOwnerClaim h (claimIn p) x s
  | 0x0204 => execOwnerViolationsRead h (value p 0) s
  | 0x0205 => execOwnerSeal h s
  | 0x0206 => execOwnerUnseal h (tokenIn p) x s
  | _ => .next (unknownCommand h code s)

/-- Job and plot commands. -/
def dispatchJob (code : Nat) (h : Hdr) (p : List Byte) (x : Ext) (s : State) : Host.Outcome State Fault Refusal :=
  match code with
  | 0x0300 => execJobLoad h (bulkAt p) x s
  | 0x0301 => execJobStart h s
  | 0x0302 => execJobDrain h s
  | 0x0303 => execJobUnload h s
  | 0x0304 => execJobStatus h (value p 0) s
  | 0x0400 => execPlotStatus h s
  | 0x0401 => execPlotPolicySet h (value p 0) s
  | 0x0402 => execPlotPin h (value p 0) s
  | 0x0403 => execPlotUnpin h (value p 0) s
  | 0x0404 => execPlotFence h (value p 0) s
  | _ => .next (unknownCommand h code s)

/-- Memory commands. -/
def dispatchMemory (code : Nat) (h : Hdr) (p : List Byte) (x : Ext) (s : State) : Host.Outcome State Fault Refusal :=
  match code with
  | 0x0500 => execMemoryRegionDefine h (rec4In p) x s
  | 0x0501 => execMemoryRegionClear h (value p 0) s
  | 0x0502 => execMemoryRegionRelease h (value p 0) s
  | 0x0503 => execMemoryRegionList h (value p 0) s
  | 0x0504 =>
    if numAt p 8 1 = 0 then execMemoryRetirePage h ⟨value p 0, x.copy⟩ s
    else if numAt p 8 1 = 1 then execMemoryRetireBank h ⟨value p 0, x.copy⟩ s
    else .next (unknownRetire h p s)
  | 0x0505 => execMemoryRepairRequest h (value p 0) (value p 1) s
  | 0x0506 => execMemoryScrubSet h (value p 0) (value p 1) s
  | 0x0507 =>
    if bit (value p 1).toNat 0 then execMemoryStagingMark h (value p 0 % 1024#64) s else execMemoryStagingUnmark h (value p 0 % 1024#64) s
  | _ => .next (unknownCommand h code s)

/-- Link, mesh and window commands. -/
def dispatchMesh (code : Nat) (h : Hdr) (p : List Byte) (x : Ext) (s : State) : Host.Outcome State Fault Refusal :=
  match code with
  | 0x0600 => execLinkStatus h s
  | 0x0601 => execLinkWidthPolicy h (value p 0) (value p 1) s
  | 0x0700 => execMeshAssign h (value p 0) s
  | 0x0701 => execMeshStatus h s
  | 0x0702 => execMeshRouteWrite h (BitVec.ofNat 16 (numAt p 0 2)) (routesIn p) x s
  | 0x0703 => execMeshTimeRead h s
  | 0x0704 => execWindowOpen h (rec4In p) (BitVec.ofNat 256 (numAt p 32 32)) x s
  | 0x0705 => if bit (value p 0).toNat 12 then execWindowFree h (value p 0) s else execWindowClose h (value p 0) s
  | 0x0706 => execWindowList h (value p 0) s
  | _ => .next (unknownCommand h code s)

/-- Test, health, OTP, power and debug commands. -/
def dispatchService (code : Nat) (h : Hdr) (p : List Byte) (x : Ext) (s : State) : Host.Outcome State Fault Refusal :=
  match code with
  | 0x0800 => execTestPackInstall h (bulkAt p) x s
  | 0x0801 => execTestCadenceSet h (value p 0) s
  | 0x0802 => execTestStatus h s
  | 0x0900 => execHealthMargins h (value p 0) s
  | 0x0901 => execHealthLogRead h (value p 0) (value p 1) (value p 2) s
  | 0x0902 => execHealthEventsRead h (value p 0) (value p 1) s
  | 0x0903 => execHealthSummaryRead h (value p 0) s
  | 0x0904 => execHealthWarnings h s
  | 0x0A00 => execOtpRead h (value p 0) s
  | 0x0A01 => if value p 0 = 1#64 then execOwnerKeyChange h (value p 1) x s else execOtpGenerationWrite h (value p 0) (value p 1) x s
  | 0x0B00 => execPowerLimitSet h (value p 0) s
  | 0x0B01 => execPowerClockSet h (value p 0) (value p 1) s
  | 0x0B02 => execPowerStatus h s
  | 0x0C00 => execDebugQueueView h (value p 0) s
  | 0x0C01 => execDebugCountersRead h (value p 0) s
  | 0x0C02 => execDebugUnlock h (tokenIn p) x s
  | 0x0C03 => execDebugUartEnable h (value p 0) s
  | _ => .next (unknownCommand h code s)

/-- The command of a request, by the upper byte of its code. -/
def dispatch (code : Nat) (h : Hdr) (p : List Byte) (x : Ext) (s : State) : Host.Outcome State Fault Refusal :=
  if code < 0x0300 then dispatchModule code h p x s
  else if code < 0x0500 then dispatchJob code h p x s
  else if code < 0x0600 then dispatchMemory code h p x s
  else if code < 0x0800 then dispatchMesh code h p x s
  else dispatchService code h p x s

/-! ## Request records (R303, R304, R306) -/

/-- A request header as it stands in the ring. -/
structure ReqHead where
  code : Nat
  len : Nat
  seq : Nat
  session : Nat
  pad : Bool
  bulk : Bool
  deriving DecidableEq, Repr

def Mailbox.headAt (b : Mailbox) (pos : Nat) : ReqHead :=
  let w := Mem.read b.ring (32 * pos) 32
  ⟨numAt w 0 2, numAt w 2 2, numAt w 4 4, numAt w 8 1, bit (numAt w 9 1) 0, bit (numAt w 9 1) 1⟩

/-- Entries between `REQ_HEAD` and `REQ_TAIL`. -/
def Mailbox.waiting (b : Mailbox) : Nat := (b.reqTail + ringSize - b.reqHead) % ringSize

/-- A pad covers the ring up to its end, and is skipped (R304). -/
def Mailbox.skipPad (b : Mailbox) : Mailbox :=
  if decide (0 < b.waiting) && (b.headAt b.reqHead).pad && (decide (b.reqTail < b.reqHead) || b.reqTail = 0) then { b with reqHead := 0 } else b

/-- Entries of the record at `REQ_HEAD`; one that is longer than any payload takes all that waits. -/
def Mailbox.recordSize (b : Mailbox) : Nat :=
  let r := b.headAt b.reqHead
  if 4096 < r.len then b.waiting else recordEntries r.len r.session

/-- The next record stands whole before `REQ_TAIL` and the end of the ring. -/
def Mailbox.ready (b : Mailbox) : Bool :=
  decide (0 < b.waiting) && !(b.headAt b.reqHead).pad && decide (b.recordSize ≤ b.waiting) && decide (b.reqHead + b.recordSize ≤ ringSize)

/-- `REQ_HEAD` past the record. -/
def Mailbox.consume (b : Mailbox) : Mailbox := { b with reqHead := (b.reqHead + b.recordSize) % ringSize }

/-- The payload of the record at `REQ_HEAD`: in the clear, or as AES-256-GCM opens it under `K_REQ` of the session that it names, with the header authenticated
and the tag in the trailer entry (R306, R308, R361); none: no such session, or the tag fails. -/
def openRequest (mb : Nat) (s : State) : Option (List Byte) :=
  let b := boxOf s mb
  let r := b.headAt b.reqHead
  let text := Mem.read b.ring (32 * (b.reqHead + 1)) r.len
  if r.session = 0 then some text
  else match Tab.find s.gateh.sessions r.session with
    | none => none
    | some e => gcmOpen 0 e.keys.req (recordIv mb r.session false r.seq) (Mem.read b.ring (32 * b.reqHead) 32)
        (text ++ Mem.read b.ring (32 * (b.reqHead + 1 + (r.len + 31) / 32)) 16)

/-- May a mailbox take up a request: it is served, none of its responses waits for room (R311), and a whole record stands there? -/
def requestReady (mb : Nat) (s : State) : Bool := servedMailbox mb s && (boxOf s mb).delayed.isEmpty && (boxOf s mb).ready

/-- The request at `REQ_HEAD` is read, opened and dispatched (R304, R308, R310). -/
def takeRequest (mb : Nat) (x : Ext) (s : State) : Host.Outcome State Fault Refusal :=
  let r := (boxOf s mb).headAt (boxOf s mb).reqHead
  dispatch r.code ⟨mb, r.session, r.seq, r.len, (openRequest mb s).isSome⟩ ((openRequest mb s).getD []) x (updBox mb Mailbox.consume s)

/-- The requests of a mailbox in ring order, each with what its primitives answer, until none is whole or a response waits for room (R304, R310, R311). -/
def takeRequests (mb fuel : Nat) (xs : List Ext) (s : State) : Host.Outcome State Fault Refusal :=
  match fuel with
  | 0 => .next s
  | n + 1 =>
    let s1 := updBox mb Mailbox.skipPad s
    if requestReady mb s1 then
      match takeRequest mb (xs.headD default) s1 with
      | .next t => takeRequests mb n (xs.drop 1) t
      | o => o
    else .next s1

/-- Every request that waits, one at least an entry long. -/
def takeWaiting (mb : Nat) (xs : List Ext) (s : State) : Host.Outcome State Fault Refusal := takeRequests mb ((boxOf s mb).waiting + 1) xs s

/-- `REQ_TAIL` stored (R303). A value that names no entry is ignored. -/
def storeTail (mb tail : Nat) (s : State) : State :=
  if servedMailbox mb s && decide (tail < ringSize) then updBox mb (fun b => { b with reqTail := tail }) s else s

/-- REQ_TAIL_DOORBELL: the tail is stored and the requests that wait are taken up (R303, R310). -/
def execReqTailDoorbell (mb : Nat) (tail : U16) (x : List Ext) (s : State) : Host.Outcome State Fault Refusal :=
  let s := takeHost s
  if servedMailbox mb s && decide (tail.toNat < ringSize) then takeWaiting mb x (storeTail mb tail.toNat s) else .next s

/-! ## Responses read -/

/-- Delayed responses placed in order as far as there is room (R311). -/
def placeAll (w : Writing) (l : List Rsp) (b : Mailbox) : Mailbox :=
  match l with
  | [] => { b with delayed := [] }
  | r :: t => match b.place w r with
    | none => { b with delayed := r :: t }
    | some b' => placeAll w t b'

/-- `RSP_HEAD` moves on, up to `RSP_TAIL`; entries that it has passed are free. -/
def Mailbox.readTo (head : Nat) (b : Mailbox) : Mailbox :=
  let far := fun p => (p + ringSize - b.rspHead) % ringSize
  if far b.rspTail < far head then b
  else { b with rspHead := head, rsp := b.rsp.filter (fun e => decide (far head ≤ far e.1)) }

/-- `RSP_HEAD` stored: room for delayed responses (R304, R311). A value that names no entry is ignored. -/
def storeHead (mb head : Nat) (s : State) : State :=
  if servedMailbox mb s && decide (head < ringSize) then updBox mb (fun b => placeAll (writing mb s) b.delayed (b.readTo head)) s else s

/-- RSP_HEAD_WRITE: delayed responses are written, after which the mailbox goes on with its requests (R304, R311). -/
def execRspHeadWrite (mb : Nat) (head : U16) (x : List Ext) (s : State) : Host.Outcome State Fault Refusal :=
  let s := takeHost s
  if servedMailbox mb s && decide (head.toNat < ringSize) then takeWaiting mb x (storeHead mb head.toNat s) else .next s

/-! ## The mailbox window as it reads (R303) -/

/-- `MB_ROLE` (R302, R303). -/
def mailboxRole (mb : Nat) : Nat := if mb = 0 then 0 else if mb = 1 then 1 else 2

/-- The fields at the start of a mailbox window. -/
def mailboxFields (mb : Nat) (s : State) : List Byte :=
  let b := boxOf s mb
  lay [(4, b.reqTail), (4, b.reqHead), (4, b.rspTail), (4, b.rspHead), (4, pack [(2, mailboxRole mb), (1, flag (servedMailbox mb s))])]

/-- A byte of a mailbox window: the fields, reserved bytes, the request ring, the response ring. -/
def mailboxByte (mb o : Nat) (s : State) : Byte :=
  if o < 0x100 then (mailboxFields mb s).getD o 0#8
  else if o < 0x8080 then Mem.get (boxOf s mb).ring (o - 0x100)
  else Mem.get (boxOf s mb).out (o - 0x8080)

/-! ## Mailbox traffic of members (R278, R305) -/

/-- A request record placed in the request ring by the rule of R161, with a pad where it would wrap (R304); none: it has no room. -/
def Mailbox.enter (record : List Byte) (b : Mailbox) : Option Mailbox :=
  let m := (record.length + 31) / 32
  match placeInRing m b.reqTail ringSize (ringSize - 1 - b.waiting) with
  | none => none
  | some (t, padded) =>
    let ring := if padded then Mem.write b.ring (32 * b.reqTail) Rsp.padRecord.header else b.ring
    some { b with ring := Mem.write ring (32 * t) record, reqTail := (t + m) % ringSize }

/-- The responses that a mailbox has written since an earlier state of it, in ring order. -/
def Mailbox.since (old b : Mailbox) : List Rsp :=
  ((b.rsp.filter (fun e => decide (e.1 ≥ old.rspTail))) ++ (b.rsp.filter (fun e => decide (e.1 < old.rspTail)))).filterMap
    (fun e => if e.2.pad || Tab.find old.rsp e.1 = some e.2 then none else some e.2)

/-- The responses to a relayed request go back to the module that relayed it, which reads them on the host's behalf; responses that stood unread before stay, and
with them the later ones (log entry 118). -/
def relayBack (p : Pkt) (mb : Nat) (old : Mailbox) (s : State) : State :=
  let l := old.since (boxOf s mb)
  if l.isEmpty then s
  else forEach l (fun v => sendPkt (arrivalPort s p) { p with
      ptype := 0x22, cls := 2, hops := 63, src := s.mesh.addr.getD 0#16, dest := p.src, rsv := 0, key := none,
      body := BitVec.ofNat 8 mb :: v.bytes mb })
    (if old.rspHead = old.rspTail then updBox mb (fun v => v.readTo v.rspTail) s else s)

/-- MAILBOX_RELAY (R278, R305), whose body is the mailbox and a record (log entry 13): the root passes host traffic for a member of its group on as it came, and a member's
answer to its host port; at the member the record enters the mailbox's request ring and is taken up; any other module passes the packet on. -/
def execMailboxRelay (p : Pkt) (x : List Ext) (s : State) : Host.Outcome State Fault Refusal :=
  match s.mesh.addr with
  | none => .next s
  | some a =>
    if p.ptype = 0x30 then
      .next (if s.mesh.root && p.dest ≠ a && decide (p.dest.toNat / 64 = a.toNat / 64) then
        sendPkt s.mesh.hostPort { p with ptype := 0x22, cls := 2, hops := 63, src := a } (takeInbox p s) else s)
    else if p.ptype ≠ 0x22 then .next s
    else if p.dest ≠ a then .next (forwardPkt (arrivalPort s p) none p (takeInbox p s))
    else if s.mesh.root then .next (sendItem s.mesh.hostPort (.pkt { p with ptype := 0x30, cls := 3 }) (takeInbox p s))
    else
      let mb := numAt p.body 0 1
      if !servedMailbox mb s then .next (takeInbox p s)
      else match (boxOf s mb).enter (p.body.drop 1) with
        | none => .next s
        | some b =>
          match takeWaiting mb x (updBox mb (fun _ => b) (takeInbox p s)) with
          | .next t => .next (relayBack p mb b t)
          | o => o

/-! ## Plain writes (R203, R303, R476) -/

def mailboxBase : Nat := 0x600000000000
def registerBase : Nat := 0x700000000000

/-- One byte written: stored in a request ring or in the small register aperture; a reserved field, and a field of the module, are left as they are.
`REQ_TAIL` and `RSP_HEAD` are stored with the whole write. -/
def writeRegister (a : Nat) (v : Byte) (s : State) : State :=
  if mailboxBase ≤ a && a < mailboxBase + 0x200000 then
    let mb := (a - mailboxBase) / 65536
    let o := a % 65536
    if servedMailbox mb s && 0x100 ≤ o && o < 0x8080 then updBox mb (fun b => { b with ring := Mem.set b.ring (o - 0x100) v }) s else s
  else if registerBase ≤ a && a < registerBase + 0x1000000 then
    if s.pins.auxOn then mapMbx (fun m => { m with regs := Mem.set m.regs (a - registerBase) v }) s else s
  else s

def writeRegisters (a : Nat) (bs : List Byte) (s : State) : State :=
  match bs with
  | [] => s
  | b :: r => writeRegisters (a + 1) r (writeRegister a b s)

/-- A 16-bit field at `f` after bytes written from `a`; none where they do not cover it. -/
def fieldAfter (a : Nat) (bs : List Byte) (f old : Nat) : Option Nat :=
  let byte := fun x d => if a ≤ x && x < a + bs.length then numAt bs (x - a) 1 else d
  if a ≤ f + 1 && f < a + bs.length then some (byte f (old % 256) + 256 * byte (f + 1) (old / 256)) else none

/-- Bytes written from a local address: those of rings and registers as they come, then `RSP_HEAD` and, last, `REQ_TAIL`, which rings the doorbell when the write ends
(R303, R476). A write reaches the fields of one mailbox at most. -/
def writeFrom (a : Nat) (bs : List Byte) (x : List Ext) (s : State) : Host.Outcome State Fault Refusal :=
  let mb := (a + bs.length - 1 - mailboxBase) / 65536
  let base := mailboxBase + 65536 * mb
  let s1 := writeRegisters a bs s
  if a + bs.length ≤ mailboxBase || 32 ≤ mb then .next s1
  else
    let head := fieldAfter a bs (base + 0xC) (boxOf s1 mb).rspHead
    let tail := fieldAfter a bs base (boxOf s1 mb).reqTail
    let s2 := match head with
      | none => s1
      | some v => storeHead mb v s1
    let s3 := match tail with
      | none => s2
      | some v => storeTail mb v s2
    if head.isSome || tail.isSome then takeWaiting mb x s3 else .next s3

/-- Does the module answer to a 7-bit address of the management bus (R476)? -/
def busAnswers (s : State) (target : Nat) : Bool :=
  s.pins.auxOn && decide (target = 0x60 + 2 * flag s.pins.maddr1 + flag s.pins.maddr0)

/-- What the management bus reads in the window of mailbox 0 from an offset (R476). -/
def busRead (s : State) (target offset n : Nat) : Option (List Byte) :=
  if busAnswers s target then some ((List.range n).map (fun i => if offset + i < 65536 then mailboxByte 0 (offset + i) s else 0#8)) else none

/-- REGISTER_WRITE: host software at a local address; or a write on the management bus, a 16-bit offset in the window of mailbox 0, low byte first, and up to 256 data
bytes (R303, R476), of which those past the window are ignored (log entry 129). -/
def execRegisterWrite (w : Writer) (bytes : List Byte) (x : List Ext) (s : State) : Host.Outcome State Fault Refusal :=
  match w with
  | .host a => writeFrom a bytes x (takeHost s)
  | .bus target =>
    let o := numAt bytes 0 2
    if busAnswers s target then writeFrom (mailboxBase + o) (((bytes.drop 2).take 256).take (65536 - o)) x s else .next s

/-! ## Host DMA (R278) -/

/-- The staging region that holds a whole range. -/
def stagingAt (s : State) (a n : Nat) : Option (Nat × Region) :=
  match regionAt s.hbm.regions a with
  | none => none
  | some (id, r) => if r.staging && r.isActive && decide (a + n ≤ r.base + r.bytes) then some (id, r) else none

/-- A write from `lo` to `hi` cut at 256-byte blocks, at address `a`; `es` is what the reads of its words find, in order. A 2 KiB block that the
write covers is encoded directly (R221). -/
def hostWrite (id : Nat) (r : Region) (lo hi a : Nat) (bs : List Byte) (es : List WordErrors) (fuel : Nat) (s : State) : State :=
  match fuel with
  | 0 => s
  | n + 1 =>
    if bs.isEmpty then s
    else
      let k := 256 - a % 256
      let x := r.phys a
      let direct := decide (lo ≤ a / 2048 * 2048) && decide (a / 2048 * 2048 + 2048 ≤ hi)
      hostWrite id r lo hi (a + k) (bs.drop k) (es.drop ((a + k) / 64 - a / 64)) n
        (writeBytes id r x (bs.take k) direct es (readyGranule (granuleOf x) s)).1

/-- A read, 64-byte word by word; a granule that fills is waited for (R223). -/
def hostRead (id : Nat) (r : Region) (a n : Nat) (es : List WordErrors) (fuel : Nat) (s : State) : State × List Byte × Bool :=
  match fuel with
  | 0 => (s, [], false)
  | f + 1 =>
    if n = 0 then (s, [], false)
    else
      let k := min n (64 - a % 64)
      let x := r.phys a
      let w := readWord id r x (es.headD {}) 0 (completeFill (granuleOf x) s)
      let t := hostRead id r (a + k) (n - k) (es.drop 1) f w.1
      (t.1, (w.2.1.drop (a % 64)).take k ++ t.2.1, w.2.2 || t.2.2)

/-- The answer to a host read, on the host-role port (log entry 13). -/
def answerHost (bs : List Byte) (poison : Bool) (s : State) : State :=
  sendItem s.mesh.hostPort (.pkt ⟨0x30, 3, poison, false, 0, 0, 0, 0, false, 0, s.mesh.addr.getD 0#16, s.mesh.addr.getD 0#16, 63, 0, none, bs⟩) s

/-- HOST_DMA_ACCESS at a root: inside a staging region, else a silent violation, which reads zeros (R56, R278, R382). A read brings as many
bytes as the operand lists. -/
def execHostDmaAccess (write : Bool) (addr : Nat) (data : HostData) (s : State) : Host.Outcome State Fault Refusal :=
  .next (
    let n := data.bytes.length
    let s := takeHost s
    if !s.mesh.root || data.bytes.isEmpty then s
    else match stagingAt s addr n with
      | none =>
        let s1 := violation 0x09 .none (sourceHost s) s
        if write then s1 else answerHost (data.bytes.map (fun _ => 0#8)) false s1
      | some (id, r) =>
        if write then hostWrite id r addr (addr + n) addr data.bytes data.errors n s
        else
          let t := hostRead id r addr n data.errors n s
          answerHost t.2.1 t.2.2 t.1)

end Sys2Proof.Machine
end

