-- ==== Sys2Proof/Machine/Dispatch.lean ====
section
/-! DEFINITION. One arm per command: its meaning. -/

namespace Sys2Proof.Machine

open Sys2Proof

def exec (i : Instr) (s : State) : Host.Outcome State Fault Refusal :=
  match i with
  | .moduleIdentify h => Sys2Proof.Machine.execModuleIdentify h s
  | .moduleState h => Sys2Proof.Machine.execModuleState h s
  | .moduleWake h => Sys2Proof.Machine.execModuleWake h s
  | .moduleShutdown h retain => Sys2Proof.Machine.execModuleShutdown h retain s
  | .moduleShutdownTest h level retain => Sys2Proof.Machine.execModuleShutdownTest h level retain s
  | .moduleRestart h => Sys2Proof.Machine.execModuleRestart h s
  | .moduleFirmwareInstall h b x => Sys2Proof.Machine.execModuleFirmwareInstall h b x s
  | .sessionOpenHello h m x => Sys2Proof.Machine.execSessionOpenHello h m x s
  | .sessionOpenFinish h m x => Sys2Proof.Machine.execSessionOpenFinish h m x s
  | .sessionClose h => Sys2Proof.Machine.execSessionClose h s
  | .attestReport h nonce => Sys2Proof.Machine.execAttestReport h nonce s
  | .ownerClaim h r x => Sys2Proof.Machine.execOwnerClaim h r x s
  | .ownerViolationsRead h v => Sys2Proof.Machine.execOwnerViolationsRead h v s
  | .ownerSeal h => Sys2Proof.Machine.execOwnerSeal h s
  | .ownerUnseal h t x => Sys2Proof.Machine.execOwnerUnseal h t x s
  | .jobLoad h b x => Sys2Proof.Machine.execJobLoad h b x s
  | .jobStart h => Sys2Proof.Machine.execJobStart h s
  | .jobDrain h => Sys2Proof.Machine.execJobDrain h s
  | .jobUnload h => Sys2Proof.Machine.execJobUnload h s
  | .jobStatus h v => Sys2Proof.Machine.execJobStatus h v s
  | .plotStatus h => Sys2Proof.Machine.execPlotStatus h s
  | .plotPolicySet h policy => Sys2Proof.Machine.execPlotPolicySet h policy s
  | .plotPin h plot => Sys2Proof.Machine.execPlotPin h plot s
  | .plotUnpin h plot => Sys2Proof.Machine.execPlotUnpin h plot s
  | .plotFence h plot => Sys2Proof.Machine.execPlotFence h plot s
  | .memoryRegionDefine h r x => Sys2Proof.Machine.execMemoryRegionDefine h r x s
  | .memoryRegionClear h region => Sys2Proof.Machine.execMemoryRegionClear h region s
  | .memoryRegionRelease h region => Sys2Proof.Machine.execMemoryRegionRelease h region s
  | .memoryRegionList h start => Sys2Proof.Machine.execMemoryRegionList h start s
  | .memoryRetirePage h loc => Sys2Proof.Machine.execMemoryRetirePage h loc s
  | .memoryRetireBank h loc => Sys2Proof.Machine.execMemoryRetireBank h loc s
  | .memoryRepairRequest h loc kind => Sys2Proof.Machine.execMemoryRepairRequest h loc kind s
  | .memoryScrubSet h strong page => Sys2Proof.Machine.execMemoryScrubSet h strong page s
  | .memoryStagingMark h region => Sys2Proof.Machine.execMemoryStagingMark h region s
  | .memoryStagingUnmark h region => Sys2Proof.Machine.execMemoryStagingUnmark h region s
  | .linkStatus h => Sys2Proof.Machine.execLinkStatus h s
  | .linkWidthPolicy h mask policy => Sys2Proof.Machine.execLinkWidthPolicy h mask policy s
  | .meshAssign h group => Sys2Proof.Machine.execMeshAssign h group s
  | .meshStatus h => Sys2Proof.Machine.execMeshStatus h s
  | .meshRouteWrite h target entries x => Sys2Proof.Machine.execMeshRouteWrite h target entries x s
  | .meshTimeRead h => Sys2Proof.Machine.execMeshTimeRead h s
  | .windowOpen h r key x => Sys2Proof.Machine.execWindowOpen h r key x s
  | .windowClose h window => Sys2Proof.Machine.execWindowClose h window s
  | .windowFree h window => Sys2Proof.Machine.execWindowFree h window s
  | .windowList h start => Sys2Proof.Machine.execWindowList h start s
  | .testPackInstall h b x => Sys2Proof.Machine.execTestPackInstall h b x s
  | .testCadenceSet h cadence => Sys2Proof.Machine.execTestCadenceSet h cadence s
  | .testStatus h => Sys2Proof.Machine.execTestStatus h s
  | .healthMargins h v => Sys2Proof.Machine.execHealthMargins h v s
  | .healthLogRead h field start count => Sys2Proof.Machine.execHealthLogRead h field start count s
  | .healthEventsRead h start max => Sys2Proof.Machine.execHealthEventsRead h start max s
  | .healthSummaryRead h v => Sys2Proof.Machine.execHealthSummaryRead h v s
  | .healthWarnings h => Sys2Proof.Machine.execHealthWarnings h s
  | .otpRead h v => Sys2Proof.Machine.execOtpRead h v s
  | .otpGenerationWrite h setting value x => Sys2Proof.Machine.execOtpGenerationWrite h setting value x s
  | .ownerKeyChange h value x => Sys2Proof.Machine.execOwnerKeyChange h value x s
  | .powerLimitSet h limit => Sys2Proof.Machine.execPowerLimitSet h limit s
  | .powerClockSet h mode pin => Sys2Proof.Machine.execPowerClockSet h mode pin s
  | .powerStatus h => Sys2Proof.Machine.execPowerStatus h s
  | .debugQueueView h v => Sys2Proof.Machine.execDebugQueueView h v s
  | .debugCountersRead h v => Sys2Proof.Machine.execDebugCountersRead h v s
  | .debugUnlock h t x => Sys2Proof.Machine.execDebugUnlock h t x s
  | .debugUartEnable h v => Sys2Proof.Machine.execDebugUartEnable h v s
  | .reqTailDoorbell mb tail x => Sys2Proof.Machine.execReqTailDoorbell mb tail x s
  | .rspHeadWrite mb head x => Sys2Proof.Machine.execRspHeadWrite mb head x s
  | .registerWrite w bytes x => Sys2Proof.Machine.execRegisterWrite w bytes x s
  | .hostDmaAccess write addr data => Sys2Proof.Machine.execHostDmaAccess write addr data s
  | .jtagInstruction ir => Sys2Proof.Machine.execJtagInstruction ir s
  | .auxRailApplied ids => Sys2Proof.Machine.execAuxRailApplied ids s
  | .auxRailRemoved => Sys2Proof.Machine.execAuxRailRemoved s
  | .powerGoodRise => Sys2Proof.Machine.execPowerGoodRise s
  | .powerGoodLoss => Sys2Proof.Machine.execPowerGoodLoss s
  | .resetAssert => Sys2Proof.Machine.execResetAssert s
  | .resetRelease => Sys2Proof.Machine.execResetRelease s
  | .cableMated port => Sys2Proof.Machine.execCableMated port s
  | .bootSequence env => Sys2Proof.Machine.execBootSequence env s
  | .portTrainingDone port r => Sys2Proof.Machine.execPortTrainingDone port r s
  | .noPartnerTimeout port => Sys2Proof.Machine.execNoPartnerTimeout port s
  | .trainTimeout port => Sys2Proof.Machine.execTrainTimeout port s
  | .latePartnerTraining port r => Sys2Proof.Machine.execLatePartnerTraining port r s
  | .trainToReady => Sys2Proof.Machine.execTrainToReady s
  | .meshAssignWaitExpiry => Sys2Proof.Machine.execMeshAssignWaitExpiry s
  | .claimWaitExpiry => Sys2Proof.Machine.execClaimWaitExpiry s
  | .shutdownTestComplete env => Sys2Proof.Machine.execShutdownTestComplete env s
  | .entropyHealthFail => Sys2Proof.Machine.execEntropyHealthFail s
  | .keyStoreFail => Sys2Proof.Machine.execKeyStoreFail s
  | .handshakeExpiry handshake => Sys2Proof.Machine.execHandshakeExpiry handshake s
  | .sessionTeardown session => Sys2Proof.Machine.execSessionTeardown session s
  | .flitReceive port f => Sys2Proof.Machine.execFlitReceive port f s
  | .controlWordReceive port w => Sys2Proof.Machine.execControlWordReceive port w s
  | .ackTimeout port => Sys2Proof.Machine.execAckTimeout port s
  | .alignmentBlockReceive port b => Sys2Proof.Machine.execAlignmentBlockReceive port b s
  | .laneFailure port lanes f => Sys2Proof.Machine.execLaneFailure port lanes f s
  | .widthChange port => Sys2Proof.Machine.execWidthChange port s
  | .lossOfSignalAllLanes port => Sys2Proof.Machine.execLossOfSignalAllLanes port s
  | .bridgeReplayFail bridge => Sys2Proof.Machine.execBridgeReplayFail bridge s
  | .timeProbeSend port => Sys2Proof.Machine.execTimeProbeSend port s
  | .timeProbe port sent => Sys2Proof.Machine.execTimeProbe port sent s
  | .timeReply port probeSent partnerReceived partnerSent => Sys2Proof.Machine.execTimeReply port probeSent partnerReceived partnerSent s
  | .hostHello port serial => Sys2Proof.Machine.execHostHello port serial s
  | .hostHelloTimeout port => Sys2Proof.Machine.execHostHelloTimeout port s
  | .claim port offered claimant claimantPort => Sys2Proof.Machine.execClaim port offered claimant claimantPort s
  | .claimAck member port accepted => Sys2Proof.Machine.execClaimAck member port accepted s
  | .claimRefuse member port partner addressed => Sys2Proof.Machine.execClaimRefuse member port partner addressed s
  | .enum path port offered => Sys2Proof.Machine.execEnum path port offered s
  | .memberTableWrite masks => Sys2Proof.Machine.execMemberTableWrite masks s
  | .mgmtRouteWrite entries => Sys2Proof.Machine.execMgmtRouteWrite entries s
  | .portStateReport member port up partner addressed => Sys2Proof.Machine.execPortStateReport member port up partner addressed s
  | .memberTableRecompute => Sys2Proof.Machine.execMemberTableRecompute s
  | .packetForward a => Sys2Proof.Machine.execPacketForward a s
  | .mailboxRelay p x => Sys2Proof.Machine.execMailboxRelay p x s
  | .packRelay bytes sigOk => Sys2Proof.Machine.execPackRelay bytes sigOk s
  | .packRelayAnswer member status => Sys2Proof.Machine.execPackRelayAnswer member status s
  | .packRelayRetry member => Sys2Proof.Machine.execPackRelayRetry member s
  | .windowReadReq p => Sys2Proof.Machine.execWindowReadReq p s
  | .windowWriteReq p => Sys2Proof.Machine.execWindowWriteReq p s
  | .windowAtomicReq p o => Sys2Proof.Machine.execWindowAtomicReq p o s
  | .readResp p => Sys2Proof.Machine.execReadResp p s
  | .writeAck p => Sys2Proof.Machine.execWriteAck p s
  | .atomicResp p => Sys2Proof.Machine.execAtomicResp p s
  | .remoteRequestTimeout reqTag => Sys2Proof.Machine.execRemoteRequestTimeout reqTag s
  | .channelMsg p => Sys2Proof.Machine.execChannelMsg p s
  | .channelReport p => Sys2Proof.Machine.execChannelReport p s
  | .headReport channel => Sys2Proof.Machine.execHeadReport channel s
  | .dmaRequestIssue field transfer => Sys2Proof.Machine.execDmaRequestIssue field transfer s
  | .hbmRead field request outcomes => Sys2Proof.Machine.execHbmRead field request outcomes s
  | .hbmWrite field request outcomes => Sys2Proof.Machine.execHbmWrite field request outcomes s
  | .fetchAdd addr w8 v o => Sys2Proof.Machine.execFetchAdd addr w8 v o s
  | .swap addr w8 v o => Sys2Proof.Machine.execSwap addr w8 v o s
  | .compareSwap addr v compare o => Sys2Proof.Machine.execCompareSwap addr v compare o s
  | .fetchMax addr w8 v o => Sys2Proof.Machine.execFetchMax addr w8 v o s
  | .fetchOr addr w8 v o => Sys2Proof.Machine.execFetchOr addr w8 v o s
  | .granuleFillComplete granule => Sys2Proof.Machine.execGranuleFillComplete granule s
  | .dramReadReturn stack entry o => Sys2Proof.Machine.execDramReadReturn stack entry o s
  | .mergeEntryClose stack entry => Sys2Proof.Machine.execMergeEntryClose stack entry s
  | .patrolScrubRead word o late => Sys2Proof.Machine.execPatrolScrubRead word o late s
  | .marginProbe stack r => Sys2Proof.Machine.execMarginProbe stack r s
  | .coreSlackReport plot slackPs => Sys2Proof.Machine.execCoreSlackReport plot slackPs s
  | .foresightWarning kind object value => Sys2Proof.Machine.execForesightWarning kind object value s
  | .runOpen plot chain => Sys2Proof.Machine.execRunOpen plot chain s
  | .workCounterFetch plot slice desc => Sys2Proof.Machine.execWorkCounterFetch plot slice desc s
  | .fillIssue plot slice desc operand => Sys2Proof.Machine.execFillIssue plot slice desc operand s
  | .dmaTransferComplete field transfer => Sys2Proof.Machine.execDmaTransferComplete field transfer s
  | .tileIssue plot slice desc => Sys2Proof.Machine.execTileIssue plot slice desc s
  | .tileDrainCheck plot slice u => Sys2Proof.Machine.execTileDrainCheck plot slice u s
  | .confirmationCheckDone plot slice pass => Sys2Proof.Machine.execConfirmationCheckDone plot slice pass s
  | .commitArrival field commit => Sys2Proof.Machine.execCommitArrival field commit s
  | .ledgerWriteAck field commit => Sys2Proof.Machine.execLedgerWriteAck field commit s
  | .commitAnswer field commit => Sys2Proof.Machine.execCommitAnswer field commit s
  | .runClose field run => Sys2Proof.Machine.execRunClose field run s
  | .slotWaitTimeout plot slice slot producer => Sys2Proof.Machine.execSlotWaitTimeout plot slice slot producer s
  | .drainComplete => Sys2Proof.Machine.execDrainComplete s
  | .pass n => Sys2Proof.Machine.execPass n s
  | .fadd n q => Sys2Proof.Machine.execFadd n q s
  | .fsub n q => Sys2Proof.Machine.execFsub n q s
  | .fmul n q => Sys2Proof.Machine.execFmul n q s
  | .ffma n q => Sys2Proof.Machine.execFfma n q s
  | .fmin n => Sys2Proof.Machine.execFmin n s
  | .fmax n => Sys2Proof.Machine.execFmax n s
  | .fabs n => Sys2Proof.Machine.execFabs n s
  | .fneg n => Sys2Proof.Machine.execFneg n s
  | .fsq n q => Sys2Proof.Machine.execFsq n q s
  | .fcmplt n => Sys2Proof.Machine.execFcmplt n s
  | .fcmple n => Sys2Proof.Machine.execFcmple n s
  | .fcmpeq n => Sys2Proof.Machine.execFcmpeq n s
  | .iadd n q => Sys2Proof.Machine.execIadd n q s
  | .isub n q => Sys2Proof.Machine.execIsub n q s
  | .imul n q => Sys2Proof.Machine.execImul n q s
  | .and n => Sys2Proof.Machine.execAnd n s
  | .or n => Sys2Proof.Machine.execOr n s
  | .xor n => Sys2Proof.Machine.execXor n s
  | .shl n => Sys2Proof.Machine.execShl n s
  | .shr n => Sys2Proof.Machine.execShr n s
  | .sar n => Sys2Proof.Machine.execSar n s
  | .icmplt n => Sys2Proof.Machine.execIcmplt n s
  | .icmpeq n => Sys2Proof.Machine.execIcmpeq n s
  | .cvtI32F32 n => Sys2Proof.Machine.execCvtI32F32 n s
  | .cvtF32I32 n => Sys2Proof.Machine.execCvtF32I32 n s
  | .cvtDn n => Sys2Proof.Machine.execCvtDn n s
  | .cvtUp n => Sys2Proof.Machine.execCvtUp n s
  | .perm n => Sys2Proof.Machine.execPerm n s
  | .bcast n => Sys2Proof.Machine.execBcast n s
  | .laneid n => Sys2Proof.Machine.execLaneid n s
  | .byteEq n => Sys2Proof.Machine.execByteEq n s
  | .byteRange n => Sys2Proof.Machine.execByteRange n s
  | .exp n => Sys2Proof.Machine.execExp n s
  | .log n => Sys2Proof.Machine.execLog n s
  | .rcp n => Sys2Proof.Machine.execRcp n s
  | .rsqrt n => Sys2Proof.Machine.execRsqrt n s
  | .sin n => Sys2Proof.Machine.execSin n s
  | .cos n => Sys2Proof.Machine.execCos n s
  | .erf n => Sys2Proof.Machine.execErf n s
  | .lsum n => Sys2Proof.Machine.execLsum n s
  | .lmax n => Sys2Proof.Machine.execLmax n s
  | .lmin n => Sys2Proof.Machine.execLmin n s
  | .accSum n => Sys2Proof.Machine.execAccSum n s
  | .accMax n => Sys2Proof.Machine.execAccMax n s
  | .accMin n => Sys2Proof.Machine.execAccMin n s
  | .topk n => Sys2Proof.Machine.execTopk n s
  | .switch n => Sys2Proof.Machine.execSwitch n s
  | .gate n => Sys2Proof.Machine.execGate n s
  | .merge n => Sys2Proof.Machine.execMerge n s
  | .select n => Sys2Proof.Machine.execSelect n s
  | .spread n => Sys2Proof.Machine.execSpread n s
  | .lds n => Sys2Proof.Machine.execLds n s
  | .sts n => Sys2Proof.Machine.execSts n s
  | .ld n => Sys2Proof.Machine.execLd n s
  | .st n => Sys2Proof.Machine.execSt n s
  | .gather n => Sys2Proof.Machine.execGather n s
  | .scatter n => Sys2Proof.Machine.execScatter n s
  | .publish n => Sys2Proof.Machine.execPublish n s
  | .release n => Sys2Proof.Machine.execRelease n s
  | .qrd n => Sys2Proof.Machine.execQrd n s
  | .qwr n => Sys2Proof.Machine.execQwr n s
  | .paramRd n => Sys2Proof.Machine.execParamRd n s
  | .paramWr n => Sys2Proof.Machine.execParamWr n s
  | .sectNext n => Sys2Proof.Machine.execSectNext n s
  | .sectLoad n => Sys2Proof.Machine.execSectLoad n s
  | .sectLoadComplete plot => Sys2Proof.Machine.execSectLoadComplete plot s
  | .drainBarrierReached plot => Sys2Proof.Machine.execDrainBarrierReached plot s
  | .drainLimitExpiry plot => Sys2Proof.Machine.execDrainLimitExpiry plot s
  | .starvationFault plot => Sys2Proof.Machine.execStarvationFault plot s
  | .staleTokenDrop plot epoch => Sys2Proof.Machine.execStaleTokenDrop plot epoch s
  | .queueReservation channel => Sys2Proof.Machine.execQueueReservation channel s
  | .messageReadable channel u => Sys2Proof.Machine.execMessageReadable channel u s
  | .queueStallTimeout channel side waiter => Sys2Proof.Machine.execQueueStallTimeout channel side waiter s
  | .coreSlide field col row e => Sys2Proof.Machine.execCoreSlide field col row e s
  | .plotReplacement plot e => Sys2Proof.Machine.execPlotReplacement plot e s
  | .fieldFence field cause => Sys2Proof.Machine.execFieldFence field cause s
  | .fieldTestChunk field col row => Sys2Proof.Machine.execFieldTestChunk field col row s
  | .chunkEnd field col row => Sys2Proof.Machine.execChunkEnd field col row s
  | .chunkCut field col row => Sys2Proof.Machine.execChunkCut field col row s
  | .patternRetest field col row pattern passes signature => Sys2Proof.Machine.execPatternRetest field col row pattern passes signature s
  | .plotGate plot => Sys2Proof.Machine.execPlotGate plot s
  | .plotWakeComplete plot => Sys2Proof.Machine.execPlotWakeComplete plot s
  | .governorInterval averageW => Sys2Proof.Machine.execGovernorInterval averageW s
  | .pressureEpisodeEnd => Sys2Proof.Machine.execPressureEpisodeEnd s
  | .thermalThrottleStep field tempTenths => Sys2Proof.Machine.execThermalThrottleStep field tempTenths s
  | .thermalTrip sensor tempTenths => Sys2Proof.Machine.execThermalTrip sensor tempTenths s
  | .droopStretch field => Sys2Proof.Machine.execDroopStretch field s
  | .droopRelease field => Sys2Proof.Machine.execDroopRelease field s
  | .jtagReset => Sys2Proof.Machine.execJtagReset s

end Sys2Proof.Machine
end

