-- ==== Sys2Proof/Machine/Step.lean ====
section
/-! DEFINITION. One step: the command at the front of the queue, or a tick of the local time counter. -/

namespace Sys2Proof.Machine

open Sys2Proof

/-- Take the front command and run it with the rest of the queue in place. On an empty queue the block idles for one
period of the local time counter (R299), which runs while the auxiliary rail is up, and of the timers that it drives (R73; log entry 2). -/
def step (s : State) : Host.Outcome State Fault Refusal :=
  match s.pending with
  | [] => .next (tick s)
  | c :: r => exec c { s with pending := r }

/-- The state with the command that a table word spells put in front of its queue. -/
def State.withFetchWord (s : State) (nbits w : Nat) : State :=
  match decodeTableWord nbits w with
  | none => s
  | some c => { s with pending := c :: s.pending }

end Sys2Proof.Machine
end

