-- ==== Sys2Proof/Safety.lean ====
section
/-! DEFINITION. The terms that statements about the module are made in: the table of commands (R323), a request that passes its tests (R310),
the canonical form of every memory, and the bounds of the stores. -/

namespace Sys2Proof.Machine

open Sys2Proof

/-! ## Requests (R310, R323) -/

/-- Which kind of principal reads a scope of the counters (R325, log entry 34): a tenant those of its job, a fleet operator those of the
module. -/
def counterReader (h : Hdr) (v : U64) (s : State) : Bool :=
  if issuerKind h s = 2 then decide (v.toNat % 256 ≠ 6) && decide (v.toNat % 256 ≠ 7)
  else !(decide (1 ≤ v.toNat % 256) && decide (v.toNat % 256 ≤ 5))

/-- The row of R323 for a mailbox command, with its request header; none for a command that is no mailbox request. A tenant's command on a
job is allowed on its own job only (R368), and a group or its table is written at a root only (R280, R286). -/
def commandRow (c : Instr) (s : State) : Option (Hdr × Cmd) :=
  match c with
  | .moduleIdentify h => some (h, ⟨0x0100, 0, true, [0, 1, 2], allStates, true⟩)
  | .moduleState h => some (h, ⟨0x0101, 0, true, [0, 1, 2], allStates, true⟩)
  | .moduleWake h => some (h, ⟨0x0102, 0, true, [], [.lodge], true⟩)
  | .moduleShutdown h _ => some (h, ⟨0x0103, 16, false, [0, 1], [.ready], true⟩)
  | .moduleShutdownTest h _ _ => some (h, ⟨0x0103, 16, false, [0, 1], [.ready], true⟩)
  | .moduleRestart h => some (h, ⟨0x0104, 0, false, [0, 1], [.ready, .loaded], true⟩)
  | .moduleFirmwareInstall h _ _ => some (h, ⟨0x0105, 16, false, [0], active, true⟩)
  | .sessionOpenHello h m _ => some (h, ⟨0x0200, 144, true, [], .sealed :: served, roleMailbox m.role m.mailbox && roleOpen s m.role⟩)
  | .sessionOpenFinish h m _ => some (h, ⟨0x0200, if m.credKind = 0 then 256 else 432, true, [], .sealed :: served,
      match pendingHandshake s m.handshake with
      | none => owned s
      | some k => roleOpen s k.role⟩)
  | .sessionClose h => some (h, ⟨0x0201, 0, false, [0, 1, 2], .sealed :: served, true⟩)
  | .attestReport h _ => some (h, ⟨0x0202, 48, true, [0, 1, 2], .sealed :: served, true⟩)
  | .ownerClaim h _ _ => some (h, ⟨0x0203, 200, true, [], [.ready], true⟩)
  | .ownerViolationsRead h _ => some (h, ⟨0x0204, 8, false, [0], .sealed :: served, true⟩)
  | .ownerSeal h => some (h, ⟨0x0205, 0, false, [0], served, true⟩)
  | .ownerUnseal h _ _ => some (h, ⟨0x0206, 120, false, [0], [.sealed], true⟩)
  | .jobLoad h _ _ => some (h, ⟨0x0300, 16, false, [2], [.ready], true⟩)
  | .jobStart h => some (h, ⟨0x0301, 0, false, [2], [.loaded], ownJob h s⟩)
  | .jobDrain h => some (h, ⟨0x0302, 0, false, [2, 1], [.running], ownJob h s⟩)
  | .jobUnload h => some (h, ⟨0x0303, 0, false, [2, 1], [.loaded], ownJob h s⟩)
  | .jobStatus h _ => some (h, ⟨0x0304, 8, false, [2, 1], [.loaded, .running, .draining], ownJob h s⟩)
  | .plotStatus h => some (h, ⟨0x0400, 0, false, [0, 1, 2], served, true⟩)
  | .plotPolicySet h _ => some (h, ⟨0x0401, 8, false, [0, 1], [.ready], true⟩)
  | .plotPin h _ => some (h, ⟨0x0402, 8, false, [2], [.loaded, .running], true⟩)
  | .plotUnpin h _ => some (h, ⟨0x0403, 8, false, [2], [.loaded, .running], true⟩)
  | .plotFence h _ => some (h, ⟨0x0404, 8, false, [0, 1], [.running], true⟩)
  | .memoryRegionDefine h _ _ => some (h, ⟨0x0500, 32, false, [0, 1, 2], active, true⟩)
  | .memoryRegionClear h _ => some (h, ⟨0x0501, 8, false, [0, 1, 2], active, true⟩)
  | .memoryRegionRelease h _ => some (h, ⟨0x0502, 8, false, [0, 1, 2], active, true⟩)
  | .memoryRegionList h _ => some (h, ⟨0x0503, 8, false, [0, 1, 2], active, true⟩)
  | .memoryRetirePage h _ => some (h, ⟨0x0504, 16, false, [1], active, true⟩)
  | .memoryRetireBank h _ => some (h, ⟨0x0504, 16, false, [1], active, true⟩)
  | .memoryRepairRequest h _ _ => some (h, ⟨0x0505, 16, false, [1], active, true⟩)
  | .memoryScrubSet h _ _ => some (h, ⟨0x0506, 16, false, [1], active, true⟩)
  | .memoryStagingMark h _ => some (h, ⟨0x0507, 16, false, [0, 1, 2], active, true⟩)
  | .memoryStagingUnmark h _ => some (h, ⟨0x0507, 16, false, [0, 1, 2], active, true⟩)
  | .linkStatus h => some (h, ⟨0x0600, 0, false, [0, 1, 2], served, true⟩)
  | .linkWidthPolicy h _ _ => some (h, ⟨0x0601, 16, false, [0, 1], active, true⟩)
  | .meshAssign h _ => some (h, ⟨0x0700, 8, false, [0, 1], [.train, .ready], s.mesh.root⟩)
  | .meshStatus h => some (h, ⟨0x0701, 0, false, [0, 1, 2], served, true⟩)
  | .meshRouteWrite h _ entries _ => some (h, ⟨0x0702, 8 + 8 * entries.length, false, [0, 1], active, s.mesh.root⟩)
  | .meshTimeRead h => some (h, ⟨0x0703, 0, false, [0, 1, 2], served, true⟩)
  | .windowOpen h _ _ _ => some (h, ⟨0x0704, 64, false, [2], active, true⟩)
  | .windowClose h _ => some (h, ⟨0x0705, 8, false, [2], active, true⟩)
  | .windowFree h _ => some (h, ⟨0x0705, 8, false, [2], active, true⟩)
  | .windowList h _ => some (h, ⟨0x0706, 8, false, [2], active, true⟩)
  | .testPackInstall h _ _ => some (h, ⟨0x0800, 16, false, [0, 1], active, true⟩)
  | .testCadenceSet h _ => some (h, ⟨0x0801, 8, false, [1], active, true⟩)
  | .testStatus h => some (h, ⟨0x0802, 0, false, [0, 1], served, true⟩)
  | .healthMargins h _ => some (h, ⟨0x0900, 8, false, [0, 1], active, true⟩)
  | .healthLogRead h _ _ _ => some (h, ⟨0x0901, 24, false, [0, 1], served, true⟩)
  | .healthEventsRead h _ _ => some (h, ⟨0x0902, 16, false, [0, 1, 2], .sealed :: served, true⟩)
  | .healthSummaryRead h _ => some (h, ⟨0x0903, 8, false, [0, 1], .sealed :: served, true⟩)
  | .healthWarnings h => some (h, ⟨0x0904, 0, false, [0, 1], active, true⟩)
  | .otpRead h _ => some (h, ⟨0x0A00, 8, false, [0, 1], .sealed :: served, true⟩)
  | .otpGenerationWrite h _ _ _ => some (h, ⟨0x0A01, 16, false, [0], [.ready], true⟩)
  | .ownerKeyChange h _ _ => some (h, ⟨0x0A01, 16, false, [0], [.ready], true⟩)
  | .powerLimitSet h _ => some (h, ⟨0x0B00, 8, false, [0, 1], active, true⟩)
  | .powerClockSet h _ _ => some (h, ⟨0x0B01, 16, false, [0, 1], active, true⟩)
  | .powerStatus h => some (h, ⟨0x0B02, 0, false, [0, 1, 2], served, true⟩)
  | .debugQueueView h _ => some (h, ⟨0x0C00, 8, false, [2], [.loaded, .running, .draining], true⟩)
  | .debugCountersRead h v => some (h, ⟨0x0C01, 8, false, [2, 1], active, counterReader h v s⟩)
  | .debugUnlock h _ _ => some (h, ⟨0x0C02, 120, false, [0], [.ready, .sealed], true⟩)
  | .debugUartEnable h _ => some (h, ⟨0x0C03, 8, false, [0], active, true⟩)
  | _ => none

/-- The request of a command passes steps 1 to 6 of R310. -/
def Accepted (c : Instr) (s : State) : Prop :=
  match commandRow c s with
  | none => False
  | some (h, row) => judge h row s = .go

/-- The response to a request that was carried out without a clamp: status OK (R307, R319). -/
def okResponse (h : Hdr) (code : Nat) (payload : List Byte) (s : State) : State := respond h code ⟨0x0000, 0, payload⟩ s

/-- The response to a request with clampable fields: OK, or OK_CLAMPED with the report and the applied values in front (R314, R315). -/
def clampResponse (h : Hdr) (code : Nat) (cs : List Clamped) (payload : List Byte) (s : State) : State :=
  respond h code ⟨if clampMask cs = 0 then 0x0000 else 0x0001, clampMask cs, appliedValues cs ++ payload⟩ s

/-- The response to a request of which a field failed its check: VERIFY_FAILED with the diagnostic (R318). -/
def failedResponse (h : Hdr) (code : Nat) (d : Diag) (s : State) : State := respond h code ⟨0x0020, 0, d.bytes⟩ s

/-- The response to a request of which a signature failed: SIGNATURE_FAILED with the diagnostic, `VALUE` zero (R318). -/
def unsignedResponse (h : Hdr) (code : Nat) (d : Diag) (s : State) : State := respond h code ⟨0x0021, 0, { d with value := 0 }.bytes⟩ s

/-- The response to a request for which a bounded store has no room: RESOURCE_EXHAUSTED (R319). -/
def exhaustedResponse (h : Hdr) (code : Nat) (s : State) : State := respond h code ⟨0x0030, 0, []⟩ s

/-- ALERT of a thermal trip ends with an answer on mailbox 0 to `module.state` or `module.wake` (R477). -/
def endTripAlert (mb : Nat) (s : State) : State := if mb = 0 then mapCtl (fun c => { c with tripAlert := false }) s else s

/-- The same for any command: only those two end it. -/
def tripAnswered (c : Instr) (s : State) : State :=
  match c with
  | .moduleState h => endTripAlert h.mailbox s
  | .moduleWake h => endTripAlert h.mailbox s
  | _ => s

/-! ## Memories (R76, R203, R217, R303) -/

/-- Every byte memory of the module stands in its canonical form: HBM, the register aperture, the two rings of every mailbox, the
scratchpad of every slice. -/
def MemoriesCanonical (s : State) : Prop :=
  Mem.wf s.hbm.data = true ∧ Mem.wf s.mbx.regs = true ∧ (∀ e ∈ s.mbx.boxes, Mem.wf e.2.ring = true ∧ Mem.wf e.2.out = true) ∧
  (∀ e ∈ s.plots, ∀ v ∈ e.2.slices, Mem.wf v.2.spad = true)

/-- The keys of a table from above `lo` on, strictly rising. -/
def keysRise {α : Type} (lo : Option Nat) (t : Tab α) : Bool :=
  match t with
  | [] => true
  | (k, _) :: r => (match lo with | none => true | some l => decide (l < k)) && keysRise (some k) r

/-- The tables of sessions, regions and windows list every number once, in rising order. -/
def TablesOrdered (s : State) : Prop :=
  keysRise none s.gateh.sessions = true ∧ keysRise none s.hbm.regions = true ∧ keysRise none s.mesh.windows = true

/-! ## What a command leaves unchanged -/

/-- `s` with the event records of `t`: its ring and its flash summary. That `t` equals it says that `t` differs from `s` in records alone. -/
def withRecords (t s : State) : State :=
  { s with
    evt := t.evt
    flash := { s.flash with sumCounts := t.flash.sumCounts, sumKept := t.flash.sumKept, sumNext := t.flash.sumNext } }

/-! ## Nodes, pins and fuses -/

/-- The node that a firing command names; none for any other command. -/
def nodeOf (c : Instr) : Option NodeRef :=
  match c with
  | .pass n => some n
  | .fadd n _ => some n
  | .fsub n _ => some n
  | .fmul n _ => some n
  | .ffma n _ => some n
  | .fmin n => some n
  | .fmax n => some n
  | .fabs n => some n
  | .fneg n => some n
  | .fsq n _ => some n
  | .fcmplt n => some n
  | .fcmple n => some n
  | .fcmpeq n => some n
  | .iadd n _ => some n
  | .isub n _ => some n
  | .imul n _ => some n
  | .and n => some n
  | .or n => some n
  | .xor n => some n
  | .shl n => some n
  | .shr n => some n
  | .sar n => some n
  | .icmplt n => some n
  | .icmpeq n => some n
  | .cvtI32F32 n => some n
  | .cvtF32I32 n => some n
  | .cvtDn n => some n
  | .cvtUp n => some n
  | .perm n => some n
  | .bcast n => some n
  | .laneid n => some n
  | .byteEq n => some n
  | .byteRange n => some n
  | .exp n => some n
  | .log n => some n
  | .rcp n => some n
  | .rsqrt n => some n
  | .sin n => some n
  | .cos n => some n
  | .erf n => some n
  | .lsum n => some n
  | .lmax n => some n
  | .lmin n => some n
  | .accSum n => some n
  | .accMax n => some n
  | .accMin n => some n
  | .topk n => some n
  | .switch n => some n
  | .gate n => some n
  | .merge n => some n
  | .select n => some n
  | .spread n => some n
  | .lds n => some n
  | .sts n => some n
  | .ld n => some n
  | .st n => some n
  | .gather n => some n
  | .scatter n => some n
  | .publish n => some n
  | .release n => some n
  | .qrd n => some n
  | .qwr n => some n
  | .paramRd n => some n
  | .paramWr n => some n
  | .sectNext n => some n
  | .sectLoad n => some n
  | _ => none

/-- The commands that are edges of POWER_GOOD, of RESET_N, of TRST_N and of the auxiliary rail (R384, R385, R475). -/
def pinEdge (c : Instr) : Bool :=
  match c with
  | .powerGoodRise | .powerGoodLoss | .resetAssert | .resetRelease | .auxRailApplied _ | .auxRailRemoved | .jtagReset
  | .jtagInstruction _ => true
  | _ => false

/-- The commands that may program fuses (R356, R357, R403, R405), with the four that take requests from a mailbox. -/
def fuseCommand (c : Instr) : Bool :=
  match c with
  | .ownerClaim _ _ _ | .otpGenerationWrite _ _ _ _ | .ownerKeyChange _ _ _ | .shutdownTestComplete _ | .reqTailDoorbell _ _ _
  | .rspHeadWrite _ _ _ | .registerWrite _ _ _ | .mailboxRelay _ _ => true
  | _ => false

end Sys2Proof.Machine
end

