-- ==== Sys2Proof/Certificates/Slice0/Obligations.lean ====
section
/-! DEFINITION. The statements about the module, group by group: the queue and the requests, the commands of each family, the events, the
machinery of a job, and the invariant of its memories. -/

open Sys2Proof Sys2Proof.Machine

/-! ## The queue, the clock tick, reset -/

/-- A step takes the command at the front of the queue and runs it with the rest of the queue in place. -/
def Obligations.StepRunsFrontCommand : Prop :=
  ∀ (c : Instr) (s : State), step { s with pending := c :: s.pending } = exec c s

/-- On an empty queue a step is one tick of the local time counter, which counts from the auxiliary rail on (R299). That a step on an empty
queue is a tick is the model's choice (log entry 2). A timer that R73 freezes keeps its count over the tick; where none is frozen nothing else
changes, but that in a shut-down test the next pair of fields may begin, whose ports then gate (R405; when it does is open, log entry 20). -/
def Obligations.IdleTickCountsLocalTime : Prop :=
  (∀ s : State, s.pending = [] →
    (s.pins.auxOn = true → ∃ t, step s = .next (nextPair t) ∧ t.ctl = { s.ctl with localTime := s.ctl.localTime + 1#64 } ∧
      t = { s with ctl := t.ctl, chans := t.chans, plots := t.plots } ∧
      ((∀ p, timersFrozen s p = false) → t = { s with ctl := t.ctl }) ∧
      (∀ p i, (sliceOf t p i).stalls = if timersFrozen s p then (sliceOf s p i).stalls.map (fun w => { w with frozen := w.frozen + 1 })
        else (sliceOf s p i).stalls) ∧
      (∀ c, (chanOf t c).waiters = (chanOf s c).waiters.map (fun w => if timersFrozen s w.plot then { w with frozen := w.frozen + 1 } else w)) ∧
      (∀ since n, (s.ctl.localTime - since).toNat + 1 < 2 ^ 64 → usWaited t since (n + 1) = usWaited s since n)) ∧
    (s.pins.auxOn = false → step s = .next s)) ∧
  (∀ s : State, s.ctl.mode ≠ .testing ∨ s.test.pairs.length < 2 → nextPair s = s) ∧
  (∀ (s : State) p q r, s.ctl.mode = .testing → s.test.pairs = p :: q :: r → nextPair s = s ∨
    nextPair s = gatePair q { s with test := { s.test with pairs := q :: r, pairFrom := s.ctl.localTime } })

/-- After reset: LODGE with the local time counter at zero (R384, R299), an empty queue, an unowned module with the OTP settings of R400, no
session, no job, no region, no event. -/
def Obligations.ResetState : Prop :=
  State.reset.ctl.mode = .lodge ∧ State.reset.ctl.localTime = 0#64 ∧ State.reset.pending = [] ∧
  otpValue State.reset 2 = 0 ∧ otpValue State.reset 3 = 0 ∧ otpValue State.reset 4 = 0 ∧ otpValue State.reset 5 = 5000 ∧
  otpValue State.reset 6 = 0 ∧ ownerHash State.reset = none ∧
  State.reset.gateh.sessions = [] ∧ State.reset.job.loaded = false ∧ State.reset.hbm.regions = [] ∧ State.reset.evt.ring = [] ∧
  State.reset.evt.next = 0

/-- Every command ends in a next state: the module has no command that stops it. -/
def Obligations.EveryCommandAnswers : Prop :=
  ∀ (c : Instr) (s : State), ∃ t, exec c s = .next t

/-! ## The invariant of the memories and the tables -/

/-- Every step keeps every byte memory in its canonical form (HBM, the register aperture, the rings of the mailboxes, the scratchpads) and the tables of
sessions, regions and windows in rising order, so that each number stands once. -/
def Obligations.StepKeepsMemoriesAndTables : Prop :=
  ∀ s t : State, MemoriesCanonical s ∧ TablesOrdered s → step s = .next t → MemoriesCanonical t ∧ TablesOrdered t

/-- The memories of reset stand in canonical form and its tables in order. -/
def Obligations.ResetKeepsMemoriesAndTables : Prop := MemoriesCanonical State.reset ∧ TablesOrdered State.reset

/-! ## Requests (R302 to R319) -/

/-- A mailbox request that is not authentic has no effect and no answer: it is counted as a MAILBOX_DISCARD violation of the host (R308,
R382); a mailbox that the module does not serve takes no request (R305).
A request that fails a test of R310 steps 3 to 5 executes nothing: it is answered BAD_LENGTH, NOT_AUTHORISED, or WRONG_STATE with the legal
states, in that order (R310, R317). The answer moves the session's least `SEQ` on. -/
def Obligations.UnexecutedRequest : Prop :=
  (∀ (c : Instr) (h : Hdr) (row : Cmd) (s : State), commandRow c s = some (h, row) →
      (servedMailbox h.mailbox s = true → authentic h s = false → exec c s = .next (violation 0x07 .none (sourceHost s) s)) ∧
      (servedMailbox h.mailbox s = false → exec c s = .next s)) ∧
  (∀ (c : Instr) (h : Hdr) (row : Cmd) (s : State), commandRow c s = some (h, row) → servedMailbox h.mailbox s = true → authentic h s = true →
      (¬(h.len ≤ maxPayload s ∧ h.len = row.size) →
        exec c s = .next (tripAnswered c (respond h row.code ⟨0x0012, 0, []⟩ (accept h s)))) ∧
      (h.len ≤ maxPayload s → h.len = row.size → authorised h row s = false →
        exec c s = .next (tripAnswered c (respond h row.code ⟨0x0013, 0, []⟩ (accept h s)))) ∧
      (h.len ≤ maxPayload s → h.len = row.size → authorised h row s = true → s.ctl.mode ∉ row.legal →
        exec c s = .next (tripAnswered c (respond h row.code ⟨0x0010, 0, le 8 (maskOf (row.legal.map ModState.code))⟩ (accept h s)))))

/-- A response that finds room stands in the response ring at the place that R161 and R304 give it, with the command and `SEQ` of its request,
the module state and the DEGRADED flag of that moment (R307), as its 32-byte header with the payload in the clear, or under a session as
ciphertext with its tag in a trailer (R304, R308); one without room waits behind those that wait (R311). Nothing else changes. -/
def Obligations.ResponseRecord : Prop :=
  ∀ (h : Hdr) (code : Nat) (r : Reply) (s : State),
    let key := if h.session = 0 then none else (Tab.find s.gateh.sessions h.session).map (·.keys.rsp)
    let rec_ : Rsp := ⟨false, code, h.seq, h.session, r.status, s.ctl.mode.code, degraded s, BitVec.ofNat 64 r.clamps, r.payload, key⟩
    let b := boxOf s h.mailbox
    let n := recordEntries r.payload.length h.session
    respond h code r s = { s with mbx := (respond h code r s).mbx } ∧
    (∀ m, m ≠ h.mailbox → boxOf (respond h code r s) m = boxOf s m) ∧
    (b.delayed = [] → n ≤ 1020 - b.rspTail → n ≤ b.rspFree →
      Tab.get (boxOf (respond h code r s) h.mailbox).rsp b.rspTail Rsp.padRecord = rec_ ∧
      (boxOf (respond h code r s) h.mailbox).out = Mem.write b.out (32 * b.rspTail) (rec_.bytes h.mailbox) ∧
      (boxOf (respond h code r s) h.mailbox).rspTail = (b.rspTail + n) % 1020) ∧
    (b.delayed = [] → 1020 - b.rspTail < n → n + (1020 - b.rspTail) ≤ b.rspFree →
      Tab.get (boxOf (respond h code r s) h.mailbox).rsp 0 Rsp.padRecord = rec_ ∧
      (boxOf (respond h code r s) h.mailbox).out =
        Mem.write (Mem.write b.out (32 * b.rspTail) Rsp.padRecord.header) 0 (rec_.bytes h.mailbox) ∧
      (boxOf (respond h code r s) h.mailbox).rspTail = n % 1020) ∧
    (b.delayed ≠ [] ∨ b.rspFree < n →
      boxOf (respond h code r s) h.mailbox = { b with delayed := b.delayed ++ [rec_] })

/-- The requests of a mailbox are taken up in ring order. A pad at `REQ_HEAD` is skipped. With a whole record there and no response that waits for room, that
request is taken: its entries are free again, it is opened, and it runs as the command of its code; then the next one. Without a whole record, or with a response that
waits, nothing more is taken (R303, R304, R306, R310, R311). A request in the clear is its payload; one under a session opens, under `K_REQ` of that session over its
header, ciphertext and trailer, or does not (R308, R361).
The doorbell stores `REQ_TAIL` and takes up what waits. `RSP_HEAD` moves on within the written records, and the entries that it has passed are free; the responses that
wait for room are placed in order, and then the requests go on (R304, R311). Either write may come in a HOST packet, which it takes (R278). -/
def Obligations.MailboxPointers : Prop :=
  (∀ (mb n : Nat) (xs : List Ext) (s : State),
      let s1 := updBox mb Mailbox.skipPad s
      let b := boxOf s1 mb
      let r := b.headAt b.reqHead
      (servedMailbox mb s = true → b.delayed = [] → b.ready = true → ∃ t,
        dispatch r.code ⟨mb, r.session, r.seq, r.len, (openRequest mb s1).isSome⟩ ((openRequest mb s1).getD []) (xs.headD default)
            (updBox mb (fun b => { b with reqHead := (b.reqHead + b.recordSize) % 1020 }) s1) = .next t ∧
          takeRequests mb (n + 1) xs s = takeRequests mb n (xs.drop 1) t) ∧
      (servedMailbox mb s = false ∨ b.delayed ≠ [] ∨ b.ready = false → takeRequests mb (n + 1) xs s = .next s1)) ∧
  (∀ (mb : Nat) (s : State),
      let b := boxOf s mb
      let r := b.headAt b.reqHead
      let text := Mem.read b.ring (32 * (b.reqHead + 1)) r.len
      (r.session = 0 → openRequest mb s = some text) ∧
      (r.session ≠ 0 → Tab.find s.gateh.sessions r.session = none → openRequest mb s = none) ∧
      (∀ e, r.session ≠ 0 → Tab.find s.gateh.sessions r.session = some e → openRequest mb s =
        gcmOpen 0 e.keys.req (recordIv mb r.session false r.seq) (Mem.read b.ring (32 * b.reqHead) 32)
          (text ++ Mem.read b.ring (32 * (b.reqHead + 1 + (r.len + 31) / 32)) 16))) ∧
  (∀ (mb : Nat) (tail : U16) (x : List Ext) (s0 : State),
      let s := takeHost s0
      let s1 := updBox mb (fun b => { b with reqTail := tail.toNat }) s
      (servedMailbox mb s = true → tail.toNat < 1020 →
        exec (.reqTailDoorbell mb tail x) s0 = takeRequests mb ((boxOf s1 mb).waiting + 1) x s1) ∧
      (servedMailbox mb s = false ∨ 1020 ≤ tail.toNat → exec (.reqTailDoorbell mb tail x) s0 = .next s)) ∧
  (∀ (mb : Nat) (head : U16) (x : List Ext) (s0 : State),
      let s := takeHost s0
      let b := boxOf s mb
      let far := fun p => (p + 1020 - b.rspHead) % 1020
      let s1 := updBox mb (fun v => placeAll ⟨mb, s.ctl.mode.code, degraded s⟩ v.delayed
        { v with rspHead := head.toNat, rsp := v.rsp.filter (fun e => decide (far head.toNat ≤ far e.1)) }) s
      (servedMailbox mb s = true → head.toNat < 1020 → far head.toNat ≤ far b.rspTail →
        exec (.rspHeadWrite mb head x) s0 = takeRequests mb ((boxOf s1 mb).waiting + 1) x s1) ∧
      (servedMailbox mb s = false ∨ 1020 ≤ head.toNat → exec (.rspHeadWrite mb head x) s0 = .next s))

/-- The code of a request selects its command, as R323 lists them; a code that R323 does not list is answered UNKNOWN_COMMAND (R310 step 2). -/
def Obligations.RequestCodeSelectsCommand : Prop :=
  ∀ (h : Hdr) (p : List Byte) (x : Ext) (s : State),
    (dispatch 0x0100 h p x s = exec (.moduleIdentify h) s ∧ dispatch 0x0101 h p x s = exec (.moduleState h) s ∧
     dispatch 0x0102 h p x s = exec (.moduleWake h) s ∧
     dispatch 0x0103 h p x s = (if value p 0 = 0#64 then exec (.moduleShutdown h (value p 1)) s
       else exec (.moduleShutdownTest h (value p 0) (value p 1)) s) ∧
     dispatch 0x0104 h p x s = exec (.moduleRestart h) s ∧ dispatch 0x0105 h p x s = exec (.moduleFirmwareInstall h (bulkAt p) x) s ∧
     (numAt p 0 1 = 1 → dispatch 0x0200 h p x s = exec (.sessionOpenHello h (helloIn p) x) s) ∧
     (numAt p 0 1 = 2 → dispatch 0x0200 h p x s = exec (.sessionOpenFinish h (finishIn p) x) s) ∧
     dispatch 0x0201 h p x s = exec (.sessionClose h) s ∧ dispatch 0x0202 h p x s = exec (.attestReport h (BitVec.ofNat 384 (numAt p 0 48))) s ∧
     dispatch 0x0203 h p x s = exec (.ownerClaim h (claimIn p) x) s ∧ dispatch 0x0204 h p x s = exec (.ownerViolationsRead h (value p 0)) s ∧
     dispatch 0x0205 h p x s = exec (.ownerSeal h) s ∧ dispatch 0x0206 h p x s = exec (.ownerUnseal h (tokenIn p) x) s) ∧
    (dispatch 0x0300 h p x s = exec (.jobLoad h (bulkAt p) x) s ∧ dispatch 0x0301 h p x s = exec (.jobStart h) s ∧
     dispatch 0x0302 h p x s = exec (.jobDrain h) s ∧ dispatch 0x0303 h p x s = exec (.jobUnload h) s ∧
     dispatch 0x0304 h p x s = exec (.jobStatus h (value p 0)) s ∧ dispatch 0x0400 h p x s = exec (.plotStatus h) s ∧
     dispatch 0x0401 h p x s = exec (.plotPolicySet h (value p 0)) s ∧ dispatch 0x0402 h p x s = exec (.plotPin h (value p 0)) s ∧
     dispatch 0x0403 h p x s = exec (.plotUnpin h (value p 0)) s ∧ dispatch 0x0404 h p x s = exec (.plotFence h (value p 0)) s) ∧
    (dispatch 0x0500 h p x s = exec (.memoryRegionDefine h (rec4In p) x) s ∧
     dispatch 0x0501 h p x s = exec (.memoryRegionClear h (value p 0)) s ∧ dispatch 0x0502 h p x s = exec (.memoryRegionRelease h (value p 0)) s ∧
     dispatch 0x0503 h p x s = exec (.memoryRegionList h (value p 0)) s ∧
     (numAt p 8 1 = 0 → dispatch 0x0504 h p x s = exec (.memoryRetirePage h ⟨value p 0, x.copy⟩) s) ∧
     (numAt p 8 1 = 1 → dispatch 0x0504 h p x s = exec (.memoryRetireBank h ⟨value p 0, x.copy⟩) s) ∧
     dispatch 0x0505 h p x s = exec (.memoryRepairRequest h (value p 0) (value p 1)) s ∧
     dispatch 0x0506 h p x s = exec (.memoryScrubSet h (value p 0) (value p 1)) s ∧
     dispatch 0x0507 h p x s = (if bit (value p 1).toNat 0 then exec (.memoryStagingMark h (value p 0 % 1024#64)) s
       else exec (.memoryStagingUnmark h (value p 0 % 1024#64)) s)) ∧
    (dispatch 0x0600 h p x s = exec (.linkStatus h) s ∧ dispatch 0x0601 h p x s = exec (.linkWidthPolicy h (value p 0) (value p 1)) s ∧
     dispatch 0x0700 h p x s = exec (.meshAssign h (value p 0)) s ∧ dispatch 0x0701 h p x s = exec (.meshStatus h) s ∧
     dispatch 0x0702 h p x s = exec (.meshRouteWrite h (BitVec.ofNat 16 (numAt p 0 2)) (routesIn p) x) s ∧
     dispatch 0x0703 h p x s = exec (.meshTimeRead h) s ∧
     dispatch 0x0704 h p x s = exec (.windowOpen h (rec4In p) (BitVec.ofNat 256 (numAt p 32 32)) x) s ∧
     dispatch 0x0705 h p x s = (if bit (value p 0).toNat 12 then exec (.windowFree h (value p 0)) s else exec (.windowClose h (value p 0)) s) ∧
     dispatch 0x0706 h p x s = exec (.windowList h (value p 0)) s) ∧
    (dispatch 0x0800 h p x s = exec (.testPackInstall h (bulkAt p) x) s ∧ dispatch 0x0801 h p x s = exec (.testCadenceSet h (value p 0)) s ∧
     dispatch 0x0802 h p x s = exec (.testStatus h) s ∧ dispatch 0x0900 h p x s = exec (.healthMargins h (value p 0)) s ∧
     dispatch 0x0901 h p x s = exec (.healthLogRead h (value p 0) (value p 1) (value p 2)) s ∧
     dispatch 0x0902 h p x s = exec (.healthEventsRead h (value p 0) (value p 1)) s ∧
     dispatch 0x0903 h p x s = exec (.healthSummaryRead h (value p 0)) s ∧ dispatch 0x0904 h p x s = exec (.healthWarnings h) s ∧
     dispatch 0x0A00 h p x s = exec (.otpRead h (value p 0)) s ∧
     dispatch 0x0A01 h p x s = (if value p 0 = 1#64 then exec (.ownerKeyChange h (value p 1) x) s
       else exec (.otpGenerationWrite h (value p 0) (value p 1) x) s) ∧
     dispatch 0x0B00 h p x s = exec (.powerLimitSet h (value p 0)) s ∧ dispatch 0x0B01 h p x s = exec (.powerClockSet h (value p 0) (value p 1)) s ∧
     dispatch 0x0B02 h p x s = exec (.powerStatus h) s ∧ dispatch 0x0C00 h p x s = exec (.debugQueueView h (value p 0)) s ∧
     dispatch 0x0C01 h p x s = exec (.debugCountersRead h (value p 0)) s ∧ dispatch 0x0C02 h p x s = exec (.debugUnlock h (tokenIn p) x) s ∧
     dispatch 0x0C03 h p x s = exec (.debugUartEnable h (value p 0)) s) ∧
    (∀ code, code ∉ [0x0100, 0x0101, 0x0102, 0x0103, 0x0104, 0x0105, 0x0200, 0x0201, 0x0202, 0x0203, 0x0204, 0x0205, 0x0206, 0x0300, 0x0301,
        0x0302, 0x0303, 0x0304, 0x0400, 0x0401, 0x0402, 0x0403, 0x0404, 0x0500, 0x0501, 0x0502, 0x0503, 0x0504, 0x0505, 0x0506, 0x0507, 0x0600,
        0x0601, 0x0700, 0x0701, 0x0702, 0x0703, 0x0704, 0x0705, 0x0706, 0x0800, 0x0801, 0x0802, 0x0900, 0x0901, 0x0902, 0x0903, 0x0904, 0x0A00,
        0x0A01, 0x0B00, 0x0B01, 0x0B02, 0x0C00, 0x0C01, 0x0C02, 0x0C03] →
      servedMailbox h.mailbox s = true → authentic h s = true →
      dispatch code h p x s = .next (respond h code ⟨0x0011, 0, []⟩ (accept h s)))

/-! ## The module as a whole -/

/-- `module.state` and `module.wake` answer; on mailbox 0 the answer ends the ALERT of a thermal trip (R322, R477). A wake is kept, and with
POWER_GOOD asserted and RESET released BOOT begins after the response (R385).
Shut-down, shut-down with a test, and restart answer first and then leave READY: to LODGE at level 0, to TESTING at a level of 1 to 3, to
BOOT; `LEVEL` above 3 and `RETAIN` above 1 are clamped (R240, R324, R405, R241). -/
def Obligations.WakeShutdownRestart : Prop :=
  ((∀ h s, Accepted (.moduleState h) s →
      exec (.moduleState h) s = .next (endTripAlert h.mailbox (okResponse h 0x0101 (stateBytes (accept h s)) (accept h s)))) ∧
    (∀ h s, Accepted (.moduleWake h) s →
      let t := okResponse h 0x0102 [] (mapCtl (fun c => { c with wakeKept := true }) (accept h s))
      (powered s = true → exec (.moduleWake h) s = .next (endTripAlert h.mailbox (enterBoot 0x0102 t))) ∧
      (powered s = false → exec (.moduleWake h) s = .next (endTripAlert h.mailbox t)))) ∧
  ((∀ h retain s, Accepted (.moduleShutdown h retain) s →
      exec (.moduleShutdown h retain) s = .next (lodgeOrderly (retain ≠ 0#64) 0x0103
        (clampResponse h 0x0103 [⟨0, false⟩, clampTo 1 retain.toNat] [] (accept h s)))) ∧
    (∀ h level retain s, Accepted (.moduleShutdownTest h level retain) s →
      let t := clampResponse h 0x0103 [clampTo 3 level.toNat, clampTo 1 retain.toNat] [] (accept h s)
      (level ≠ 0#64 → exec (.moduleShutdownTest h level retain) s = .next (enterTesting (min 3 level.toNat) (retain ≠ 0#64) t)) ∧
      (level = 0#64 → exec (.moduleShutdownTest h level retain) s = .next (lodgeOrderly (retain ≠ 0#64) 0x0103 t))) ∧
    (∀ h s, Accepted (.moduleRestart h) s →
      exec (.moduleRestart h) s = .next (enterBoot 0x0104 (dropJob (okResponse h 0x0104 [] (accept h s))))))

/-- Entry to BOOT: every session and handshake ends, no port has a link and no mesh address stands (R273), JTAG locks with its TAP at IDCODE, the UART is off, a kept wake is used up (R365, R380,
R381, R385, R479).
Entry to LODGE, orderly or by a loss of power: no session, no job, no plot, no port, no mesh address, no window (R240, R365, R472); a loss
of power takes every byte of HBM with its maps (R241). -/
def Obligations.EntryToBootAndLodge : Prop :=
  (∀ (cause : Nat) (s : State),
      (enterBoot cause s).ctl.mode = .boot ∧ (enterBoot cause s).ctl.wakeKept = false ∧ (enterBoot cause s).ctl.bootStart = s.ctl.localTime ∧
      (enterBoot cause s).ctl.jtagIr = 0x01#8 ∧ (enterBoot cause s).ctl.bootFromLodge = decide (s.ctl.mode = .lodge) ∧
      (enterBoot cause s).ctl.tripPending = none ∧ (enterBoot cause s).ctl.localTime = s.ctl.localTime ∧
      (enterBoot cause s).gateh.debugUnlocked = false ∧ (enterBoot cause s).gateh.jtagOpen = false ∧ (enterBoot cause s).gateh.uart = false ∧ (enterBoot cause s).gateh.handshakes = [] ∧
      (enterBoot cause s).gateh.sessions = [] ∧ (enterBoot cause s).links = [] ∧ (enterBoot cause s).mesh = Mesh.empty ∧ (enterBoot cause s).pins = s.pins ∧ (enterBoot cause s).otp = s.otp) ∧
  ((∀ (retain : Bool) (cause : Nat) (s : State), let t := lodgeOrderly retain cause s
      t.ctl.mode = .lodge ∧ t.ctl.wakeKept = false ∧ t.gateh.sessions = [] ∧ t.gateh.handshakes = [] ∧ t.job.loaded = false ∧ t.plots = [] ∧
      t.links = [] ∧ t.mesh = Mesh.empty ∧ t.pins = s.pins ∧ t.otp = s.otp ∧ t.ctl.localTime = s.ctl.localTime ∧
      t.flash.residencyDigest.isSome = retain) ∧
    (∀ (cause : Nat) (s : State), s.ctl.mode ≠ .lodge → let t := lodgeLoss cause s
      t.ctl.mode = .lodge ∧ t.ctl.wakeKept = false ∧ t.gateh.sessions = [] ∧ t.gateh.handshakes = [] ∧ t.job.loaded = false ∧ t.plots = [] ∧
      t.links = [] ∧ t.mesh = Mesh.empty ∧ t.pins = s.pins ∧ t.otp = s.otp ∧ t.ctl.localTime = s.ctl.localTime ∧
      t.hbm.data = [] ∧ t.hbm.written = [] ∧ t.hbm.poison = [] ∧ (∀ e ∈ t.hbm.regions, e.2.resident = true) ∧ t.flash.residencyDigest = none))

/-- The pins of power and reset: a fall of POWER_GOOD and an asserted RESET are losses of power; a rise of POWER_GOOD and a released RESET start
BOOT from LODGE for a kept wake or AUTO_WAKE, with POWER_GOOD high and RESET released (R385, R472).
The auxiliary rail: applied, LODGE with the local time counter at zero and every identity memory read, and from there BOOT where
POWER_GOOD is up and AUTO_WAKE is 1 (R299, R384, R385, R389); removed, the
module is off and keeps what its OTP, its flash and its residency store hold, and the bytes of HBM are gone (R473, R241).
JTAG serves IDCODE and BYPASS while it is locked, where every other instruction acts as BYPASS; after a debug unlock every instruction
stands; a debugger that shifts an instruction drives TRST_N high (log entry 99). A TAP reset is TRST_N low and selects IDCODE (R379, R475, R479). Nothing else changes. -/
def Obligations.PinsRailAndJtag : Prop :=
  ((∀ s, s.pins.powerGood = false →
      let t := { s with pins := { s.pins with powerGood := true } }
      (powered t = true → s.ctl.mode = .lodge → s.ctl.wakeKept = true → exec .powerGoodRise s = .next (enterBoot 0x0102 t)) ∧
      (powered t = true → s.ctl.mode = .lodge → s.ctl.wakeKept = false → otpValue s 6 = 1 → exec .powerGoodRise s = .next (enterBoot 0 t)) ∧
      (powered t = false ∨ s.ctl.mode ≠ .lodge ∨ (s.ctl.wakeKept = false ∧ otpValue s 6 ≠ 1) → exec .powerGoodRise s = .next t)) ∧
    (∀ s, s.pins.powerGood = true → exec .powerGoodLoss s = .next (lodgeLoss 0 { s with pins := { s.pins with powerGood := false } })) ∧
    (∀ s, s.pins.resetN = true → exec .resetAssert s = .next (lodgeLoss 0 { s with pins := { s.pins with resetN := false } })) ∧
    (∀ s, s.pins.resetN = false →
      let t := { s with pins := { s.pins with resetN := true } }
      (powered t = true → s.ctl.mode = .lodge → s.ctl.wakeKept = true → exec .resetRelease s = .next (enterBoot 0x0102 t)) ∧
      (powered t = true → s.ctl.mode = .lodge → s.ctl.wakeKept = false → otpValue s 6 = 1 → exec .resetRelease s = .next (enterBoot 0 t)) ∧
      (powered t = false ∨ s.ctl.mode ≠ .lodge ∨ (s.ctl.wakeKept = false ∧ otpValue s 6 ≠ 1) → exec .resetRelease s = .next t))) ∧
  ((∀ ids s, s.pins.auxOn = false → ∃ t, exec (.auxRailApplied ids) s = .next t ∧
      t.ctl.mode = (if s.pins.powerGood && s.pins.resetN && otpValue s 6 = 1 then .boot else .lodge) ∧
      t.ctl.localTime = 0#64 ∧ t.ctl.ids = readIds ids ∧ t.pins = { s.pins with auxOn := true } ∧ t.otp = s.otp ∧ t.gateh.sessions = [] ∧
      t.job.loaded = false ∧ t.pending = s.pending) ∧
    (∀ s, s.pins.auxOn = true → ∃ t, exec .auxRailRemoved s = .next t ∧ t.pins = { s.pins with auxOn := false } ∧ t.otp = s.otp ∧
      t.flash = { s.flash with residencyDigest := none } ∧ t.gateh.residency = s.gateh.residency ∧ t.hbm.data = [] ∧
      t.hbm.regions = s.hbm.regions.filter (fun e => e.2.resident) ∧ t.gateh.sessions = [] ∧ t.job.loaded = false ∧ t.pending = s.pending)) ∧
  ((∀ ir s, s.gateh.jtagOpen = false → ir ≠ 0x01#8 → exec (.jtagInstruction ir) s =
      .next { s with ctl := { s.ctl with jtagIr := 0xFF#8 }, pins := { s.pins with trstN := true } }) ∧
    (∀ ir s, s.gateh.jtagOpen = true ∨ ir = 0x01#8 → exec (.jtagInstruction ir) s =
      .next { s with ctl := { s.ctl with jtagIr := ir }, pins := { s.pins with trstN := true } }) ∧
    (∀ s, exec .jtagReset s = .next { s with ctl := { s.ctl with jtagIr := 0x01#8 }, pins := { s.pins with trstN := false } }))

/-- The start sequence takes BOOT to TRAIN when a slot holds a bootable image and the record area verifies; without an image the module is sealed
with cause 1, with a damaged area with cause 5 (R371, R377, R393). On an entry from LODGE the identity memories are read first (R389). The
clock mode is Standard with no pin (R454).
TRAIN ends in READY when every port has settled and addressing has ended, with START_REPORT and STATE_CHANGE; before that nothing changes
(R321, R394).
The shut-down test ends in LODGE: the test record is signed and stored with its level and `RETAIN`, clean when no field failed to complete
and no word was marked, which only level 3 does; the repair queue is empty after a level of 2 or 3 (R405, R410, R411). -/
def Obligations.StartSequenceAndTest : Prop :=
  (∀ (env : BootEnv) (s : State), s.ctl.mode = .boot →
      let a := if s.ctl.bootFromLodge then { s with ctl := { s.ctl with ids := readIds env.ids } } else s
      (∀ slot fw, selectFirmware a env.slotBad = some (slot, fw) → env.areaBad = false → ∃ t, exec (.bootSequence env) s = .next t ∧
        t.ctl.mode = .train ∧ t.ctl.fwSlot = slot ∧ t.ctl.fwLast = some fw ∧ t.ctl.ids = a.ctl.ids ∧ t.pins = s.pins ∧ t.otp = s.otp ∧
        t.plots = [] ∧ t.health = [] ∧ t.pwr.clockMode = 1 ∧ t.pwr.pin = false ∧ t.job = s.job) ∧
      (selectFirmware a env.slotBad = none → exec (.bootSequence env) s = .next (sealModule 1 (startPower a))) ∧
      (∀ r, selectFirmware a env.slotBad = some r → env.areaBad = true → exec (.bootSequence env) s = .next (sealModule 5 (startPower a)))) ∧
  ((∀ s, s.ctl.mode = .train → portsSettled s = true → s.mesh.settled = true → s.mesh.addressingDone = true →
      exec .trainToReady s = .next (setMode .ready 0 (startReport s))) ∧
    (∀ s, s.ctl.mode ≠ .train ∨ portsSettled s = false ∨ s.mesh.settled = false ∨ s.mesh.addressingDone = false →
      exec .trainToReady s = .next s)) ∧
  ((∀ (env : TestEnv) (s : State), s.ctl.mode = .testing → ∃ t, exec (.shutdownTestComplete env) s = .next t ∧ t.ctl.mode = .lodge ∧
      t.gateh.sessions = [] ∧ t.pins = s.pins ∧ t.ctl.localTime = s.ctl.localTime ∧ (2 ≤ s.test.level → t.flash.repairs = []) ∧
      (∃ r, t.flash.testRecord = some r ∧ r.level = s.test.level ∧ r.retain = s.test.retain ∧
        r.clean = (env.fieldsFailed.isEmpty && (decide (s.test.level ≠ 3) || env.marked.isEmpty)) ∧ r.startCount = s.flash.startCount ∧ r.time = s.ctl.localTime ∧
        r.elapsedMs = (s.ctl.localTime - s.test.began).toNat / 25000)) ∧
    (∀ env s, s.ctl.mode ≠ .testing → exec (.shutdownTestComplete env) s = .next s))

/-! ## Sessions, ownership, attestation, OTP, debug -/

/-- A handshake is pending for 10 s of the local time counter (R364).
HELLO of `session.open` on a claimed module: a pending handshake, born now, under the lowest free number, with TH1 and the keys derived from the
two nonces and the shared point (R361), and an answer with fresh values, signed over TH1 (R360); an invalid point fails, and eight pending handshakes or sixty-four
sessions leave no room (R360, R364). The number is the model's choice (log entry 23).
FINISH of `session.open`: the handshake is used up by the first failed check or by success; a proof of the role, a valid signature and the
`CONFIRM_H` that K_CH gives over TH2 open a session of that role on that mailbox with the handshake's keys, with SESSION_CHANGE, and the
answer holds `CONFIRM_M` (R359, R362, R363), the session being that of the principal whose public key the request carries; sixty-four open sessions leave no room.
A handshake that is not pending fails check 1; its expiry after 10 s takes it away, and earlier does nothing (R364).
`session.close` answers and marks the session, which takes no further request; its teardown unloads its job, frees its windows, tears down its
non-resident regions and reports SESSION_CHANGE, after a running job has drained (R374, R485). -/
def Obligations.SessionLife : Prop :=
  (∀ s, expireHandshakes s = mapGate (fun g => { g with
    handshakes := g.handshakes.filter (fun e => decide ((s.ctl.localTime - e.2.born).toNat < 10 * 25000000)) }) s) ∧
  (∀ (h : Hdr) (m : Hello) (x : Ext) (s : State), Accepted (.sessionOpenHello h m x) s →
      let a := expireHandshakes (accept h s)
      (x.pointOk = true → a.gateh.handshakes.length < 8 → a.gateh.sessions.length < 64 →
        let body := helloBody a (freeHandshake a)
        let th1 := Config.sha384 (helloBytes m ++ body)
        exec (.sessionOpenHello h m x) s = .next (okResponse h 0x0200 (body ++ le 96 (Config.deviceSign s.free th1).toNat)
          (drawFree (mapGate (fun g => { g with
            handshakes := Tab.set g.handshakes (freeHandshake a)
              ⟨m.role, m.mailbox, s.ctl.localTime, th1, deriveKeys m.nonce (Config.entropy256 s.free) (Config.sharedX s.free m.eph) th1⟩ }) a)))) ∧
      (x.pointOk = false → exec (.sessionOpenHello h m x) s = .next (failedResponse h 0x0200 (fieldDiag 0 360 0) a)) ∧
      (x.pointOk = true → 8 ≤ a.gateh.handshakes.length ∨ 64 ≤ a.gateh.sessions.length →
        exec (.sessionOpenHello h m x) s = .next (exhaustedResponse h 0x0200 a))) ∧
  ((∀ (h : Hdr) (m : Finish) (x : Ext) (s : State) (k : Handshake), Accepted (.sessionOpenFinish h m x) s →
      Tab.find (expireHandshakes s).gateh.handshakes m.handshake = some k →
      let a := dropHandshake m.handshake (accept h s)
      (proofOk a k m x = false → exec (.sessionOpenFinish h m x) s =
        .next (failedResponse h 0x0200 { fieldDiag 0 363 m.credKind with rule := 2 } a)) ∧
      (proofOk a k m x = true → x.sigOk = false → exec (.sessionOpenFinish h m x) s =
        .next (unsignedResponse h 0x0200 { fieldDiag 0 363 0 with rule := 3 } a)) ∧
      (proofOk a k m x = true → x.sigOk = true → m.confirm ≠ confirmH k m → exec (.sessionOpenFinish h m x) s =
        .next (unsignedResponse h 0x0200 { fieldDiag 0 363 0 with rule := 4 } a)) ∧
      (proofOk a k m x = true → x.sigOk = true → m.confirm = confirmH k m → Tab.lowestFree a.gateh.sessions 1 64 = none →
        exec (.sessionOpenFinish h m x) s = .next (exhaustedResponse h 0x0200 a)) ∧
      (∀ id, proofOk a k m x = true → x.sigOk = true → m.confirm = confirmH k m → Tab.lowestFree a.gateh.sessions 1 64 = some id →
        let e : Session := ⟨k.role, Config.sha384 (le 97 m.key.toNat), k.mailbox, 0, credQuota m.cred, none, false, k.derived.keys⟩
        exec (.sessionOpenFinish h m x) s = .next (okResponse h 0x0200 (lay [(8, id), (48, (confirmM k m).toNat), (8, 0)]) (noteSession id e true
          (mapGate (fun g => { g with sessions := Tab.set g.sessions id e }) a))))) ∧
    (∀ (h : Hdr) (m : Finish) (x : Ext) (s : State), Accepted (.sessionOpenFinish h m x) s →
      Tab.find (expireHandshakes s).gateh.handshakes m.handshake = none →
      exec (.sessionOpenFinish h m x) s = .next (failedResponse h 0x0200 { fieldDiag 0 363 m.handshake with rule := 1 } (accept h s))) ∧
    (∀ id s k, Tab.find s.gateh.handshakes id = some k →
      (10 * 25000000 ≤ (s.ctl.localTime - k.born).toNat →
        exec (.handshakeExpiry id) s = .next (mapGate (fun g => { g with handshakes := Tab.erase g.handshakes id }) s)) ∧
      ((s.ctl.localTime - k.born).toNat < 10 * 25000000 → exec (.handshakeExpiry id) s = .next s)) ∧
    (∀ id s, Tab.find s.gateh.handshakes id = none → exec (.handshakeExpiry id) s = .next s)) ∧
  ((∀ (h : Hdr) (s : State) (e : Session), Accepted (.sessionClose h) s → Tab.find (accept h s).gateh.sessions h.session = some e →
      exec (.sessionClose h) s = .next (mapGate (fun g => { g with sessions := Tab.set g.sessions h.session { e with closing := true } })
        (okResponse h 0x0201 [] (accept h s)))) ∧
    (∀ (id : Nat) (s : State) (e : Session), Tab.find s.gateh.sessions id = some e → e.closing = true →
      (s.job.loaded = true → s.job.session = id → s.ctl.mode = .running → exec (.sessionTeardown id) s = .next (beginDrain 0x0201 s)) ∧
      (s.job.loaded = true → s.job.session = id → s.ctl.mode = .draining → exec (.sessionTeardown id) s = .next s) ∧
      (s.job.loaded = false ∨ s.job.session ≠ id ∨ (s.ctl.mode ≠ .running ∧ s.ctl.mode ≠ .draining) → ∃ t,
        exec (.sessionTeardown id) s = .next t ∧ t.gateh.sessions = Tab.erase s.gateh.sessions id ∧
        (∀ w ∈ t.mesh.windows, w.2.session ≠ id) ∧ t.pins = s.pins ∧ t.otp = s.otp ∧ (s.job.session = id → t.job.loaded = false))))

/-- `owner.claim` burns the first owner key hash, the SHA-384 of the key in its record, on an unclaimed module and sets the ticket epoch to 0 (R356); a claimed
module has no room for it, an invalid point or signature burns nothing.
A complete burn is in force at once and every other setting stays: the highest valid generation counts (R401).
`otp.generation.write` burns a value in the range of its setting (R403); the value in force is left as it is, a full store has no room, and a
setting or value out of range burns nothing.
A change of owner key: the record stands in a staging region of the issuer; every region, every other session, every slot key and the residency store go before the
burn, and the issuing session ends after its response (R357, R365, R403); the key in force changes nothing but the answer; a bad address, point or signature fails, and a
full store has no room.
A burn that fails its read-back uses up its generation, and the answer says so, or that no generation is left (R401, R403). -/
def Obligations.OtpBurns : Prop :=
  (∀ (h : Hdr) (r : ClaimRecord) (x : Ext) (s : State), Accepted (.ownerClaim h r x) s →
      let a := accept h s
      let key := (Config.sha384 (le 97 r.key.toNat)).toNat
      (x.pointOk = true → x.sigOk = true → ownerHash s = none → (otpSlots s 1).length < 4 → x.readbackOk = true →
        exec (.ownerClaim h r x) s = .next (okResponse h 0x0203 [] (mapFlash (fun fl => { fl with ticketEpoch := 0 }) (burn 1 key true a)))) ∧
      (x.pointOk = false → exec (.ownerClaim h r x) s = .next (failedResponse h 0x0203 (fieldDiag 0 356 0) a)) ∧
      (x.pointOk = true → x.sigOk = false → exec (.ownerClaim h r x) s = .next (unsignedResponse h 0x0203 (fieldDiag 0 356 0) a)) ∧
      (x.pointOk = true → x.sigOk = true → (ownerHash s).isSome ∨ 4 ≤ (otpSlots s 1).length →
        exec (.ownerClaim h r x) s = .next (exhaustedResponse h 0x0203 a)) ∧
      (x.pointOk = true → x.sigOk = true → ownerHash s = none → (otpSlots s 1).length < 3 → x.readbackOk = false →
        exec (.ownerClaim h r x) s = .next (failedResponse h 0x0203 (fieldDiag 1 403 key) (burn 1 key false a))) ∧
      (x.pointOk = true → x.sigOk = true → ownerHash s = none → (otpSlots s 1).length = 3 → x.readbackOk = false →
        exec (.ownerClaim h r x) s = .next (exhaustedResponse h 0x0203 (burn 1 key false a)))) ∧
  (∀ (k v : Nat) (s : State),
      otpForce (burn k v true s) k = some ((otpSlots s k).length, v) ∧ otpForce (burn k v false s) k = otpForce s k ∧
      (∀ j good, j ≠ k → otpForce (burn k v good s) j = otpForce s j) ∧
      (∀ good, burn k v good s = { s with otp := { s.otp with settings := (burn k v good s).otp.settings } })) ∧
  (∀ (h : Hdr) (setting value : U64) (x : Ext) (s : State), Accepted (.otpGenerationWrite h setting value x) s → setting.toNat ≠ 1 →
      let a := accept h s
      let k := setting.toNat
      (k < 2 ∨ 6 < k → exec (.otpGenerationWrite h setting value x) s = .next (failedResponse h 0x0A01 (fieldDiag 0 403 k) a)) ∧
      (2 ≤ k → k ≤ 6 → settingOk s k value.toNat = false →
        exec (.otpGenerationWrite h setting value x) s = .next (failedResponse h 0x0A01 (fieldDiag 1 403 value.toNat) a)) ∧
      (2 ≤ k → k ≤ 6 → settingOk s k value.toNat = true →
        (otpValue s k = value.toNat → exec (.otpGenerationWrite h setting value x) s = .next (okResponse h 0x0A01 [] a)) ∧
        (otpValue s k ≠ value.toNat → 4 ≤ (otpSlots s k).length →
          exec (.otpGenerationWrite h setting value x) s = .next (exhaustedResponse h 0x0A01 a)) ∧
        (otpValue s k ≠ value.toNat → (otpSlots s k).length < 4 → x.readbackOk = true →
          exec (.otpGenerationWrite h setting value x) s = .next (okResponse h 0x0A01 [] (burn k value.toNat true a))) ∧
        (otpValue s k ≠ value.toNat → (otpSlots s k).length < 3 → x.readbackOk = false → exec (.otpGenerationWrite h setting value x) s =
          .next (failedResponse h 0x0A01 (fieldDiag 1 403 value.toNat) (burn k value.toNat false a))) ∧
        (otpValue s k ≠ value.toNat → (otpSlots s k).length = 3 → x.readbackOk = false →
          exec (.otpGenerationWrite h setting value x) s = .next (exhaustedResponse h 0x0A01 (burn k value.toNat false a))))) ∧
  (∀ (h : Hdr) (value : U64) (x : Ext) (s : State), Accepted (.ownerKeyChange h value x) s →
      let a := accept h s
      let key := Config.sha384 (le 97 (numAt (bulkBytes s value.toNat 200) 0 97 % 2 ^ 776))
      let b := destroyTenants (forEach ((a.gateh.sessions.filter (fun e => e.1 ≠ h.session)).map (·.1)) endSession a)
      (claimAddrOk h value.toNat a = true → x.pointOk = true → x.sigOk = true →
        (ownerHash s = some key → exec (.ownerKeyChange h value x) s = .next (okResponse h 0x0A01 [] a)) ∧
        (ownerHash s ≠ some key → (otpSlots s 1).length < 4 → x.readbackOk = true →
          exec (.ownerKeyChange h value x) s = .next (endSession h.session (okResponse h 0x0A01 [] (burn 1 key.toNat true b)))) ∧
        (ownerHash s ≠ some key → 4 ≤ (otpSlots s 1).length → exec (.ownerKeyChange h value x) s = .next (exhaustedResponse h 0x0A01 a)) ∧
        (ownerHash s ≠ some key → (otpSlots s 1).length < 3 → x.readbackOk = false → exec (.ownerKeyChange h value x) s =
          .next (failedResponse h 0x0A01 (fieldDiag 1 403 key.toNat) (burn 1 key.toNat false b))) ∧
        (ownerHash s ≠ some key → (otpSlots s 1).length = 3 → x.readbackOk = false →
          exec (.ownerKeyChange h value x) s = .next (exhaustedResponse h 0x0A01 (burn 1 key.toNat false b)))) ∧
      (claimAddrOk h value.toNat a = false ∨ x.pointOk = false ∨ x.sigOk = false →
        exec (.ownerKeyChange h value x) s = .next (failedResponse h 0x0A01 (fieldDiag 1 403 value.toNat) a)) ∧
      (∀ t : State, (destroyTenants t).gateh.keySlots = [] ∧ (destroyTenants t).gateh.residency = [] ∧ (destroyTenants t).hbm.regions = []))

/-- `owner.unseal` takes SEALED to BOOT with a record of this serial and seal count, and stores its ticket epoch; the first check that fails
answers and changes nothing (R378).
`debug.unlock` with a token of this serial and unlock count: fleet-operator and tenant sessions end, every window is freed, every slot key
goes, the unlock count advances, `S0_GEN` is to advance, and JTAG opens where `SCOPE` names it (R365, R379; log entry 60); a bad token answers and changes nothing.
`debug.uart.enable` sets the UART (R381).
SEALED: the job goes without a drain, fleet-operator and tenant sessions end, no slot key stays in the gatehouse, the seal count advances,
the cause is kept (R365, R377); a failure of the entropy source seals with cause 3, one of the key store with cause 4. -/
def Obligations.SealUnsealAndUnlock : Prop :=
  ((∀ (h : Hdr) (t : Token) (x : Ext) (s : State), Accepted (.ownerUnseal h t x) s →
      let a := accept h s
      (x.sigOk = true → t.serial ≠ 0#96 → t.serial = Config.serial → t.count = s.flash.sealCount → s.flash.ticketEpoch ≤ t.value →
        exec (.ownerUnseal h t x) s = .next (enterBoot 0x0206 (okResponse h 0x0206 [] (mapFlash (fun fl => { fl with ticketEpoch := t.value }) a)))) ∧
      (x.sigOk = false → exec (.ownerUnseal h t x) s = .next (unsignedResponse h 0x0206 (fieldDiag 3 378 0) a)) ∧
      (x.sigOk = true → t.serial = 0#96 ∨ t.serial ≠ Config.serial →
        exec (.ownerUnseal h t x) s = .next (failedResponse h 0x0206 (fieldDiag 0 378 t.serial.toNat) a)) ∧
      (x.sigOk = true → t.serial ≠ 0#96 → t.serial = Config.serial → t.count ≠ s.flash.sealCount →
        exec (.ownerUnseal h t x) s = .next (failedResponse h 0x0206 (fieldDiag 1 378 t.count) a)) ∧
      (x.sigOk = true → t.serial ≠ 0#96 → t.serial = Config.serial → t.count = s.flash.sealCount → t.value < s.flash.ticketEpoch →
        exec (.ownerUnseal h t x) s = .next (failedResponse h 0x0206 (fieldDiag 2 378 t.value) a))) ∧
  ((∀ (h : Hdr) (t : Token) (x : Ext) (s : State), TablesOrdered s → Accepted (.debugUnlock h t x) s →
      let a := accept h s
      (x.sigOk = true → t.serial ≠ 0#96 → t.serial = Config.serial → t.count = s.flash.unlockCount → ∃ u,
        exec (.debugUnlock h t x) s = .next (okResponse h 0x0C02 [] u) ∧ u.gateh.debugUnlocked = true ∧ u.gateh.jtagOpen = bit t.scope.toNat 0 ∧ u.gateh.keySlots = [] ∧
        (∀ e ∈ u.gateh.sessions, e.2.kind = 0) ∧ u.mesh.windows = [] ∧ u.flash.unlockCount = (s.flash.unlockCount + 1) % 2 ^ 32 ∧
        u.flash.s0Advance = true ∧ u.otp = s.otp ∧ u.pins = s.pins ∧ u.ctl.mode = s.ctl.mode) ∧
      (x.sigOk = false → exec (.debugUnlock h t x) s = .next (unsignedResponse h 0x0C02 (fieldDiag 4 379 0) a)) ∧
      (x.sigOk = true → t.serial = 0#96 ∨ t.serial ≠ Config.serial →
        exec (.debugUnlock h t x) s = .next (failedResponse h 0x0C02 (fieldDiag 0 379 t.serial.toNat) a)) ∧
      (x.sigOk = true → t.serial ≠ 0#96 → t.serial = Config.serial → t.count ≠ s.flash.unlockCount →
        exec (.debugUnlock h t x) s = .next (failedResponse h 0x0C02 (fieldDiag 1 379 t.count) a))) ∧
    (∀ (h : Hdr) (v : U64) (s : State), Accepted (.debugUartEnable h v) s →
      (v.toNat ≤ 1 → exec (.debugUartEnable h v) s =
        .next (okResponse h 0x0C03 [] (mapGate (fun g => { g with uart := decide (v.toNat = 1) }) (accept h s)))) ∧
      (1 < v.toNat → exec (.debugUartEnable h v) s = .next (failedResponse h 0x0C03 (fieldDiag 0 381 v.toNat) (accept h s)))))) ∧
  ((∀ (cause : Nat) (s : State), TablesOrdered s → s.ctl.mode ≠ .lodge → s.ctl.mode ≠ .sealed → let t := sealModule cause s
    t.ctl.mode = .sealed ∧ t.job.loaded = false ∧ t.gateh.keySlots = [] ∧ t.gateh.sealCause = cause ∧ t.gateh.handshakes = s.gateh.handshakes ∧
    (∀ e ∈ t.gateh.sessions, e.2.kind = 0) ∧ t.flash.sealCount = (s.flash.sealCount + 1) % 2 ^ 32 ∧ t.pins = s.pins ∧ t.otp = s.otp ∧
    t.ctl.localTime = s.ctl.localTime) ∧
  (∀ s, exec .entropyHealthFail s = .next (sealModule 3 s)) ∧
  (∀ s, exec .keyStoreFail s = .next (sealModule 4 s)) ∧
  (∀ h s, Accepted (.ownerSeal h) s → exec (.ownerSeal h) s = .next (sealModule 2 (okResponse h 0x0205 [] (accept h s)))))

/-- A firmware image in staging memory that verifies goes to the slot that does not run (R370); one that does not, or that is none, is rejected with IMAGE_REJECTED
and SIGNATURE_FAILED; a bulk descriptor outside a staging region of the issuer fails (R309).
Test cadence (R439); a pattern pack that passes R445 is installed; one that
fails is rejected with IMAGE_REJECTED and leaves the installed pack (R445, R446, R447).
Pack relays (R447): a member checks a relayed pack itself, installs it where `test.pack.install` is legal and answers the root with its status;
the root marks the member as installed, retried or refused; a pending relay is sent again, and abandoned after 1 h. -/
def Obligations.InstalledImages : Prop :=
  (∀ (h : Hdr) (b : Bulk) (x : Ext) (s : State), Accepted (.moduleFirmwareInstall h b x) s →
      let a := accept h s
      (∀ v, bulkOk h b a = true → x.fw = some v → let i := fwImage (bulkData b a) v; bootable s i = true →
        exec (.moduleFirmwareInstall h b x) s = .next (okResponse h 0x0105 [] (mapFlash (fun fl => { fl with
          slots := Tab.set fl.slots (1 - s.ctl.fwSlot) i, lastWritten := 1 - s.ctl.fwSlot }) a))) ∧
      (∀ v, bulkOk h b a = true → x.fw = some v → bootable s (fwImage (bulkData b a) v) = false → exec (.moduleFirmwareInstall h b x) s =
        .next (unsignedResponse h 0x0105 ⟨0x0A, 0, 0, 0x1FF, 0, 0, 0, 370, 0⟩ (noteRejected 0 v.securityVersion 0x0021 a))) ∧
      (bulkOk h b a = true → x.fw = none → exec (.moduleFirmwareInstall h b x) s =
        .next (unsignedResponse h 0x0105 ⟨0x0A, 0, 0, 0x1FF, 0, 0, 0, 370, 0⟩ (noteRejected 0 0 0x0021 a))) ∧
      (bulkOk h b a = false → exec (.moduleFirmwareInstall h b x) s = .next (failedResponse h 0x0105 (bulkDiag b.addr.toNat) a))) ∧
  ((∀ h (v : U64) s, Accepted (.testCadenceSet h v) s → exec (.testCadenceSet h v) s =
      .next (clampResponse h 0x0801 [clampTo 1 v.toNat] [] (mapTest (fun t => { t with assurance := decide (v ≠ 0#64) }) (accept h s)))) ∧
    (∀ h b x s, Accepted (.testPackInstall h b x) s → bulkOk h b (accept h s) = true → let k := packAt (bulkData b (accept h s)) x.sigOk
      (packStatus s k = 0x0000 → ∃ t, exec (.testPackInstall h b x) s = .next (okResponse h 0x0800 [] t) ∧ t.flash.pack = some k ∧
        t.test.retracted = k.retraction ∧ (s.mesh.root = false → t = withRecords t (mapTest (fun v => { v with retracted := k.retraction })
          (mapFlash (fun fl => { fl with pack := some k }) (accept h s))))) ∧
      (packStatus s k = 0x0020 → ∃ rule value, exec (.testPackInstall h b x) s = .next (failedResponse h 0x0800
        ⟨0x0A, rule, 0, 0x1FF, 0, 0, 0, 445, value⟩ (noteRejected 1 k.version 0x0020 (accept h s)))) ∧
      (packStatus s k = 0x0021 → ∃ rule, exec (.testPackInstall h b x) s = .next (unsignedResponse h 0x0800
        ⟨0x0A, rule, 0, 0x1FF, 0, 0, 0, 445, 0⟩ (noteRejected 1 k.version 0x0021 (accept h s))))) ∧
    (∀ h b x s, Accepted (.testPackInstall h b x) s → bulkOk h b (accept h s) = false →
      exec (.testPackInstall h b x) s = .next (failedResponse h 0x0800 (bulkDiag b.addr.toNat) (accept h s)))) ∧
  ((∀ bs sigOk s0 own, let s := takeType 0x23 s0; let k := packAt bs sigOk; s.mesh.addr = some own → s.mesh.root = false →
      (s.ctl.mode ∈ active →
        exec (.packRelay bs sigOk) s0 = .next (sendCtl 0x23 (memberAddr s 0) [own.toNat % 64, packStatus s k] (takePack k s))) ∧
      (s.ctl.mode ∉ active → exec (.packRelay bs sigOk) s0 = .next (sendCtl 0x23 (memberAddr s 0) [own.toNat % 64, 0x0010] s))) ∧
    (∀ bs sigOk s, s.mesh.addr = none ∨ s.mesh.root = true → exec (.packRelay bs sigOk) s = .next (takeType 0x23 s)) ∧
    (∀ m st s r, Tab.find s.test.relays m = some r → r.state = 0 → exec (.packRelayAnswer m st) s = .next (mapTest (fun t => { t with
      relays := Tab.set t.relays m { r with status := st, state := if st = 0x0000 then 1 else if st = 0x0010 ∨ st = 0x0014 then 0 else 2 } })
        (takeType 0x23 s))) ∧
    (∀ m s r, Tab.find s.test.relays m = some r → r.state = 0 → s.mesh.root = true →
      ((s.ctl.localTime - r.first).toNat < 3600 * 25000000 →
        exec (.packRelayRetry m) s =
          .next (sendCtl 0x23 (memberAddr s m) (((s.flash.pack.map (·.bytes)).getD []).map (·.toNat)) s)) ∧
      (3600 * 25000000 ≤ (s.ctl.localTime - r.first).toNat →
        exec (.packRelayRetry m) s = .next (mapTest (fun t => { t with relays := Tab.set t.relays m { r with state := 3 } }) s))))

/-! ## Queries -/

/-- Requests that only read answer with their record and change nothing but the mailbox and the session's least `SEQ`: identity, plots, links,
mesh, time, job, test, warnings, power (whose peak starts again), the attestation report (which draws a fresh value).
Requests that read what a field names answer with the records from there on and change nothing else: regions and windows of the issuer, the
stack log, events, the summary, OTP, violations, margins (a port's lane counters are brought up to the reading, log entry 26), a queue, counters.
The state record: module state, DEGRADED with its causes, the fenced fields, FAST_START and the local time (R322); the identity record
begins with the part code and carries stepping, serial and mesh address (R342). -/
def Obligations.QueriesAnswer : Prop :=
  ((∀ h s, Accepted (.moduleIdentify h) s →
      exec (.moduleIdentify h) s = .next (okResponse h 0x0100 (identityBytes (accept h s)) (accept h s))) ∧
    (∀ h s, Accepted (.plotStatus h) s → exec (.plotStatus h) s = .next (okResponse h 0x0400
      ((List.range 8).flatMap (fun f => (List.range 64).flatMap (fun i => le 4 (remapWord s f i))) ++
        (List.range 8).flatMap (fun f => (List.range 32).flatMap (fun r => le 2 ((fieldOf s f).slideRow r).word))) (accept h s))) ∧
    (∀ h s, Accepted (.linkStatus h) s →
      exec (.linkStatus h) s = .next (okResponse h 0x0600 ((List.range 16).flatMap (portReport s)) (accept h s))) ∧
    (∀ h s, Accepted (.meshStatus h) s → exec (.meshStatus h) s = .next (okResponse h 0x0701 (meshStatusBytes s) (accept h s))) ∧
    (∀ h s, Accepted (.meshTimeRead h) s →
      exec (.meshTimeRead h) s = .next (okResponse h 0x0703 ((List.range 16).flatMap (timeRecord s)) (accept h s))) ∧
    (∀ h v s, Accepted (.jobStatus h v) s → exec (.jobStatus h v) s =
      .next (okResponse h 0x0304 (jobStatusBytes (issuerKind h s = 2) (bits v.toNat 0 9) s) (accept h s))) ∧
    (∀ h s, Accepted (.testStatus h) s → ∃ tail, exec (.testStatus h) s =
      .next (okResponse h 0x0802 (lay [(4, installedVersion s), (4, pack [(1, flag s.test.assurance), (1, flag s.test.retracted)]),
        (48, (s.flash.pack.map (fun k => (Config.sha384 k.bytes).toNat)).getD 0), (8, (if s.mesh.root then s.test.relays else []).length)]
        ++ (List.range 8).flatMap (testFieldRecord s) ++ tail) (accept h s))) ∧
    (∀ h s, Accepted (.healthWarnings h) s → exec (.healthWarnings h) s = .next (okResponse h 0x0904
      (le 8 s.health.length ++ s.health.flatMap (fun w => le 1 w.kind ++ le 1 (w.srcKind % 16) ++ le 2 w.object ++ le 4 (toBits 32 w.value) ++
        le 4 (toBits 32 w.threshold) ++ le 4 0 ++ le 8 w.first.toNat ++ le 8 w.last.toNat)) (accept h s))) ∧
    (∀ h s, Accepted (.powerStatus h) s → exec (.powerStatus h) s =
      .next (okResponse h 0x0B02 (powerBytes s) (mapPwr (fun w => { w with peakW := w.powerW }) (accept h s)))) ∧
    (∀ h nonce s, Accepted (.attestReport h nonce) s → exec (.attestReport h nonce) s =
      .next (okResponse h 0x0202 (attestBytes nonce (accept h s)) (drawFree (accept h s))))) ∧
  ((∀ h (v : U64) s, Accepted (.memoryRegionList h v) s → v.toNat ≤ 1023 → exec (.memoryRegionList h v) s =
      .next (okResponse h 0x0503 (listReply ((s.hbm.regions.filter (fun e => decide (v.toNat ≤ e.1) && e.2.owner = issuerHash h (accept h s))).map
        (fun e => (e.1, e.2.report e.1))) 1024) (accept h s))) ∧
    (∀ h (v : U64) s, Accepted (.windowList h v) s → v.toNat ≤ 4095 → exec (.windowList h v) s =
      .next (okResponse h 0x0706 (listReply ((s.mesh.windows.filter (fun e => decide (v.toNat ≤ e.1) && e.2.owner = issuerHash h (accept h s))).map
        (fun e => (e.1, e.2.report e.1))) 4096) (accept h s))) ∧
    (∀ h (f a n : U64) s, Accepted (.healthLogRead h f a n) s → f.toNat ≤ 7 → exec (.healthLogRead h f a n) s =
      .next (clampResponse h 0x0901 [⟨f.toNat, false⟩, clampTo 4095 a.toNat, clampNear 1 127 n.toNat]
        ((((fieldOf s f.toNat).log.drop (clampTo 4095 a.toNat).value).take (clampNear 1 127 n.toNat).value).flatMap LogRec.bytes) (accept h s))) ∧
    (∀ h (a n : U64) s, Accepted (.healthEventsRead h a n) s →
      let oldest := (s.evt.ring.head?.map (·.1)).getD s.evt.next
      let c := clampNear oldest s.evt.next a.toNat
      let d := clampNear 1 127 n.toNat
      exec (.healthEventsRead h a n) s = .next (clampResponse h 0x0902 [c, d]
        (eventReply s.evt.ring c.value d.value oldest s.evt.next (issuerKind h (accept h s)) (issuerHash h (accept h s))) (accept h s))) ∧
    (∀ h (v : U64) s, Accepted (.healthSummaryRead h v) s →
      let start := bits v.toNat 8 40
      (v.toNat % 256 = 0 → let all := s.flash.sumCounts.filter (fun e => decide (start ≤ e.1))
        exec (.healthSummaryRead h v) s = .next (okResponse h 0x0903
          (lay [(8, ((all.take 254).head?.map (·.1)).getD start), (8, ((all.drop 254).head?.map (·.1)).getD 65536), (8, 0), (8, (all.take 254).length)]
            ++ (all.take 254).flatMap (fun e => lay [(8, e.1), (8, e.2)])) (accept h s))) ∧
      (v.toNat % 256 = 1 → exec (.healthSummaryRead h v) s = .next (okResponse h 0x0903
        (eventReply s.flash.sumKept start 127 ((s.flash.sumKept.head?.map (·.1)).getD s.flash.sumNext) s.flash.sumNext
          (issuerKind h (accept h s)) (issuerHash h (accept h s))) (accept h s)))) ∧
    (∀ h (v : U64) s, Accepted (.otpRead h v) s →
      (1 ≤ v.toNat % 256 ∧ v.toNat % 256 ≤ 6) ∨ (0x10 ≤ v.toNat % 256 ∧ v.toNat % 256 ≤ 0x17) →
      exec (.otpRead h v) s = .next (okResponse h 0x0A00 (otpReadBytes s (v.toNat % 256)) (accept h s))) ∧
    (∀ h (v : U64) s, Accepted (.ownerViolationsRead h v) s → v.toNat % 256 ≤ 2 →
      let t := if v.toNat % 256 = 0 then s.gateh.vModule else if v.toNat % 256 = 1 then s.gateh.vRegion else s.gateh.vWindow
      let l := (t.filter (fun e => decide (bits v.toNat 8 24 ≤ e.1))).take 127
      exec (.ownerViolationsRead h v) s =
        .next (okResponse h 0x0204 (lay [(8, l.length), (24, 0)] ++ l.flatMap (fun e => violationRecord e.1 e.2)) (accept h s))) ∧
    (∀ h (v : U64) s, Accepted (.healthMargins h v) s →
      (v.toNat % 256 = 0 → v.toNat / 256 % 256 < 16 →
        let n := v.toNat / 256 % 256
        let a := countLanes n (accept h s)
        exec (.healthMargins h v) s = .next (okResponse h 0x0900 (portMargins a n) (drawFree a))) ∧
      (v.toNat % 256 = 1 → v.toNat / 256 % 256 < 8 →
        let n := v.toNat / 256 % 256
        exec (.healthMargins h v) s = .next (okResponse h 0x0900 ((List.range 4).flatMap (fun k => stackMargins (accept h s) (4 * n + k)) ++
          (List.range 64).flatMap (plotMargins (accept h s) n)) (accept h s)))) ∧
    (∀ h (v : U64) s b, Accepted (.debugQueueView h v) s → ownJob h (accept h s) = true → queueView (accept h s) (v.toNat % 256) (v.toNat / 256 % 2 ^ 24) = some b →
      exec (.debugQueueView h v) s = .next (okResponse h 0x0C00 b (accept h s))) ∧
    (∀ h (v : U64) s l, Accepted (.debugCountersRead h v) s → ownJob h (accept h s) = true → scopeCounters (accept h s) (v.toNat % 256) (v.toNat / 256 % 2 ^ 24) = some l →
      exec (.debugCountersRead h v) s = .next (okResponse h 0x0C01 (l.flatMap (le 8)) (accept h s)))) ∧
  ((∀ s : State, (stateBytes s).length = 16 ∧ numAt (stateBytes s) 0 1 = s.ctl.mode.code + 16 * flag (degraded s) ∧
      numAt (stateBytes s) 1 1 = degCauses s ∧ numAt (stateBytes s) 4 4 = fencedMask s + 256 * flag (s.ctl.fastStart && decide (s.ctl.coldReason = 0)) ∧
      numAt (stateBytes s) 8 8 = s.ctl.localTime.toNat) ∧
    (∀ s : State, (degraded s = true ↔ degCauses s ≠ 0) ∧ degCauses s < 16 ∧
      (bit (degCauses s) 0 = true ↔ ∃ e ∈ s.links, e.2.pstate = 1 ∨ (e.2.pstate = 2 ∧ e.2.reason ≠ 1)) ∧
      (bit (degCauses s) 1 = true ↔ ∃ e ∈ s.bridges, e.2 = true) ∧
      (bit (degCauses s) 2 = true ↔ ∃ e ∈ s.flds, e.2.fenced = true) ∧
      (bit (degCauses s) 3 = true ↔ ∃ e ∈ s.flds, e.2.fenced = false ∧ e.2.remap ≠ [] ∧ e.2.mappedCount < policyPlots s.ctl.policyFull)) ∧
    (∀ (s : State) (i : Nat), ((portOf s i).exchange = none → timeRecord s i = List.replicate 32 0#8) ∧
      (∀ a b c d, (portOf s i).exchange = some (a, b, c, d) → timeRecord s i = le 8 a.toNat ++ le 8 b.toNat ++ le 8 c.toNat ++ le 8 d.toNat)) ∧
    (∀ s : State, (identityBytes s).length = 48 ∧ numAt (identityBytes s) 0 8 = 0x003054322D385341 ∧ numAt (identityBytes s) 8 2 = 0x00B0 ∧
      numAt (identityBytes s) 16 12 = Config.serial.toNat ∧ numAt (identityBytes s) 28 2 = (s.mesh.addr.getD 0#16).toNat))

/-- A field that names nothing, or nothing of the issuer's, fails: VERIFY_FAILED with its diagnostic, and nothing executes (R316, R318). -/
def Obligations.FailedFieldExecutesNothing : Prop :=
  ∀ (h : Hdr) (v w z : U64) (s : State),
    let a := accept h s
    (Accepted (.memoryRegionList h v) s → 1023 < v.toNat → exec (.memoryRegionList h v) s = .next (failedResponse h 0x0503 (fieldDiag 0 334 v.toNat) a)) ∧
    (Accepted (.windowList h v) s → 4095 < v.toNat → exec (.windowList h v) s = .next (failedResponse h 0x0706 (fieldDiag 0 334 v.toNat) a)) ∧
    (Accepted (.healthLogRead h v w z) s → 7 < v.toNat →
      exec (.healthLogRead h v w z) s = .next (failedResponse h 0x0901 (fieldDiag 0 324 v.toNat) a)) ∧
    (Accepted (.healthSummaryRead h v) s → 1 < v.toNat % 256 →
      exec (.healthSummaryRead h v) s = .next (failedResponse h 0x0903 (fieldDiag 0 341 (v.toNat % 256)) a)) ∧
    (Accepted (.otpRead h v) s → v.toNat % 256 = 0 ∨ (6 < v.toNat % 256 ∧ v.toNat % 256 < 0x10) ∨ 0x17 < v.toNat % 256 →
      exec (.otpRead h v) s = .next (failedResponse h 0x0A00 (fieldDiag 0 340 (v.toNat % 256)) a)) ∧
    (Accepted (.ownerViolationsRead h v) s → 2 < v.toNat % 256 →
      exec (.ownerViolationsRead h v) s = .next (failedResponse h 0x0204 (fieldDiag 0 383 (v.toNat % 256)) a)) ∧
    (Accepted (.healthMargins h v) s → 1 < v.toNat % 256 ∨ (v.toNat % 256 = 0 ∧ 16 ≤ v.toNat / 256 % 256) ∨
      (v.toNat % 256 = 1 ∧ 8 ≤ v.toNat / 256 % 256) →
      exec (.healthMargins h v) s = .next (failedResponse h 0x0900 (fieldDiag 0 449 v.toNat) a)) ∧
    (Accepted (.debugQueueView h v) s → ownJob h a = false ∨ queueView a (v.toNat % 256) (v.toNat / 256 % 2 ^ 24) = none →
      exec (.debugQueueView h v) s = .next (failedResponse h 0x0C00 (fieldDiag 0 333 v.toNat) a)) ∧
    (Accepted (.debugCountersRead h v) s → ownJob h a = false ∨ scopeCounters a (v.toNat % 256) (v.toNat / 256 % 2 ^ 24) = none →
      exec (.debugCountersRead h v) s = .next (failedResponse h 0x0C01 (fieldDiag 0 325 v.toNat) a)) ∧
    (Accepted (.memoryRegionClear h v) s → ownRegion h v.toNat a = none →
      exec (.memoryRegionClear h v) s = .next (failedResponse h 0x0501 (fieldDiag 0 316 v.toNat) a)) ∧
    (Accepted (.memoryRegionRelease h v) s → ownRegion h v.toNat a = none →
      exec (.memoryRegionRelease h v) s = .next (failedResponse h 0x0502 (fieldDiag 0 316 v.toNat) a)) ∧
    (Accepted (.memoryStagingMark h v) s → stagingRegion h v.toNat a = none →
      exec (.memoryStagingMark h v) s = .next (failedResponse h 0x0507 (fieldDiag 0 332 v.toNat) a)) ∧
    (Accepted (.memoryStagingUnmark h v) s → stagingRegion h v.toNat a = none →
      exec (.memoryStagingUnmark h v) s = .next (failedResponse h 0x0507 (fieldDiag 0 332 v.toNat) a)) ∧
    (Accepted (.memoryRepairRequest h v w) s → w.toNat % 256 ≠ 2 →
      exec (.memoryRepairRequest h v w) s = .next (failedResponse h 0x0505 (fieldDiag 1 324 w.toNat) a)) ∧
    (Accepted (.windowClose h v) s → ownWindow h (windowId v) a = none →
      exec (.windowClose h v) s = .next (failedResponse h 0x0705 (fieldDiag 0 316 v.toNat) a)) ∧
    (Accepted (.windowFree h v) s → ownWindow h (windowId v) a = none →
      exec (.windowFree h v) s = .next (failedResponse h 0x0705 (fieldDiag 0 316 v.toNat) a)) ∧
    (Accepted (.plotPin h v) s → (fieldOf s (fieldOfPlot v.toNat)).fenceDue.head? ≠ some (.plot v.toNat) → ownPlot h v.toNat a = false → exec (.plotPin h v) s = .next (failedResponse h 0x0402 (fieldDiag 0 23 v.toNat) a)) ∧
    (Accepted (.plotUnpin h v) s → (fieldOf s (fieldOfPlot v.toNat)).fenceDue.head? ≠ some (.plot v.toNat) → ownPlot h v.toNat a = false →
      exec (.plotUnpin h v) s = .next (failedResponse h 0x0403 (fieldDiag 0 23 v.toNat) a)) ∧
    (Accepted (.plotFence h v) s → (fieldOf s (fieldOfPlot v.toNat)).fenceDue.head? ≠ some (.plot v.toNat) → assignable s v.toNat = false →
      exec (.plotFence h v) s = .next (failedResponse h 0x0404 (fieldDiag 0 424 v.toNat) a))

/-! ## Power -/

/-- The power limit is clamped to 1,500 W to C, the clock mode to 2 and the pin to 1 (R458, R465, R466, R324); the settings are stored at once.
One interval of the governor (R459, R460, R461): over the limit the clock falls by 50 MHz, never below 1,000 MHz, where issue throttling tightens
instead; under 97 % of the limit for 100 intervals throttling is relaxed first, then the clock rises towards its target; nothing else of the module
changes but the figures of the measurement and event records. Power is measured also where the governor does not act: the mean of the last ten intervals, its
peak, and 100 µs more of lowered time when a field runs lowered at the interval's end (R459, R468; log entry 27).
The thermal loops (R463): a clocked field above 100 °C steps its clock down by 50 MHz and keeps stepping until it reads below 97 °C, then up; a sensor
above its trip limit asserts ALERT and takes the module to LODGE with the event kept for the next BOOT.
The droop guard of a field: a stretch is counted once and starts now; its release ends it and counts its time (R462, R468). An episode of pressure ends when no loop
holds a live field below the pinned clock (R465).
Sleep of a plot (R455, R456): an idle plot stops its clock, a stopped idle plot is gated, a plot with work stays, a wake trigger wakes a
sleeping plot, a waking plot becomes ACTIVE. -/
def Obligations.PowerAndThermalLoops : Prop :=
  ((∀ h (limit : U64) s, Accepted (.powerLimitSet h limit) s →
      let c := clampNear 1500 s.pwr.ceiling limit.toNat
      exec (.powerLimitSet h limit) s = .next (clampResponse h 0x0B00 [c] [] (mapPwr (fun w => { w with limitSet := c.value }) (accept h s)))) ∧
    (∀ h (mode pin : U64) s, Accepted (.powerClockSet h mode pin) s →
      ∃ t, exec (.powerClockSet h mode pin) s = .next (clampResponse h 0x0B01 [clampTo 2 mode.toNat, clampTo 1 pin.toNat] [] t) ∧
        t.pwr.clockMode = min 2 mode.toNat ∧ t.pwr.pin = decide (pin ≠ 0#64) ∧ (pin = 0#64 → t.pwr.pressure = false) ∧
        t = withRecords t (mapPwr (fun w => { w with clockMode := min 2 mode.toNat, pin := decide (pin ≠ 0#64), pressure := t.pwr.pressure }) (accept h s)))) ∧
  (∀ (w : Nat) (s : State), s.ctl.mode = .lodge → exec (.governorInterval w) s = .next s) ∧
  (∀ (w : Nat) (s : State), s.ctl.mode ≠ .lodge → ∃ t, exec (.governorInterval w) s = .next t ∧
      t.pwr.recent = (w :: s.pwr.recent).take 10 ∧ t.pwr.powerW = t.pwr.recent.sum / t.pwr.recent.length ∧
      t.pwr.peakW = max s.pwr.peakW t.pwr.powerW ∧ t.pwr.intervalAt = s.ctl.localTime ∧
      ((∃ f, f < 8 ∧ fieldClocked s f = true ∧ (fieldMhz t f < targetMhz s ∨ (clockOf s f).droop.isSome = true)) →
        t.pwr.loweredUs = satAdd 64 s.pwr.loweredUs 100) ∧
      ((∀ f, f < 8 → fieldClocked s f = true → targetMhz s ≤ fieldMhz t f ∧ (clockOf s f).droop = none) → t.pwr.loweredUs = s.pwr.loweredUs) ∧
      (governs s = false → t.pwr.govMhz = s.pwr.govMhz ∧ t.pwr.throttle16 = s.pwr.throttle16 ∧ t.pwr.calm = s.pwr.calm) ∧
      (governs s = true →
      (limitInForce s < w → 1000 < s.pwr.govMhz → t.pwr.govMhz = s.pwr.govMhz - 50 ∧ t.pwr.throttle16 = s.pwr.throttle16) ∧
      (limitInForce s < w → s.pwr.govMhz ≤ 1000 → t.pwr.govMhz = s.pwr.govMhz ∧ t.pwr.throttle16 = min 15 (s.pwr.throttle16 + 1)) ∧
      (w ≤ limitInForce s → targetMhz s < s.pwr.govMhz → t.pwr.govMhz = s.pwr.govMhz - 50 ∧ t.pwr.throttle16 = s.pwr.throttle16) ∧
      (w ≤ limitInForce s → 97 * limitInForce s ≤ 100 * w → s.pwr.govMhz ≤ targetMhz s →
        t.pwr.govMhz = s.pwr.govMhz ∧ t.pwr.throttle16 = s.pwr.throttle16 ∧ t.pwr.calm = 0) ∧
      (100 * w < 97 * limitInForce s → w ≤ limitInForce s → s.pwr.govMhz ≤ targetMhz s →
        s.pwr.calm < 99 ∨ (s.pwr.throttle16 = 0 ∧ s.pwr.govMhz = targetMhz s) →
        t.pwr.govMhz = s.pwr.govMhz ∧ t.pwr.throttle16 = s.pwr.throttle16 ∧ t.pwr.calm = s.pwr.calm + 1) ∧
      (100 * w < 97 * limitInForce s → w ≤ limitInForce s → 99 ≤ s.pwr.calm → 0 < s.pwr.throttle16 → s.pwr.govMhz ≤ targetMhz s →
        t.pwr.throttle16 = s.pwr.throttle16 - 1 ∧ t.pwr.govMhz = s.pwr.govMhz) ∧
      (100 * w < 97 * limitInForce s → w ≤ limitInForce s → 99 ≤ s.pwr.calm → s.pwr.throttle16 = 0 → s.pwr.govMhz < targetMhz s →
        t.pwr.govMhz = min (targetMhz s) (s.pwr.govMhz + 50) ∧ t.pwr.throttle16 = 0)) ∧
      t = withRecords t { s with pwr := t.pwr } ∧
      t.pwr.limitSet = s.pwr.limitSet ∧ t.pwr.ceiling = s.pwr.ceiling ∧ t.pwr.supplyCap = s.pwr.supplyCap ∧ t.pwr.clockMode = s.pwr.clockMode ∧
      t.pwr.pin = s.pwr.pin ∧ t.pwr.clocks = s.pwr.clocks ∧ t.pwr.droopStretches = s.pwr.droopStretches) ∧
  ((∀ (f : Nat) (t : Int) (s : State), s.ctl.mode = .lodge ∨ s.ctl.mode = .boot ∨ fieldClocked s f = false → exec (.thermalThrottleStep f t) s = .next s) ∧
    (∀ (f : Nat) (t : Int) (s : State), s.ctl.mode ≠ .lodge → s.ctl.mode ≠ .boot → fieldClocked s f = true → ∃ u, exec (.thermalThrottleStep f t) s = .next u ∧
      (1000 < t ∨ ((clockOf s f).hot = true ∧ 970 ≤ t) →
        clockOf u f = { clockOf s f with hot := true, tempTenths := t, heldMhz := max 1000 (min (clockOf s f).heldMhz (moduleMhz s) - 50) }) ∧
      (t ≤ 1000 → (clockOf s f).hot = false ∨ t < 970 →
        clockOf u f = { clockOf s f with hot := false, tempTenths := t, heldMhz := if (clockOf s f).heldMhz + 50 < moduleMhz s then (clockOf s f).heldMhz + 50 else 2400 }) ∧
      (∀ g, g ≠ f → clockOf u g = clockOf s g) ∧
      u = withRecords u { s with pwr := { s.pwr with clocks := u.pwr.clocks, pressure := u.pwr.pressure } }) ∧
    (∀ (n : Nat) (t : Int) (s : State), s.ctl.mode ≠ .lodge → tripLimit n < t → ∃ u e, exec (.thermalTrip n t) s = .next u ∧ u.ctl.mode = .lodge ∧
      u.ctl.tripAlert = true ∧ u.ctl.tripPending = some e ∧ e.code = 0x0602 ∧ e.time = s.ctl.localTime ∧ u.hbm.data = [] ∧ u.gateh.sessions = []) ∧
    (∀ (n : Nat) (t : Int) (s : State), s.ctl.mode = .lodge ∨ t ≤ tripLimit n → exec (.thermalTrip n t) s = .next s)) ∧
  ((∀ f s, s.ctl.mode ≠ .lodge → (fieldOf s f).fenced = false → (clockOf s f).droop = none →
      exec (.droopStretch f) s = .next (mapPwr (fun w => { w with droopStretches := satInc 64 w.droopStretches })
        (updClock f (fun c => { c with droop := some s.ctl.localTime }) s))) ∧
    (∀ f s, ∃ t, exec (.droopRelease f) s = .next t ∧ (clockOf t f) = { clockOf s f with droop := none } ∧ (∀ g, g ≠ f → clockOf t g = clockOf s g) ∧
      t.pwr.loweredUs = satAdd 64 s.pwr.loweredUs (droopUs s f) ∧ (longDroop s f = false → t.pwr.pressure = s.pwr.pressure ∧ t.evt = s.evt) ∧
      t = withRecords t { s with pwr := { s.pwr with clocks := t.pwr.clocks, pressure := t.pwr.pressure, loweredUs := t.pwr.loweredUs } }) ∧
    (∀ s, s.pwr.pressure = true → (∀ f, f < 8 → fieldClocked s f = true → loopLowers s (targetMhz s) f = false) →
      exec .pressureEpisodeEnd s = .next (mapPwr (fun w => { w with pressure := false }) s)) ∧
    (∀ s, s.pwr.pressure = false ∨ (∃ f, f < 8 ∧ fieldClocked s f = true ∧ loopLowers s (targetMhz s) f = true) →
      exec .pressureEpisodeEnd s = .next s) ∧
    (∀ (s : State) (c f : Nat), loopLowers s c f = true ↔
      moduleMhz s < c ∨ (clockOf s f).heldMhz < c ∨ 0 < s.pwr.throttle16 ∨ ∃ t, (clockOf s f).droop = some t ∧ 25000 ≤ (s.ctl.localTime - t).toNat)) ∧
  ((∀ p s, (plotOf s p).sleep = 0 → plotIdle s p = true → exec (.plotGate p) s = .next (updPlot p (fun pl => { pl with sleep := 1 }) s)) ∧
    (∀ p s, (plotOf s p).sleep = 1 → plotIdle s p = true → exec (.plotGate p) s = .next (updPlot p (fun pl => { pl with sleep := 2 }) s)) ∧
    (∀ p s, plotIdle s p = false ∨ 2 ≤ (plotOf s p).sleep → exec (.plotGate p) s = .next s) ∧
    (∀ p s, (plotOf s p).sleep = 3 → exec (.plotWakeComplete p) s = .next (updPlot p (fun pl => { pl with sleep := 0 }) s)) ∧
    (∀ p s, (plotOf s p).sleep ≠ 3 → exec (.plotWakeComplete p) s = .next s) ∧
    (∀ p s, ((plotOf s p).sleep = 1 ∨ (plotOf s p).sleep = 2 → wakePlot p s = updPlot p (fun pl => { pl with sleep := 3 }) s) ∧
      ((plotOf s p).sleep ≠ 1 → (plotOf s p).sleep ≠ 2 → wakePlot p s = s)))

/-! ## Memory commands and windows -/

/-- `memory.region.define`: a record that breaks no rule of R208 and R209 is placed under a free number with the issuer as its owner, its size
rounded up to a whole stripe, its key slot taken, a resident one's also in the residency store (R208 to R212, R226, R351); a broken rule fails
with its word, a principal over its quota or a full memory has no room. Number and place are the module's choice (log entry 1).
What a definition stores: the region, its key slot, a resident one's residency record, the slot in the caches of the stack controllers on whose
stacks it has blocks (R226); nothing else but the violation counter of a number used again (R383). A size is rounded up to its stripe of 120, 960 or 2 units (R209, R210).
A defined region reports as lost the fields that are fenced already and hold blocks of it (R208, R238). A new key slot gets a key from entropy; one in use keeps
its own (R348, R350). The controllers' caches hold the keys of the slots in use on their stacks (R226).
A clear leaves the region ACTIVE with no lost field, no map bit, no byte and no mark in its granules; a release takes the region away, and its
key slot with the last region that uses it, from the caches of the controllers too, its residency record with the last resident one (R224, R226, R227, R351); the granules of a fenced field, which cannot be
reached, owe a pending clear (R228). A region that is not the issuer's fails elsewhere. -/
def Obligations.RegionsDefineClearRelease : Prop :=
  ((∀ (h : Hdr) (w : Rec4) (x : Ext) (s : State), Accepted (.memoryRegionDefine h w x) s →
      let a := accept h s
      let c := clampStripe (regionInput w)
      let r : Region := { regionInput w with size := c.value, owner := issuerHash h a, session := h.session }
      (∀ id st, regionFault a w r (issuerHash h a) false = none →
        overQuota a r (issuerHash h a) (issuerKind h a) (((issuer h a).map (·.quota)).getD 0) = false →
        pickRegionId s.hbm.regions x.picks.head? = some id → placeRegion s.hbm.regions r (x.picks.drop 1).head? = some st →
        exec (.memoryRegionDefine h w x) s = .next (clampResponse h 0x0500 [c] [] (defineRegion id { r with start := st } a))) ∧
      (∀ e, regionFault a w r (issuerHash h a) false = some e →
        exec (.memoryRegionDefine h w x) s = .next (failedResponse h 0x0500 (fieldDiag e.1 e.2.1 e.2.2) a)) ∧
      (regionFault a w r (issuerHash h a) false = none →
        overQuota a r (issuerHash h a) (issuerKind h a) (((issuer h a).map (·.quota)).getD 0) = true ∨
        pickRegionId s.hbm.regions x.picks.head? = none ∨ placeRegion s.hbm.regions r (x.picks.drop 1).head? = none →
        exec (.memoryRegionDefine h w x) s = .next (exhaustedResponse h 0x0500 a))) ∧
  ((∀ (id : Nat) (r : Region) (s : State), let t := defineRegion id r s
      let slot : KeySlot := (Tab.find s.gateh.keySlots r.keySlot).getD ⟨r.owner, Config.entropy256 s.free ++ Config.entropy256 (s.free + 1)⟩
      (∃ l : BitVec 8, regionOf t id = some { r with lost := l } ∧
        ∀ f, f < 8 → (bit l.toNat f = true ↔ r.usesField f = true ∧ (fieldOf s f).fenced = true)) ∧
      (∀ k, k ≠ id → regionOf t k = regionOf s k) ∧
      Tab.find t.gateh.keySlots r.keySlot = some slot ∧ (∀ k, k ≠ r.keySlot → Tab.find t.gateh.keySlots k = Tab.find s.gateh.keySlots k) ∧
      (r.resident = true → Tab.find t.gateh.residency r.keySlot = some slot ∧
        ∀ k, k ≠ r.keySlot → Tab.find t.gateh.residency k = Tab.find s.gateh.residency k) ∧
      (r.resident = false → t.gateh.residency = s.gateh.residency) ∧
      (∀ k, k < 32 → stackOf t k = { stackOf s k with
        keys := if (fieldOf s (k / 4)).fenced then [] else (slotsOn t.hbm.regions k).map (fun n => (n, slotKey t n)) }) ∧
      t = { s with free := s.free + 2, hbm := { s.hbm with regions := t.hbm.regions, stks := t.hbm.stks },
                   gateh := { s.gateh with keySlots := t.gateh.keySlots, residency := t.gateh.residency, vRegion := t.gateh.vRegion } }) ∧
    (∀ r : Region, (clampStripe r).value % stripeOf r.interleave = 0 ∧ r.size ≤ (clampStripe r).value ∧
      (clampStripe r).value < r.size + stripeOf r.interleave ∧ ((clampStripe r).clamped = true ↔ r.size % stripeOf r.interleave ≠ 0)))) ∧
  ((∀ h (v : U64) s r, Accepted (.memoryRegionClear h v) s → ownRegion h v.toNat (accept h s) = some r →
    exec (.memoryRegionClear h v) s = .next (okResponse h 0x0501 [] (clearRegion v.toNat (accept h s)))) ∧
  (∀ h (v : U64) s r, Accepted (.memoryRegionRelease h v) s → ownRegion h v.toNat (accept h s) = some r →
    exec (.memoryRegionRelease h v) s = .next (okResponse h 0x0502 [] (teardownRegion v.toNat (accept h s)))) ∧
  (∀ id s r, regionOf s id = some r → let t := clearRegion id s
    regionOf t id = some { r with state := 0, lost := 0#8 } ∧ (∀ k, k ≠ id → regionOf t k = regionOf s k) ∧
    (∀ x, r.holdsGranule (granuleOf x) = true → (fieldOf s (granuleOf x / 2 ^ 20 / 4)).fenced = false →
      Mem.get t.hbm.data x = 0#8 ∧ t.hbm.isWritten (granuleOf x) = false ∧ t.hbm.isMarked x = false) ∧
    (∀ f, f < 8 → r.usesField f = true → (fieldOf s f).fenced = true → (f, r) ∈ t.flash.pendingClears) ∧
    t.gateh.keySlots = s.gateh.keySlots ∧ t.otp = s.otp ∧ t.pins = s.pins ∧ t.ctl = s.ctl) ∧
  (∀ id s r, TablesOrdered s → regionOf s id = some r → let t := teardownRegion id s
    regionOf t id = none ∧ (∀ k, k ≠ id → regionOf t k = regionOf s k) ∧
    (∀ x, r.holdsGranule (granuleOf x) = true → (fieldOf s (granuleOf x / 2 ^ 20 / 4)).fenced = false →
      Mem.get t.hbm.data x = 0#8 ∧ t.hbm.isWritten (granuleOf x) = false ∧ t.hbm.isMarked x = false) ∧
    (∀ f, f < 8 → r.usesField f = true → (fieldOf s f).fenced = true → (f, r) ∈ t.flash.pendingClears) ∧
    (∀ k, k < 32 → (stackOf t k).keys =
      if (fieldOf s (k / 4)).fenced then [] else (slotsOn t.hbm.regions k).map (fun n => (n, slotKey t n))) ∧
    (t.hbm.regions.any (fun e => e.2.keySlot = r.keySlot) = true → t.gateh.keySlots = s.gateh.keySlots) ∧
    (t.hbm.regions.any (fun e => e.2.keySlot = r.keySlot) = false → t.gateh.keySlots = Tab.erase s.gateh.keySlots r.keySlot) ∧
    (t.hbm.regions.any (fun e => e.2.keySlot = r.keySlot && e.2.resident) = true → t.gateh.residency = s.gateh.residency) ∧
    (t.hbm.regions.any (fun e => e.2.keySlot = r.keySlot && e.2.resident) = false → t.gateh.residency = Tab.erase s.gateh.residency r.keySlot) ∧
    t.otp = s.otp ∧ t.pins = s.pins ∧ t.ctl = s.ctl))

/-- Retirement of a page takes the next free spare of its pseudo-channel, which is never free again, of a bank the spare bank; both stand in the signed
record area and in the stack log, and a word whose copy does not decode is marked; a repair request queues one row, at most 16 for a stack, and one that is queued already adds nothing (R205, R234 to R236).
The scrub intervals are clamped to 1 to 168 h (R229, R324). A staging mark stands on an ACTIVE region of the issuer that is no ARCHIVE region, at
most four for one principal; a mark that stands adds nothing, and unmarking clears it (R309, R332). -/
def Obligations.MemoryMaintenance : Prop :=
  ((∀ h (a : RetireArgs) s sp, Accepted (.memoryRetirePage h a) s → let l := memLoc a.loc
      l.channel ≠ 15 → l.bank ≠ 63 → l.page < 515584 → nextSpare s.hbm l.pcIndex = some sp → ∃ t,
        exec (.memoryRetirePage h a) s = .next (okResponse h 0x0504 [] t) ∧ presentPage t.hbm l.pcIndex l.page = sp ∧
        t.flash.retiredPages = t.hbm.pages ∧ t.hbm.sparesGone = s.hbm.sparesGone ++ [⟨l.pcIndex, sp⟩] ∧ t.flash.spent = t.hbm.sparesGone ∧
        t.hbm.data = s.hbm.data ∧ (∀ w ∈ s.hbm.poison, w ∈ t.hbm.poison) ∧ (a.errors = [] → t.hbm.poison = s.hbm.poison) ∧
        (∀ w e id r, a.errors = [(w, e)] → pcOfPhys (w * 64) = l.pcIndex → pageOfPhys (w * 64) = l.page →
          (if inSystemArea (w * 64) then systemWritten s (w * 64) else s.hbm.isWritten (granuleOf (w * 64))) = true →
          (fieldOf s (stackOfPhys (w * 64) / 4)).fenced = false → wordRegion s (w * 64) = some (id, r) →
          r.decodeWord s.hbm.poison (w * 64) e = .failed → w ∈ t.hbm.poison) ∧
        t.hbm.written = s.hbm.written ∧ t.hbm.regions = s.hbm.regions ∧ t.plots = s.plots ∧ t.mesh = s.mesh) ∧
    (∀ h (a : RetireArgs) s, Accepted (.memoryRetirePage h a) s → let l := memLoc a.loc
      l.channel = 15 ∨ l.bank = 63 ∨ 515584 ≤ l.page ∨ nextSpare s.hbm l.pcIndex = none →
        exec (.memoryRetirePage h a) s = .next (exhaustedResponse h 0x0504 (accept h s))) ∧
    (∀ h (a : RetireArgs) s, Accepted (.memoryRetireBank h a) s → let l := memLoc a.loc
      l.channel ≠ 15 → l.bank ≠ 63 → (∀ b ∈ s.hbm.banks, b.pc ≠ l.pcIndex) → ∃ t,
        exec (.memoryRetireBank h a) s = .next (okResponse h 0x0504 [] t) ∧ t.hbm.banks = s.hbm.banks ++ [⟨l.pcIndex, l.bank⟩] ∧
        t.flash.retiredBanks = t.hbm.banks ∧ t.hbm.data = s.hbm.data ∧ (∀ w ∈ s.hbm.poison, w ∈ t.hbm.poison) ∧
        (a.errors = [] → t.hbm.poison = s.hbm.poison) ∧ t.hbm.regions = s.hbm.regions ∧ t.plots = s.plots ∧ t.mesh = s.mesh) ∧
    (∀ h (a : RetireArgs) s, Accepted (.memoryRetireBank h a) s → let l := memLoc a.loc
      l.channel = 15 ∨ l.bank = 63 ∨ (∃ b ∈ s.hbm.banks, b.pc = l.pcIndex) →
        exec (.memoryRetireBank h a) s = .next (exhaustedResponse h 0x0504 (accept h s))) ∧
    (∀ h (loc kind : U64) s, Accepted (.memoryRepairRequest h loc kind) s → kind.toNat % 256 = 2 →
      let row := ((memLoc loc).stack, BitVec.ofNat 64 (bits loc.toNat 0 31))
      (row ∈ s.flash.repairs → exec (.memoryRepairRequest h loc kind) s = .next (okResponse h 0x0505 [] (accept h s))) ∧
      (row ∉ s.flash.repairs → (s.flash.repairs.filter (fun e => e.1 = (memLoc loc).stack)).length < 16 →
        exec (.memoryRepairRequest h loc kind) s =
          .next (okResponse h 0x0505 [] (mapFlash (fun fl => { fl with repairs := fl.repairs ++ [row] }) (accept h s)))) ∧
      (row ∉ s.flash.repairs → 16 ≤ (s.flash.repairs.filter (fun e => e.1 = (memLoc loc).stack)).length →
        exec (.memoryRepairRequest h loc kind) s = .next (exhaustedResponse h 0x0505 (accept h s))))) ∧
  ((∀ h (a b : U64) s, Accepted (.memoryScrubSet h a b) s → exec (.memoryScrubSet h a b) s =
      .next (clampResponse h 0x0506 [clampNear 1 168 a.toNat, clampNear 1 168 b.toNat] [] (mapHbm (fun m => { m with
        strongHours := max 1 (min 168 a.toNat), pageHours := max 1 (min 168 b.toNat) }) (accept h s)))) ∧
    (∀ h (v : U64) s r, Accepted (.memoryStagingMark h v) s → stagingRegion h v.toNat (accept h s) = some r →
      (r.staging = true → exec (.memoryStagingMark h v) s = .next (okResponse h 0x0507 [] (accept h s))) ∧
      (r.staging = false → (regionsWhere s (fun u => u.owner = r.owner && u.staging)).length < 4 → exec (.memoryStagingMark h v) s =
        .next (okResponse h 0x0507 [] (updRegion v.toNat (fun u => { u with staging := true }) (accept h s)))) ∧
      (r.staging = false → 4 ≤ (regionsWhere s (fun u => u.owner = r.owner && u.staging)).length →
        exec (.memoryStagingMark h v) s = .next (exhaustedResponse h 0x0507 (accept h s)))) ∧
    (∀ h (v : U64) s r, Accepted (.memoryStagingUnmark h v) s → stagingRegion h v.toNat (accept h s) = some r →
      exec (.memoryStagingUnmark h v) s = .next (okResponse h 0x0507 [] (updRegion v.toNat (fun u => { u with staging := false }) (accept h s)))))

/-- `window.open`: a record that passes R291 opens under a free number with its size rounded up to 4 KiB, the issuer as its owner, and no replay state
for its requests; a failed check names its word; with every number taken there is no room. The number is the module's choice (log entry 1).
`window.close` closes a window of the issuer and keeps its key; with `FREE` the window goes with its key (R297). -/
def Obligations.WindowOpenCloseFree : Prop :=
  (∀ (h : Hdr) (r : Rec4) (key : BitVec 256) (x : Ext) (s : State), Accepted (.windowOpen h r key x) s →
      let a := accept h s
      let c := clampWindow (windowInput r key (issuerHash h a) h.session false).size
      let w : Window := { windowInput r key (issuerHash h a) h.session false with size := c.value }
      (∀ id, windowFault a r w (imagePlots a (issuerHash h a)) = none → pickWindowId s.mesh.windows x.picks.head? = some id →
        exec (.windowOpen h r key x) s = .next (clampResponse h 0x0704 [c] [] (openWindow id w a))) ∧
      (∀ e, windowFault a r w (imagePlots a (issuerHash h a)) = some e →
        exec (.windowOpen h r key x) s = .next (failedResponse h 0x0704 { fieldDiag e.2.1 291 e.2.2 with rule := e.1 } a)) ∧
      (windowFault a r w (imagePlots a (issuerHash h a)) = none → pickWindowId s.mesh.windows x.picks.head? = none →
        exec (.windowOpen h r key x) s = .next (exhaustedResponse h 0x0704 a)) ∧
      (∀ id (v : Window) (t : State), Tab.find (openWindow id v t).mesh.windows id = some v ∧
        (∀ k, k ≠ id → Tab.find (openWindow id v t).mesh.windows k = Tab.find t.mesh.windows k) ∧
        openWindow id v t = { t with mesh := { t.mesh with windows := (openWindow id v t).mesh.windows, replays := (openWindow id v t).mesh.replays },
                                     gateh := { t.gateh with vWindow := Tab.erase t.gateh.vWindow id } })) ∧
  ((∀ h (v : U64) s w, Accepted (.windowClose h v) s → ownWindow h (windowId v) (accept h s) = some w →
      exec (.windowClose h v) s = .next (okResponse h 0x0705 [] (mapMesh (fun m => { m with
        windows := Tab.set m.windows (windowId v) { w with closed := true } }) (accept h s)))) ∧
    (∀ h (v : U64) s w, Accepted (.windowFree h v) s → ownWindow h (windowId v) (accept h s) = some w →
      exec (.windowFree h v) s = .next (okResponse h 0x0705 [] (mapMesh (fun m => { m with
        windows := Tab.erase m.windows (windowId v) }) (accept h s)))))

/-! ## Links and mesh requests -/

/-- The width policy of the masked ports, in service and in the signed record area; mask bits above 15 and a policy above 1 are clamped (R268, R324).
`mesh.assign` at a root: the group in force is confirmed, another one fails; an unaddressed root keeps the group until its ports have settled,
and then takes member 0 of it and claims its members (R279 to R281).
`mesh.route.write` at a root writes its own group table in order, or relays the entries to a member of its group in one packet; a target outside
the group, a list of no or more than 511 entries and a failed path fail (R286, R338). -/
def Obligations.LinkAndMeshRequests : Prop :=
  (∀ h (mask policy : U64) s, Accepted (.linkWidthPolicy h mask policy) s → ∃ t,
      exec (.linkWidthPolicy h mask policy) s = .next (clampResponse h 0x0601
        [⟨mask.toNat % 65536, decide (65535 < mask.toNat)⟩, clampTo 1 policy.toNat] [] t) ∧
      (∀ i, i < 16 → (portOf t i).forbidDrop = (if bit mask.toNat i then decide (policy ≠ 0#64) else (portOf s i).forbidDrop)) ∧
      (∀ i, i < 16 → bit t.flash.forbidDrop.toNat i = (if bit mask.toNat i then decide (policy ≠ 0#64) else bit s.flash.forbidDrop.toNat i)) ∧
      t = { accept h s with links := t.links, flash := { s.flash with forbidDrop := t.flash.forbidDrop } }) ∧
  (∀ h (group : U64) s, Accepted (.meshAssign h group) s →
      let a := accept h s
      let g := clampTo 1023 group.toNat
      (∀ m, s.mesh.addr = some m → m.toNat / 64 = g.value → exec (.meshAssign h group) s = .next (clampResponse h 0x0700 [g] [] a)) ∧
      (∀ m, s.mesh.addr = some m → m.toNat / 64 ≠ g.value → exec (.meshAssign h group) s = .next (failedResponse h 0x0700 (fieldDiag 0 280 group.toNat) a)) ∧
      (s.mesh.addr = none → s.mesh.settled = false → exec (.meshAssign h group) s =
        .next (clampResponse h 0x0700 [g] [] (mapMesh (fun m => { m with assigned := some g.value }) a))) ∧
      (s.mesh.addr = none → s.mesh.settled = true → exec (.meshAssign h group) s = .next (clampResponse h 0x0700 [g] [] (startEnum g.value a)))) ∧
  (∀ h target entries x s, Accepted (.meshRouteWrite h target entries x) s →
      let a := accept h s
      (entries.length = 0 ∨ 511 < entries.length →
        exec (.meshRouteWrite h target entries x) s = .next (failedResponse h 0x0702 (fieldDiag 1 338 entries.length) a)) ∧
      (1 ≤ entries.length → entries.length ≤ 511 →
      (s.mesh.addr = some target → exec (.meshRouteWrite h target entries x) s =
        .next (okResponse h 0x0702 (le 8 entries.length) (writeRoutes entries a))) ∧
      (∀ own, s.mesh.addr = some own → own ≠ target → target.toNat / 64 = own.toNat / 64 → (Tab.find s.mesh.members (target.toNat % 64)).isSome →
        portSet s target.toNat ≠ [] → x.pathFails = false → exec (.meshRouteWrite h target entries x) s =
          .next (okResponse h 0x0702 (le 8 entries.length)
            (sendCtl 0x21 target.toNat (mgmtRoute :: entries.length :: entries.flatMap (fun e => [e.1, e.2.toNat])) a))) ∧
      (∀ own, s.mesh.addr = some own → own ≠ target → target.toNat / 64 ≠ own.toNat / 64 ∨ Tab.find s.mesh.members (target.toNat % 64) = none ∨
        portSet s target.toNat = [] ∨ x.pathFails = true →
        exec (.meshRouteWrite h target entries x) s = .next (failedResponse h 0x0702 (fieldDiag 0 338 target.toNat) a))) ∧
      (∀ g : Nat, ∀ p : U16, writeRoutes [(g, p)] a = mapMesh (fun m => { m with
        groupTable := if p = 0#16 then Tab.erase m.groupTable (g % 1024) else Tab.set m.groupTable (g % 1024) p }) a))

/-! ## Jobs -/

/-- `job.load`: the image stands in a staging region of the issuer; one whose envelope opens under `K_IMG` of the session, over its 32-byte header, and whose checks all
pass is installed, and the module is LOADED (R326, R328, R366). Any failure answers with its diagnostic or RESOURCE_EXHAUSTED and loads nothing, defines nothing (R328).
The body read is the one that the sender sealed. An installed image replaces the job, its plots and its channels, closes every run with its counts at 0, puts a copy of
its sections into the system area of each field that uses them (R207), and changes nothing else. -/
def Obligations.JobLoad : Prop :=
  (∀ (h : Hdr) (b : Bulk) (x : Ext) (s : State), Accepted (.jobLoad h b x) s →
    let a := accept h s
    let who : Loader := ⟨issuerHash h a, issuerKind h a, ((issuer h a).map (·.quota)).getD 0, h.session⟩
    let data := bulkData b a
    let e := envelopeAt data
    (∀ body t, bulkOk h b a = true → envelopeFault a h.session b.len.toNat e = none → openImage a h.session data = some body →
      checkImage (Mem.write [] 0 body) who e.bodyLen x.picks a = .ok t → exec (.jobLoad h b x) s = .next (okResponse h 0x0300 []
        (setMode .loaded 0x0300 (noteImage h.session e.imageSeq (installImage (Mem.write [] 0 body) who e.bodyLen t))))) ∧
    (∀ body r, bulkOk h b a = true → envelopeFault a h.session b.len.toNat e = none → openImage a h.session data = some body →
      checkImage (Mem.write [] 0 body) who e.bodyLen x.picks a = .error r → exec (.jobLoad h b x) s = .next (respond h 0x0300 r a)) ∧
    (∀ d, bulkOk h b a = true → envelopeFault a h.session b.len.toNat e = some d →
      exec (.jobLoad h b x) s = .next (failedResponse h 0x0300 d a)) ∧
    (bulkOk h b a = true → envelopeFault a h.session b.len.toNat e = none → openImage a h.session data = none →
      exec (.jobLoad h b x) s = .next (unsignedResponse h 0x0300 (imgDiag 0x01 0 0 366 0) a)) ∧
    (bulkOk h b a = false → exec (.jobLoad h b x) s = .next (failedResponse h 0x0300 (bulkDiag b.addr.toNat) a))) ∧
  (∀ (s : State) (id : Nat) (k : Session) (header body : List Byte), Tab.find s.gateh.sessions id = some k → header.length = 32 →
    (envelopeAt header).bodyLen = body.length →
    openImage s id (header ++ gcmSeal 0 k.keys.img (BitVec.ofNat 96 (envelopeAt header).imageSeq) header body) = some body) ∧
  (∀ (m : Mem) (who : Loader) (len : Nat) (s : State), let t := installImage m who len s
    t.job = loadJob m who len ∧ t.job.loaded = true ∧ t.job.session = who.session ∧ t.chans = [] ∧
    (∀ p, p ∉ (plotRecs m).map (·.plot) → plotOf t p = plotOf s p) ∧ (∀ r ∈ plotRecs m, (plotOf t r.plot).assigned = true) ∧
    (∀ f k, Tab.find (fieldOf t f).runs k = (Tab.find (fieldOf s f).runs k).map Run.startJob) ∧
    (∀ f v, Tab.find s.flds f = some v → (fieldOf t f).copies = sectionCopies m f) ∧
    t = { s with job := t.job, chans := [], plots := t.plots, flds := t.flds })

/-- `job.start` checks plots and mesh address again and answers RUNNING (R326); at the start the job's counters are 0, every assigned plot has its
chains at their first descriptors and its work, queues and sections as loaded (R85, R150, R169), every run is closed with counts of 0 and its
epoch kept, and the outbound channels keep only a pairing that has arrived (R167). Before the start nothing else of the job changes. -/
def Obligations.JobStart : Prop :=
  (∀ (h : Hdr) (s : State), Accepted (.jobStart h) s → let a := accept h s
    (startFault a = none → exec (.jobStart h) s = .next (okResponse h 0x0301 [] (startJob a))) ∧
    (∀ d, startFault a = some d → exec (.jobStart h) s = .next (failedResponse h 0x0301 d a))) ∧
  (∀ s, (startJob s).ctl = { s.ctl with mode := .running } ∧ (startJob s).otp = s.otp ∧ (startJob s).pins = s.pins) ∧
  (∀ s, let t := resetJob s
    t.job = { s.job with issueStopped := false, faulted := false, faultCause := 0, faultEvent := 0, faultTime := 0#64,
                         startTime := s.ctl.localTime, tileReplays := 0, opRetries := 0, coreSlides := 0, replacements := 0, tilesSkipped := 0 } ∧
    (∀ p, plotOf t p = if (plotOf s p).assigned then (plotOf s p).startJob else plotOf s p) ∧
    (∀ p i, (plotOf s p).assigned = true → Tab.find (plotOf t p).slices i = (Tab.find (plotOf s p).slices i).map Slice.startJob) ∧
    (∀ f k, Tab.find (fieldOf t f).runs k = (Tab.find (fieldOf s f).runs k).map Run.startJob) ∧
    (∀ c, chanOf t c = (chanOf s c).startJob) ∧
    t = { s with job := t.job, plots := t.plots, flds := t.flds, chans := t.chans, hbm := { s.hbm with stks := t.hbm.stks } }) ∧
  (∀ (sl : Slice) (k : Nat) (d : SlotDef), Tab.find sl.slots k = some d →
    (∀ part, part < d.parts → sl.startJob.partFull k part = d.initFull ∧ sl.startJob.partPoisoned k part = false) ∧
    (sl.startJob.slot k).prod = 0 ∧ (sl.startJob.slot k).cons = 0 ∧ sl.startJob.spad = sl.spad)

/-- `job.drain` answers at entry to DRAINING: issue stops in every plot and nothing else (R100, R321). DRAINING ends in LOADED when every plot is
quiet and every run has closed (R100, R321). `job.unload` takes away plots, channels, image windows, remote requests and the work of every field,
with the packets that wait in holds, closes the aperture windows that remain, and answers READY (R76, R297, R321, R330). -/
def Obligations.JobDrainAndUnload : Prop :=
  (∀ (h : Hdr) (s : State), Accepted (.jobDrain h) s →
    exec (.jobDrain h) s = .next (okResponse h 0x0302 [] (beginDrain 0x0302 (accept h s)))) ∧
  (∀ (cause : Nat) (s : State), s.ctl.mode = .running → let t := beginDrain cause s
    t.ctl.mode = .draining ∧ t.job = { s.job with issueStopped := true } ∧
    (∀ p, plotOf t p = if (plotOf s p).assigned then (plotOf s p).beginDrain else plotOf s p) ∧
    t = withRecords t { s with ctl := { s.ctl with mode := .draining }, job := t.job, plots := t.plots }) ∧
  (∀ s, s.ctl.mode = .draining → jobQuiet s = true → ∃ t, exec .drainComplete s = .next t ∧ t.ctl = { s.ctl with mode := .loaded } ∧
    t.hbm = s.hbm ∧ t.gateh = s.gateh ∧ t.otp = s.otp ∧ t.pins = s.pins ∧ t.pwr = s.pwr) ∧
  (∀ s, s.ctl.mode ≠ .draining ∨ jobQuiet s = false → exec .drainComplete s = .next s) ∧
  (∀ (h : Hdr) (s : State), Accepted (.jobUnload h) s →
    exec (.jobUnload h) s = .next (okResponse h 0x0303 [] (unloadJob 0x0303 (accept h s)))) ∧
  (∀ (cause : Nat) (s : State), s.job.loaded = true → let t := unloadJob cause s
    t.ctl.mode = .ready ∧ t.job = Job.empty ∧ t.chans = [] ∧ t.plots = Tab.mapVals s.plots (fun p pl => if s.job.plots.contains p then pl.unload else pl) ∧
    t.mesh.windows = Tab.mapVals (s.mesh.windows.filter (fun e => !e.2.byImage)) (fun _ w => if w.aperture then { w with closed := true } else w) ∧
    t.mesh.remote = [] ∧ (∀ e ∈ t.grid, e.2.hold = [] ∧ e.2.pools = [] ∧ e.2.stalled = []) ∧
    (∀ f k, Tab.find (fieldOf t f).runs k = (Tab.find (fieldOf s f).runs k).map Run.startJob) ∧
    (∀ e ∈ t.flds, e.2.commits = [] ∧ e.2.transfers = [] ∧ e.2.poolCounters = [] ∧ e.2.trackerQueue = [] ∧ e.2.copies = []) ∧
    t = withRecords t { s with ctl := { s.ctl with mode := .ready }, job := Job.empty, chans := [], plots := t.plots, flds := t.flds,
                               grid := t.grid, mesh := t.mesh })

/-! ## Plots and the fault ladder -/

/-- The plot commands: a new mapping policy maps every field again (R22, R24); a pin and an unpin mark an assigned plot of the issuer's job, and a
pin, an unpin and a fence of a plot whose re-placement has begun are BUSY (R23, R312, R428); a commanded fence stops a mapped plot with PLOT_FENCE and origin 3 (R424);
the fence takes its turn among the remaps of its field, and the first of them holds the position's traffic (R188, R190). A position without an assigned plot becomes
FENCED in its turn. -/
def Obligations.PlotCommands : Prop :=
  (∀ h (policy : U64) s, Accepted (.plotPolicySet h policy) s → ∃ t, exec (.plotPolicySet h policy) s =
      .next (clampResponse h 0x0401 [clampTo 1 policy.toNat] [] t) ∧ t.ctl.policyFull = decide (policy ≠ 0#64) ∧
    (s.ctl.policyFull = decide (policy ≠ 0#64) → t = accept h s) ∧
    (s.ctl.policyFull ≠ decide (policy ≠ 0#64) → (∀ f, Tab.find t.flds f = (Tab.find s.flds f).map (fun v => Field.map v (decide (policy ≠ 0#64)))) ∧
      t = withRecords t { accept h s with ctl := { s.ctl with policyFull := decide (policy ≠ 0#64) }, flds := t.flds })) ∧
  (∀ h (plot : U64) s, let begun := (fieldOf s (fieldOfPlot plot.toNat)).fenceDue.head? = some (.plot plot.toNat)
    (Accepted (.plotPin h plot) s → begun → exec (.plotPin h plot) s = .next (respond h 0x0402 ⟨0x0014, 0, []⟩ (accept h s))) ∧
    (Accepted (.plotPin h plot) s → ¬ begun → ownPlot h plot.toNat (accept h s) = true → exec (.plotPin h plot) s =
      .next (okResponse h 0x0402 [] (updPlot plot.toNat (fun pl => { pl with pinned := true }) (accept h s)))) ∧
    (Accepted (.plotUnpin h plot) s → begun → exec (.plotUnpin h plot) s = .next (respond h 0x0403 ⟨0x0014, 0, []⟩ (accept h s))) ∧
    (Accepted (.plotUnpin h plot) s → ¬ begun → ownPlot h plot.toNat (accept h s) = true → exec (.plotUnpin h plot) s =
      .next (okResponse h 0x0403 [] (updPlot plot.toNat (fun pl => { pl with pinned := false }) (accept h s)))) ∧
    (Accepted (.plotFence h plot) s → begun → exec (.plotFence h plot) s = .next (respond h 0x0404 ⟨0x0014, 0, []⟩ (accept h s))) ∧
    (Accepted (.plotFence h plot) s → ¬ begun → assignable s plot.toNat = true → exec (.plotFence h plot) s =
      .next (okResponse h 0x0404 [] (plotFence (fieldOfPlot plot.toNat) (plotPosition s plot.toNat) 3 (accept h s))))) ∧
  (∀ (f pos origin p : Nat) (s : State), (fieldOf s f).fenced = false → ((fieldOf s f).entry pos).posState ≤ 1 → plotAtPos s f pos = some p →
    (plotOf s p).fencedBy = 0 → (plotOf s p).assigned = true → (∀ q, (fieldOf s f).fenceDue.head? ≠ some (.position q)) →
    .position pos ∉ (fieldOf s f).fenceDue → let t := plotFence f pos origin s
    plotOf t p = { plotOf s p with fencedBy := origin, stopped := true } ∧ (∀ q, q ≠ p → plotOf t q = plotOf s q) ∧
    (fieldOf t f).fenceDue = (if origin = 1 then .plot p :: (fieldOf s f).fenceDue else (fieldOf s f).fenceDue ++ [.plot p]) ∧
    (origin = 1 ∨ (fieldOf s f).fenceDue = [] → (trellisOf t f).hold = [plotPosition s p]) ∧
    (∀ g, g ≠ f → fieldOf t g = fieldOf s g ∧ trellisOf t g = trellisOf s g) ∧
    t = withRecords t { s with plots := t.plots, flds := t.flds, grid := t.grid }) ∧
  (∀ (f pos origin : Nat) (s : State), (fieldOf s f).fenced = false → ((fieldOf s f).entry pos).posState ≤ 1 → .position pos ∉ (fieldOf s f).fenceDue →
    (∀ p, plotAtPos s f pos = some p → (plotOf s p).fencedBy = 0 ∧ (plotOf s p).assigned = false) → let t := plotFence f pos origin s
    ((fieldOf s f).fenceDue = [] → ((fieldOf t f).entry pos).posState = 3 ∧ (fieldOf t f).fenceDue = [] ∧
      (∀ i, (fieldOf s f).plotAt pos = some i → ((fieldOf t f).entry i).mapped = false)) ∧
    (∀ d rest, origin ≠ 1 → (fieldOf s f).fenceDue = d :: rest → (∀ q, d ≠ .position q) →
      (fieldOf t f).fenceDue = d :: rest ++ [.position pos] ∧ (fieldOf t f).remap = (fieldOf s f).remap) ∧
    t.plots = s.plots ∧ t = withRecords t { s with flds := t.flds, grid := t.grid })

/-- A fenced plot whose remap is the next one of its field is placed again on the nearest HELD position that passes its check; a pinned plot, the
FULL policy, no position left or a double-bit error in the control state make a job fault with the causes 6, 7, 5 and 8 (R190 to R192, R424 to
R428). Without a pending fence, or while another fence of the field goes first, nothing changes. The move carries the plot's state and no other
plot's, to cores that are awake and have no idle gap yet; a word that the scan finds uncorrectable is taken along as such (R153, R437, R456). -/
def Obligations.PlotReplacement : Prop :=
  (∀ (p : Nat) (e : ReplaceEnv) (rest : List FenceDue) (s : State), (plotOf s p).fencedBy ≠ 0 → (plotOf s p).assigned = true →
    assignable s p = true → (fieldOf s (fieldOfPlot p)).fenced = false → (fieldOf s (fieldOfPlot p)).fenceDue = .plot p :: rest →
    let f := fieldOfPlot p
    let a := updField f (fun v => { v with fenceDue := rest }) s
    let r := chooseTarget f (plotPosition s p) e 64 a
    ((plotOf s p).pinned = true → exec (.plotReplacement p e) s = .next (endRemap f (plotLost p 0x06 a))) ∧
    ((plotOf s p).pinned = false → s.ctl.policyFull = true → exec (.plotReplacement p e) s = .next (endRemap f (plotLost p 0x07 a))) ∧
    ((plotOf s p).pinned = false → s.ctl.policyFull = false → r.2 = none →
      exec (.plotReplacement p e) s = .next (endRemap f (plotLost p 0x05 r.1))) ∧
    (∀ q, (plotOf s p).pinned = false → s.ctl.policyFull = false → r.2 = some q → e.controlUe = true →
      exec (.plotReplacement p e) s = .next (endRemap f (plotLost p 0x08 (record ((ondieUe 3 0 0 7).atPlot p) r.1)))) ∧
    (∀ q, (plotOf s p).pinned = false → s.ctl.policyFull = false → r.2 = some q → e.controlUe = false →
      exec (.plotReplacement p e) s =
        .next (endRemap f (movePlot p q e (updTrellis f (fun g => { g with hold := g.hold ++ [q] }) r.1))))) ∧
  (∀ (p : Nat) (e : ReplaceEnv) (s : State), (plotOf s p).fencedBy = 0 ∨ (plotOf s p).assigned = false ∨ assignable s p = false ∨
    (fieldOf s (fieldOfPlot p)).fenced = true ∨ (fieldOf s (fieldOfPlot p)).fenceDue.head? ≠ some (.plot p) →
    exec (.plotReplacement p e) s = .next s) ∧
  (∀ (f : Nat) (s : State), let t := endRemap f s
    (∀ p rest, (fieldOf s f).fenceDue = .plot p :: rest → (trellisOf s f).pools = [] → (trellisOf s f).stalled = [] →
      (trellisOf t f).hold = [plotPosition s p]) ∧
    ((∀ p, (fieldOf s f).fenceDue.head? ≠ some (.plot p) ∧ (fieldOf s f).fenceDue.head? ≠ some (.position p)) → (trellisOf s f).pools = [] → (trellisOf s f).stalled = [] →
      (trellisOf t f).hold = [] ∧ t = { s with grid := t.grid })) ∧
  (∀ (p q : Nat) (e : ReplaceEnv) (s : State), let t := movePlot p q e s
    plotPosition t p = q ∧ (plotOf t p).fencedBy = 0 ∧ (plotOf t p).stopped = false ∧ (plotOf t p).sleep = 0 ∧ (∀ i, (sliceOf t p i).gaps = []) ∧
    (∀ k, k ≠ p → plotOf t k = plotOf s k) ∧ (∀ g, g ≠ fieldOfPlot p → fieldOf t g = fieldOf s g) ∧
    (∀ i, (sliceOf t p i).spad = (sliceOf s p i).spad) ∧
    (plotPosition s p ≠ q → ((fieldOf t (fieldOfPlot p)).entry (plotPosition s p)).posState = 3) ∧
    t.job = { s.job with replacements := satInc 32 s.job.replacements, tileReplays := t.job.tileReplays } ∧
    t = withRecords t { s with plots := t.plots, flds := t.flds, chans := t.chans, job := t.job })

/-- A core that a finding has fenced is taken out of the maps by its slide, when its fence is the next one of its field (R190): its half-row records it
and it passes through (R14, R187, R422), and no hold bit stands after it; a core of a LOST half-row only comes to pass packets straight on (R182); with the spare gone the owner of its place is fenced (R421). A core without a finding reports the double-bit
error of its router first (R413). -/
def Obligations.CoreSlide : Prop :=
  (∀ (f col row : Nat) (e : SlideEnv) (s : State), inService s = true → coreLive s f col row = true →
    (fieldOf s f).coreFenced col row = true → exec (.coreSlide f col row e) s = .next (runSlide f col row e s)) ∧
  (∀ (f col row : Nat) (e : SlideEnv) (s : State), inService s = true → coreLive s f col row = true →
    (fieldOf s f).coreFenced col row = false → exec (.coreSlide f col row e) s = .next (runSlide f col row e
      (fenceCore f col row 0x010C (record ((ondieUe 16 0 (coreKey col row) 0).atField f) s)))) ∧
  (∀ (f col row : Nat) (e : SlideEnv) (s : State), inService s = false ∨ coreLive s f col row = false →
    exec (.coreSlide f col row e) s = .next s) ∧
  (∀ (f col row cause : Nat) (rest : List FenceDue) (e : SlideEnv) (s : State), (fieldOf s f).fenceDue = .core col row cause :: rest →
    runSlide f col row e s = beginRemap f (coreFence f col row cause e (updField f (fun v => { v with fenceDue := rest }) s))) ∧
  (∀ (f col row : Nat) (e : SlideEnv) (s : State), (∀ cause, (fieldOf s f).fenceDue.head? ≠ some (.core col row cause)) →
    runSlide f col row e s = s) ∧
  (∀ (f col row cause : Nat) (s : State), let t := fenceCore f col row cause s
    (fieldOf t f).coreFenced col row = true ∧
    (fieldOf t f).fenceDue = (if (fieldOf s f).coreFenced col row then (fieldOf s f).fenceDue else (fieldOf s f).fenceDue ++ [.core col row cause]) ∧
    t = { s with plots := t.plots, flds := t.flds }) ∧
  (∀ (f col row cause : Nat) (e : SlideEnv) (s : State), let r := (fieldOf s f).slideRow row
    r.lost (eastHalf col) = false → r.code (eastHalf col) = 31 → col ≠ 16 → col ≠ 17 → e.spareOk = true → e.readable = true →
    let t := coreFence f col row cause e s
    (fieldOf t f).slideRow row = r.setCode (eastHalf col) (halfCode col) ∧ (∀ k, k ≠ row → (fieldOf t f).slideRow k = (fieldOf s f).slideRow k) ∧
    (fieldOf t f).through = (if (fieldOf s f).through.contains (col, row) then (fieldOf s f).through else (fieldOf s f).through ++ [(col, row)]) ∧
    (fieldOf t f).remap = (fieldOf s f).remap ∧ (trellisOf t f).hold = [] ∧ (∀ g, g ≠ f → trellisOf t g = trellisOf s g) ∧
    (∀ g, g ≠ f → (fieldOf t g).slide = (fieldOf s g).slide ∧ (fieldOf t g).through = (fieldOf s g).through ∧
      (fieldOf t g).remap = (fieldOf s g).remap) ∧
    t.ctl = s.ctl ∧ t.hbm = s.hbm ∧ t.mesh = s.mesh ∧ t.links = s.links ∧ t.gateh = s.gateh) ∧
  (∀ (f col row cause : Nat) (e : SlideEnv) (s : State), ((fieldOf s f).slideRow row).lost (eastHalf col) = true →
    let t := coreFence f col row cause e s
    (col, row) ∈ (fieldOf t f).through ∧ (fieldOf t f).slide = (fieldOf s f).slide ∧ (fieldOf t f).remap = (fieldOf s f).remap ∧ t.plots = s.plots ∧
    t = { s with flds := t.flds, flash := t.flash }) ∧
  (∀ (f col row cause : Nat) (e : SlideEnv) (s : State), let r := (fieldOf s f).slideRow row
    r.lost (eastHalf col) = false → r.code (eastHalf col) ≠ 31 → coreFence f col row cause e s = fenceOwner f col row cause s)

/-- Slack of a plot: kept with its minimum, a warning below 25 ps, a plot fence with origin 2 below 10 ps (R448, R450). A probe of a stack keeps its
result; three successive ones below 25 ps warn, and so do the margins of the stack that the module counts itself. A foresight warning is raised by a value that
meets its condition, and by no other; raised again it keeps its first time (R450, R451). -/
def Obligations.SlackProbesWarnings : Prop :=
  (∀ (p : Nat) (ps : Int) (s : State), inService s = true → assignable s p = true →
    let t := updPlot p (fun pl => { pl with slackPs := ps, slackMin := some (min (pl.slackMin.getD ps) ps) }) s
    (25 ≤ ps → exec (.coreSlackReport p ps) s = .next t) ∧
    (10 ≤ ps → ps < 25 → exec (.coreSlackReport p ps) s = .next (warn 0x0D 2 p ps 25 ((ev 0 0 []).atPlot p) t)) ∧
    (ps < 10 → exec (.coreSlackReport p ps) s =
      .next (plotFence (fieldOfPlot p) (plotPosition s p) 2 (warn 0x0D 2 p ps 25 ((ev 0 0 []).atPlot p) t)))) ∧
  (∀ (p : Nat) (ps : Int) (s : State), inService s = false ∨ assignable s p = false → exec (.coreSlackReport p ps) s = .next s) ∧
  (∀ (k : Nat) (r : ProbeResult) (s : State), s.ctl.mode ∈ served → (fieldOf s (k / 4)).fenced = false → ∃ t,
    exec (.marginProbe k r) s = .next t ∧ (stackOf t k).probe = some r ∧ (stackOf t k).probeTime = s.ctl.localTime ∧
    (stackOf t k).lowRead = (if r.readPs < 25 then (stackOf s k).lowRead + 1 else 0) ∧
    (stackOf t k).lowWrite = (if r.writePs < 25 then (stackOf s k).lowWrite + 1 else 0) ∧ (∀ j, j ≠ k → stackOf t j = stackOf s j) ∧
    (3 ≤ (stackOf t k).lowRead → t.health.any (fun w => w.kind = 0x08 && w.object = k) = true) ∧
    (3 ≤ (stackOf t k).lowWrite → t.health.any (fun w => w.kind = 0x09 && w.object = k) = true) ∧
    (10000 < ceLastHour s k → t.health.any (fun w => w.kind = 0x0A && w.object = k) = true) ∧
    (minSpares s k < 64 → t.health.any (fun w => w.kind = 0x0B && w.object = k) = true) ∧
    (0 < spareBanksUsed s k → t.health.any (fun w => w.kind = 0x0C && w.object = k) = true) ∧
    t = withRecords t { s with hbm := { s.hbm with stks := t.hbm.stks }, health := t.health }) ∧
  (∀ (kind object : Nat) (value : Int) (s : State), let v := (ownMargin s kind object).getD value
    (warnMet kind object v = true → warnHeld s kind object = true → object < warnObjects kind → ∃ t, exec (.foresightWarning kind object value) s = .next t ∧
      t.health.any (fun w => w.kind = kind && w.object = object && decide (w.value = v) && w.last = s.ctl.localTime) = true ∧
      (s.health.any (fun w => w.kind = kind && w.object = object) = false → t.health = s.health ++
        [⟨kind, (warnSource kind object).1, object, v, warnThreshold kind object v, s.ctl.localTime, s.ctl.localTime⟩]) ∧
      (s.health.any (fun w => w.kind = kind && w.object = object) = true → t = mapHealth (fun l => l.map (fun w =>
        if w.kind = kind && w.object = object then { w with value := v, last := s.ctl.localTime } else w)) s) ∧
      t = withRecords t { s with health := t.health }) ∧
    (warnMet kind object v = false ∨ warnHeld s kind object = false ∨ warnObjects kind ≤ object →
      exec (.foresightWarning kind object value) s = .next s))

/-- A field fence in service: the field is FENCED with its cause and without work, its bridges and its two ports are down, every region that uses it
has its bit in `LOST_FIELDS` (R238, R432); a running job goes to DRAINING. Causes 6 to 8 act at boot only (R431). A
bridge whose replay fails is down and takes a running job to DRAINING (R185). -/
def Obligations.FieldFenceAndBridge : Prop :=
  (∀ (f cause : Nat) (s : State), inService s = true ∨ s.ctl.mode = .train ∨ s.ctl.mode = .sealed → f < 8 → (fieldOf s f).fenced = false →
    1 ≤ cause → cause ≤ 5 → exec (.fieldFence f cause) s = .next (fieldFence f cause s)) ∧
  (∀ (f cause : Nat) (s : State), 8 ≤ f ∨ (fieldOf s f).fenced = true ∨ cause = 0 ∨ 5 < cause → exec (.fieldFence f cause) s = .next s) ∧
  (∀ (f cause : Nat) (s : State), f < 8 → let t := fieldFence f cause s
    (fieldOf t f).fenced = true ∧ (fieldOf t f).fenceCause = cause ∧ (fieldOf t f).transfers = [] ∧ (fieldOf t f).commits = [] ∧
    (fieldOf t f).requests = [] ∧ (fieldOf t f).runs = [] ∧ (∀ b ∈ bridgesOf f, Tab.get t.bridges b.1 false = true) ∧
    (portOf t (2 * f)).pstate = 2 ∧ (portOf t (2 * f + 1)).pstate = 2 ∧
    (∀ id r, regionOf s id = some r → r.usesField f = true → ∃ v, regionOf t id = some v ∧ bit v.lost.toNat f = true) ∧
    (s.ctl.mode = .running → t.ctl.mode = .draining) ∧ (s.ctl.mode ≠ .running → t.ctl.mode = s.ctl.mode) ∧
    t.ctl.localTime = s.ctl.localTime ∧ t.otp = s.otp ∧ t.pins = s.pins ∧ t.gateh.sessions = s.gateh.sessions) ∧
  (∀ (b : Nat) (s : State), s.ctl.mode ∈ served → b ≤ 9 → Tab.get s.bridges b false = false → ∃ t, exec (.bridgeReplayFail b) s = .next t ∧
    Tab.get t.bridges b false = true ∧ (∀ c, c ≠ b → Tab.get t.bridges c false = Tab.get s.bridges c false) ∧
    (s.ctl.mode = .running → t.ctl.mode = .draining) ∧ t.hbm = s.hbm ∧ t.links = s.links ∧ t.mesh = s.mesh ∧ t.gateh = s.gateh ∧ t.flds = s.flds) ∧
  (∀ (b : Nat) (s : State), s.ctl.mode ∉ served ∨ 9 < b ∨ Tab.get s.bridges b false = true → exec (.bridgeReplayFail b) s = .next s)

/-- Field test: a chunk starts on a live core with room for it, among the cores outside the job on the one whose turn it is, and takes the length that the idle gap and
the budget leave, with a built-in pattern or one of the pack for use in service that fits, by a free value (R436 to R440, R444; log entry 28); its end
and its cut count it and keep its time (R339, R438, R439); a retest that passes is a recovered fault, one that fails fences the core (R415,
R441, R442). Whether an ended chunk completes the pattern set is a free value (log entry 28). -/
def Obligations.FieldTestChunks : Prop :=
  (∀ (f col row n : Nat) (s : State), inService s = true → coreLive s f col row = true →
    (fieldOf s f).coreFenced col row = false → chunkRoom s f col row = true → chunkLength s f col row = some n →
    (jobSlice s f col row = none → testTurn s f col row = true) → ∃ t, exec (.fieldTestChunk f col row) s = .next t ∧
      (coreTest t f col row).chunk = some (s.ctl.localTime, n, (jobSlice s f col row).isSome) ∧ (coreTest t f col row).spent = (coreTest s f col row).spent ∧
      ((coreTest t f col row).pattern = none ∨ ∃ q ∈ ((s.flash.pack.map (·.patterns)).getD []), bit q.use 0 = true ∧ q.runUs ≤ n ∧
        (coreTest t f col row).pattern = some q.patId) ∧
      (fieldOf t f).testTurn = (if (jobSlice s f col row).isSome then (fieldOf s f).testTurn else coreKey col row) ∧
      (∀ p, plotOf t p = plotOf s p ∨ plotOf t p = { plotOf s p with sleep := 3 }) ∧ (∀ g, g ≠ f → fieldOf t g = fieldOf s g) ∧
      t = { s with plots := t.plots, flds := t.flds, free := s.free + 2 }) ∧
  (∀ (f col row : Nat) (s : State), inService s = false ∨ coreLive s f col row = false ∨ (fieldOf s f).coreFenced col row = true ∨
    chunkRoom s f col row = false ∨ chunkLength s f col row = none ∨ (jobSlice s f col row = none ∧ testTurn s f col row = false) →
    exec (.fieldTestChunk f col row) s = .next s) ∧
  (∀ (f col row n : Nat) (start : U64) (job : Bool) (s : State), (coreTest s f col row).chunk = some (start, n, job) → ∃ t,
    exec (.chunkEnd f col row) s = .next t ∧ (coreTest t f col row).chunk = none ∧ (coreTest t f col row).cuts = 0 ∧
    (start, n, job) ∈ (coreTest t f col row).spent ∧ (fieldOf t f).stats = { (fieldOf s f).stats with run := satInc 32 (fieldOf s f).stats.run } ∧
    (∀ c r, coreKey c r ≠ coreKey col row → coreTest t f c r = coreTest s f c r) ∧ (∀ g, g ≠ f → fieldOf t g = fieldOf s g) ∧
    t = { s with flds := t.flds, free := s.free + 1 }) ∧
  (∀ (f col row n : Nat) (start : U64) (job : Bool) (s : State), (coreTest s f col row).chunk = some (start, n, job) → ∃ t,
    exec (.chunkCut f col row) s = .next t ∧ (coreTest t f col row).chunk = none ∧ (coreTest t f col row).cuts = (coreTest s f col row).cuts + 1 ∧
    (start, min n (usSince s start), job) ∈ (coreTest t f col row).spent ∧
    (fieldOf t f).stats = { (fieldOf s f).stats with run := satInc 32 (fieldOf s f).stats.run, cut := satInc 32 (fieldOf s f).stats.cut } ∧
    (3 ≤ (coreTest s f col row).cuts → (coreTest t f col row).notBefore = s.ctl.localTime + 250000#64) ∧
    (∀ g, g ≠ f → fieldOf t g = fieldOf s g) ∧ t = { s with flds := t.flds }) ∧
  (∀ (f col row pattern : Nat) (sig : U64) (s : State), inService s = true → coreLive s f col row = true →
    let st := (fieldOf s f).stats
    exec (.patternRetest f col row pattern true sig) s = .next (noteRecovered f col row 0x0502
      (updField f (fun v => { v with stats := { st with retestPasses := satInc 16 st.retestPasses } }) s)) ∧
    (∃ t, exec (.patternRetest f col row pattern false sig) s = .next t ∧ (fieldOf t f).coreFenced col row = true ∧
      (fieldOf t f).stats = { st with fails := satInc 16 st.fails, lastFail := s.ctl.localTime } ∧ (∀ g, g ≠ f → fieldOf t g = fieldOf s g) ∧
      t = withRecords t { s with plots := t.plots, flds := t.flds }))

/-! ## Optical links -/

/-- Training in TRAIN: a port takes the lanes that both ends qualified, by the settings that it keeps or in full training, and the width that they allow
(R256, R260, R261); below two lanes it is DOWN with WIDTH, under FORBID_DROP below eight with POLICY (R261, R268), else its lowest lanes carry traffic and
alone are lit. A lane qualifies on a receive fibre that carries the blocks of no other lane (R243). A lane that qualified before and fails on saved settings sends the
port to full training and makes the start a cold one with reason 7 (R258, R398). A partner that never answers, and a training that does not
finish, are NO_PARTNER and TIMEOUT (R257); a late partner trains by the same rules and its port shows LATE (R263); a cable mated in service waits for the next BOOT (R389). A port that goes DOWN
for a reason has no lane and no flit left (R255, R265). -/
def Obligations.PortTraining : Prop :=
  (∀ (i : Nat) (r : TrainResult) (s : State), s.ctl.mode = .train → (portOf s i).pstate = 3 →
    let v := savedTrusted s i r.partnerSerial
    let quick := v.any (fun v => v.qualified &&& (trained true r).2.2 = v.qualified)
    let m := trained quick r
    let q := m.2.2
    let w := widthOf (laneCount q)
    ∃ t, exec (.portTrainingDone i r) s = .next t ∧ (portOf t i).qualified = q ∧ (portOf t i).partnerSerial = r.partnerSerial ∧
    (portOf t i).trainedBy = (if quick then 1 else 2) ∧ (portOf t i).lanes = m.1.map (fun l => ⟨l.settings, 0, 0, [], secondOf s.ctl.localTime, 0, 0⟩) ∧
    (w = 0 → (portOf t i).pstate = 2 ∧ (portOf t i).reason = 7) ∧
    (w ≠ 0 → w < 8 → bit s.flash.forbidDrop.toNat i = true → (portOf t i).pstate = 2 ∧ (portOf t i).reason = 8) ∧
    (w = 8 ∨ (w ≠ 0 ∧ bit s.flash.forbidDrop.toNat i = false) → (portOf t i).pstate = stateOfWidth w ∧ (portOf t i).reason = 0 ∧
      (portOf t i).active = lowestLanes q ∧ (portOf t i).lasers = lowestLanes q) ∧
    (v.isSome = true → quick = false → t.ctl.coldReason = 7) ∧ (v = none ∨ quick = true → t.ctl.coldReason = s.ctl.coldReason) ∧
    t.ctl.fastStart = s.ctl.fastStart ∧
    (∀ j, j ≠ i → (portOf t j).pstate = (portOf s j).pstate) ∧ t.ctl.mode = .train) ∧
  (∀ (bits : Nat) (l : List LaneTrain) (k : Nat), k < 8 → bit (qualifiedMask bits l).toNat k =
    (l[k]?).any (fun v => laneQualifies bits v && decide ((l.filter (fun w => w.settings.fibre = v.settings.fibre)).length = 1))) ∧
  (∀ (bits : Nat) (l : LaneTrain), laneQualifies bits l = true ↔ (9 ≤ l.settings.fibre ∧ l.settings.fibre ≤ 16) ∧ l.locked = true ∧ -700 ≤ l.rxPower ∧ l.rxPower ≤ 500 ∧
    l.corrected * 100000 ≤ bits ∧ l.uncorrectable = 0) ∧
  (∀ i s, s.ctl.mode = .train → (portOf s i).pstate = 3 →
    exec (.noPartnerTimeout i) s = .next (settleCheck (watchDegraded (portDown i 5) s)) ∧
    exec (.trainTimeout i) s = .next (settleCheck (watchDegraded (portDown i 6) s))) ∧
  (∀ i s, s.ctl.mode ≠ .train ∨ (portOf s i).pstate ≠ 3 → exec (.noPartnerTimeout i) s = .next s ∧ exec (.trainTimeout i) s = .next s ∧
    ∀ r, exec (.portTrainingDone i r) s = .next s) ∧
  (∀ i r s, s.ctl.mode ∈ active → (portOf s i).pstate = 2 → (portOf s i).reason = 5 →
    exec (.latePartnerTraining i r) s = .next (reportPort i (watchDegraded (finishTraining i true r) s)) ∧
    (portOf (finishTraining i true r s) i).trainedBy = 3 ∧
    (portOf (finishTraining i true r s) i).pstate = (portOf (finishTraining i false r s) i).pstate ∧
    (portOf (finishTraining i true r s) i).qualified = (portOf (finishTraining i false r s) i).qualified) ∧
  (∀ i r s, s.ctl.mode ∉ active ∨ (portOf s i).pstate ≠ 2 ∨ (portOf s i).reason ≠ 5 → exec (.latePartnerTraining i r) s = .next s) ∧
  (∀ i s, exec (.cableMated i) s = .next s) ∧
  (∀ i reason s, (portOf s i).pstate ≠ 2 → let t := portDown i reason s
    (portOf t i).pstate = 2 ∧ (portOf t i).reason = reason ∧ (portOf t i).active = 0#8 ∧ (portOf t i).replay = [] ∧ (portOf t i).txq = [] ∧
    (portOf t i).lasers = (if reason = 5 then 0xFF#8 else 0#8) ∧ (∀ j, j ≠ i → (portOf t j).pstate = (portOf s j).pstate) ∧ t.ctl = s.ctl ∧
    t.otp = s.otp ∧ t.pins = s.pins)

/-- Flits: a NULL flit carries nothing; the next flit in order is accepted into a receive buffer, with those that came ahead of it on other lanes; a flit with
a bad CRC, a second one ahead on a lane, and one without a buffer (log entry 116) are lost and NAK set (R247 to R251, R254). A host-class flit at a port
without host role and a flit whose hops have run out are dropped and counted, and free their buffer (R248, R253). Control words with a good CRC acknowledge
flits up to `ACK_SEQ`, others are ignored (R250, R254). Without progress for 4 µs the unacknowledged flits are sent again, one on each lane in turn, and a
port with a flit at eight resends goes down (R249, R254, R255). -/
def Obligations.FlitsAndReplay : Prop :=
  (∀ i f s, (portOf s i).carries = false ∨ f.ftype = 0 → exec (.flitReceive i f) s = .next s) ∧
  (∀ i (f : Flit) s, (portOf s i).carries = true → f.ftype ≠ 0 →
    let ahead := (f.seq + 2 ^ 20 - (portOf s i).rxSeq) % 2 ^ 20
    let lost := updPort i (fun v => { v with rxNak := true, dropping := true, rxHeld := [] }) s
    (flitGood f = false → exec (.flitReceive i f) s = .next lost) ∧
    (flitGood f = true → ahead = 1 → Tab.get (portOf s i).rxUsed f.cls 0 < classBuffers f.cls →
      exec (.flitReceive i f) s = .next (acceptHeld i 8 (acceptFlit i f s))) ∧
    (flitGood f = true → ahead = 1 → classBuffers f.cls ≤ Tab.get (portOf s i).rxUsed f.cls 0 → exec (.flitReceive i f) s = .next lost) ∧
    (flitGood f = true → ahead ≠ 1 → ahead = 0 ∨ 2 ^ 19 ≤ ahead ∨ (portOf s i).dropping = true → exec (.flitReceive i f) s = .next s) ∧
    (flitGood f = true → 1 < ahead → ahead < 2 ^ 19 → (portOf s i).dropping = false →
      ((∃ g ∈ (portOf s i).rxHeld, g.lane = f.lane) → exec (.flitReceive i f) s = .next lost) ∧
      ((∀ g ∈ (portOf s i).rxHeld, g.lane ≠ f.lane) →
        exec (.flitReceive i f) s = .next (updPort i (fun v => { v with rxHeld := v.rxHeld ++ [f] }) s)))) ∧
  (∀ i (f : Flit) s, let p := portOf s i
    let t := acceptFlit i f s
    let part := Tab.get p.rxPart f.cls ⟨[], 0⟩
    (portOf t i).rxSeq = f.seq ∧ (portOf t i).rxNak = false ∧ (portOf t i).dropping = false ∧
    (f.cls = 3 → p.hostRole = false → (portOf t i).hostDrops = satInc 64 p.hostDrops ∧ Tab.get (portOf t i).freed 3 0 = Tab.get p.freed 3 0 + 1 ∧
      Tab.get (portOf t i).rxUsed 3 0 = Tab.get p.rxUsed 3 0 ∧ t = { s with links := t.links }) ∧
    (f.cls ≠ 3 → f.ftype = 1 → p.hostReason = 0 → f.hops = 0 → (∃ a, s.mesh.addr = some a ∧ a ≠ f.dest) → flitType f part ≠ 0x20 →
      (portOf t i).hopExpired = satInc 64 p.hopExpired ∧ Tab.get (portOf t i).freed f.cls 0 = Tab.get p.freed f.cls 0 + 1 ∧
      t = { s with links := t.links }) ∧
    (f.cls ≠ 3 → f.ftype = 1 → p.hostReason ≠ 0 → Tab.get (portOf t i).freed f.cls 0 = Tab.get p.freed f.cls 0 + 1 ∧ t = { s with links := t.links }) ∧
    (f.cls ≠ 3 → f.ftype = 1 → p.hostReason = 0 → f.hops ≠ 0 → f.last = false →
      Tab.find (portOf t i).rxPart f.cls =
        some ⟨(if f.first then [] else part.bytes) ++ f.payload.take (min f.payLen 236), (if f.first then 0 else part.flits) + 1⟩ ∧
      Tab.get (portOf t i).freed f.cls 0 = Tab.get p.freed f.cls 0 ∧ Tab.get (portOf t i).rxUsed f.cls 0 = Tab.get p.rxUsed f.cls 0 + 1 ∧
      t = { s with links := t.links }) ∧
    t.hbm = s.hbm ∧ t.gateh = s.gateh ∧ t.ctl = s.ctl ∧ t.job = s.job) ∧
  (∀ (s : State) (x : TxFlit), let f := sentFlit s x
    flitGood f = true ∧ (flitBody f).length = 252 ∧ f.lane = x.lane ∧ f.seq = x.seq ∧ f.cls = x.cls ∧ f.first = decide (x.part = 0) ∧ f.last = x.last ∧
    f.payLen = f.payload.length ∧ f.payload = (x.item.bytes.drop (236 * x.part)).take 236 ∧
    (∀ p, x.item = .pkt p → f.ftype = 1 ∧ f.dest = p.dest ∧ f.src = p.src ∧ f.hops = p.hops)) ∧
  (∀ (s : State) (i : Nat), let w := sentControl s i
    w.crc = crc16 (controlBody w) ∧ (controlBody w).length = 12 ∧ w.ackSeq = (portOf s i).rxSeq ∧ w.nak = (portOf s i).rxNak ∧
    w.laneMask = (portOf s i).laneMask ∧ w.changeValid = (portOf s i).changeFrame.isSome) ∧
  (∀ i (w : CtrlWord) s, (portOf s i).carries = false ∨ w.crc ≠ crc16 (controlBody w) → exec (.controlWordReceive i w) s = .next s) ∧
  (∀ i (w : CtrlWord) s, (portOf s i).carries = true → w.crc = crc16 (controlBody w) →
    exec (.controlWordReceive i w) s = .next (reportIfDown i s (watchDegraded (takeControl i w) s))) ∧
  (∀ (p : Port) ack, let n := (ack + 2 ^ 20 - p.ackSeq) % 2 ^ 20
    (1 ≤ n → n ≤ p.replay.length → p.acknowledge ack = { p with replay := p.replay.drop n, ackSeq := ack, nakSeen := none }) ∧
    (n = 0 ∨ p.replay.length < n → p.acknowledge ack = p)) ∧
  (∀ i s, (portOf s i).carries = true → (portOf s i).replay ≠ [] →
    exec (.ackTimeout i) s = .next (reportIfDown i s (watchDegraded (replayFrom i) s))) ∧
  (∀ i s, (portOf s i).carries = false ∨ (portOf s i).replay = [] → exec (.ackTimeout i) s = .next s) ∧
  (∀ i s, ((∃ f ∈ (portOf s i).replay, 8 ≤ f.resent) → resend i s = portDown i 9 s) ∧
    ((∀ f ∈ (portOf s i).replay, f.resent < 8) → let t := resend i s
      (portOf t i).replay.map (fun f => (f.seq, f.item, f.part, f.resent)) =
        (portOf s i).replay.map (fun f => (f.seq, f.item, f.part, f.resent + 1)) ∧
      ((portOf s i).remaining ≠ 0#8 → ∀ f ∈ (portOf t i).replay, bit (portOf s i).remaining.toNat f.lane = true) ∧
      t = { s with links := t.links })) ∧
  (∀ i (b : AlignBlock) s, (portOf s i).carries = true → bit (portOf s i).active.toNat b.lane = true → b.marker = 0x3C5AE1960FF0A55A#64 →
    (b.senderSerial ≠ (portOf s i).partnerSerial → exec (.alignmentBlockReceive i b) s = .next (takeDown i 0xA s)) ∧
    (b.senderSerial = (portOf s i).partnerSerial → exec (.alignmentBlockReceive i b) s = .next (updPort i (fun p => { p with
      partnerFrame := b.frameNo, partnerMesh := if b.senderMesh = 0xFFFF#16 then p.partnerMesh else some b.senderMesh }) s))) ∧
  (∀ i (b : AlignBlock) s, (portOf s i).carries = false ∨ bit (portOf s i).active.toNat b.lane = false ∨ b.marker ≠ 0x3C5AE1960FF0A55A#64 →
    exec (.alignmentBlockReceive i b) s = .next s) ∧
  (∀ (s : State) (i lane : Nat) (q : Bool) (info : List Byte), (alignBytes s i lane q info).length = 1930 ∧
    (alignBytes s i lane q info).take 8 = le 8 0x3C5AE1960FF0A55A) ∧
  (∀ (s : State) (i lane : Nat) (slots : List (Flit × CtrlWord)) (w : CtrlWord), slots.length ≤ 2125 → (∀ e ∈ slots, e.1.payload.length ≤ 236) →
    (laneFrame s i lane slots w).length = 575680 ∧ (laneFrame s i lane slots w).take 1930 = alignBytes s i lane false [])

/-- What a lane shows is counted, its corrected bits also by the second; lanes without signal or lock, with a laser fault, three uncorrectable codewords in 1 ms or a ratio above 1e-4 leave the mask
(R266, R270). With lanes for a width the port goes on and narrows, without them it goes down: POLICY under FORBID_DROP, LASER when a laser took the last
lane, else WIDTH (R265 to R268). At the frame of change the narrower set is in use and alone lit (R261, R267). Without a signal on every lane the port is down with LASER (R244).
The time exchange stores its four times and answers a probe with the own times (R300). -/
def Obligations.LanesWidthTime : Prop :=
  (∀ (i : Nat) (lanes : BitVec 8) (x : LaneFault) (s : State), (portOf s i).carries = true → (portOf s i).remaining &&& lanes ≠ 0#8 →
    x = .signal ∨ x = .laser → (portOf s i).spent = false →
    let p := portOf s i
    let m := p.laneMask &&& ~~~(p.remaining &&& lanes)
    ∃ t, exec (.laneFailure i lanes x) s = .next t ∧
    (p.forbidDrop = true → (portOf t i).pstate = 2 ∧ (portOf t i).reason = 8) ∧
    (p.forbidDrop = false → widthOf (laneCount (p.active &&& m)) = 0 → (portOf t i).pstate = 2 ∧
      (portOf t i).reason = if x = .laser ∧ p.active &&& m = 0#8 then 0xC else 7) ∧
    (p.forbidDrop = false → widthOf (laneCount (p.active &&& m)) ≠ 0 →
      (portOf t i).pstate = p.pstate ∧ (portOf t i).laneMask = m ∧ (portOf t i).active = p.active) ∧
    (∀ j, j ≠ i → (portOf t j).pstate = (portOf s j).pstate)) ∧
  (∀ (i n : Nat) (lanes : BitVec 8) (s : State), (portOf s i).carries = true → (portOf s i).remaining &&& lanes ≠ 0#8 → n ≤ 4480000 →
    ∃ t, exec (.laneFailure i lanes (.bits n)) s = .next t ∧ (portOf t i).laneMask = (portOf s i).laneMask ∧
    (portOf t i).lanes.length = (portOf s i).lanes.length ∧
    (∀ k l, (portOf s i).lanes[k]? = some l → ∃ v, (portOf t i).lanes[k]? = some v ∧
      (bit ((portOf s i).remaining &&& lanes).toNat k = true → v.corrected = satAdd 64 l.corrected n ∧ v.uncorrectable = l.uncorrectable) ∧
      (bit ((portOf s i).remaining &&& lanes).toNat k = false → v = l)) ∧
    t = { s with links := t.links }) ∧
  (∀ (k n : Nat) (l : LaneState), let v := l.correct k 0 0 n
    (k = l.second → v.lastSecond = l.lastSecond ∧ v.thisSecond = l.thisSecond + n) ∧
    (k = l.second + 1 → v.lastSecond = l.thisSecond ∧ v.thisSecond = n) ∧
    (l.second + 1 < k → v.lastSecond = 0 ∧ v.thisSecond = n)) ∧
  (∀ (x : LaneFault) (l : LaneState), laneFails x l = true ↔ x = .signal ∨ x = .laser ∨ (∃ n, x = .codewords n ∧ 3 ≤ l.recent.length) ∨
    (∃ n, x = .bits n ∧ 4480000 < n)) ∧
  (∀ (now : U64) (n : Nat) (l : LaneState), (countFault now (.codewords n) l).uncorrectable = satAdd 32 l.uncorrectable n ∧
    (∀ t ∈ (countFault now (.codewords n) l).recent, (now - t).toNat < 25000) ∧
    (∀ t ∈ l.recent, (now - t).toNat < 25000 → t ∈ (countFault now (.codewords n) l).recent)) ∧
  (∀ i lanes x s, (portOf s i).carries = false ∨ (portOf s i).remaining &&& lanes = 0#8 → exec (.laneFailure i lanes x) s = .next s) ∧
  (∀ i s f, (portOf s i).carries = true → (portOf s i).changeFrame = some f →
    (portOf s i).nextActive &&& (portOf s i).laneMask = (portOf s i).nextActive → ∃ t, exec (.widthChange i) s = .next t ∧
    (portOf t i).active = (portOf s i).nextActive ∧ (portOf t i).lasers = (portOf s i).nextActive ∧ (portOf t i).changeFrame = none ∧
    (portOf t i).pstate = stateOfWidth (laneCount (portOf s i).nextActive)) ∧
  (∀ i s, (portOf s i).carries = false ∨ (portOf s i).changeFrame = none → exec (.widthChange i) s = .next s) ∧
  (∀ i s, (portOf s i).carries = true → exec (.lossOfSignalAllLanes i) s = .next (takeDown i 0xC s)) ∧
  (∀ i s, (portOf s i).carries = false → exec (.lossOfSignalAllLanes i) s = .next s) ∧
  (∀ i s, (portOf s i).carries = true → ∃ t, exec (.timeProbeSend i) s = .next t ∧ (portOf t i).probeSent = s.ctl.localTime ∧
    t = sendItem i (.frame 0x46 [s.ctl.localTime.toNat]) (updPort i (fun p => { p with probeSent := s.ctl.localTime }) s)) ∧
  (∀ i sent s, (portOf s i).carries = true →
    exec (.timeProbe i sent) s = .next (sendItem i (.frame 0x47 [sent, s.ctl.localTime.toNat, s.ctl.localTime.toNat]) s)) ∧
  (∀ i a b c s, (portOf s i).carries = true → exec (.timeReply i a b c) s = .next (updPort i (fun p => { p with
    exchange := some (BitVec.ofNat 64 a, BitVec.ofNat 64 b, BitVec.ofNat 64 c, s.ctl.localTime) }) s)) ∧
  (∀ i sent a b c s, (portOf s i).carries = false → exec (.timeProbeSend i) s = .next s ∧ exec (.timeProbe i sent) s = .next s ∧
    exec (.timeReply i a b c) s = .next s)

/-! ## Mesh -/

/-- Host role: HOST_HELLO within its 2 s makes the module the root when the owner allows it, the cable record names the port, and no lower port has
the role; else it is refused with the lowest reason that applies, and carries LINK frames only (R276). An unaddressed module takes the address of its first CLAIM; a root and an
addressed module refuse with their address (R277, R282; log entry 15). The waits of R279 and R282 end addressing. -/
def Obligations.HostRoleAndAddress : Prop :=
  (∀ i n s, (portOf s i).carries = true → (portOf s i).hostWait = true → helloFault s i = none → ∃ t, exec (.hostHello i n) s = .next t ∧
    t.mesh.root = true ∧ t.mesh.hostPort = i ∧ t.mesh.hostResult = 1 ∧ (portOf t i).hostRole = true ∧ (portOf t i).hostWait = false ∧
    t.mesh.addr = s.mesh.addr ∧ t = { s with mesh := t.mesh, links := t.links }) ∧
  (∀ i n s r, (portOf s i).carries = true → (portOf s i).hostWait = true → helloFault s i = some r → ∃ t, exec (.hostHello i n) s = .next t ∧
    t.mesh.root = s.mesh.root ∧ (portOf t i).hostRole = (portOf s i).hostRole ∧ (portOf t i).hostWait = false ∧ (portOf t i).hostReason = r ∧
    (s.mesh.root = false → t.mesh.hostResult = r + 1) ∧ (∀ e ∈ (portOf t i).txq, ∃ code content, e.item = .frame code content) ∧
    t.ctl = s.ctl ∧ t.gateh = s.gateh ∧ t.otp = s.otp ∧ ((portOf s i).txq = [] → t = { s with mesh := t.mesh, links := t.links })) ∧
  (∀ i n s, (portOf s i).carries = false ∨ (portOf s i).hostWait = false → exec (.hostHello i n) s = .next s) ∧
  (∀ s i, (otpValue s 3 ≠ 1 → helloFault s i = some 1) ∧ (otpValue s 3 = 1 → hostAdapterPort s ≠ some i → helloFault s i = some 2) ∧
    (otpValue s 3 = 1 → hostAdapterPort s = some i → (∃ e ∈ s.links, e.1 < i ∧ e.2.hostRole = true) → helloFault s i = some 3) ∧
    (otpValue s 3 = 1 → hostAdapterPort s = some i → (∀ e ∈ s.links, e.1 < i → e.2.hostRole = false) → helloFault s i = none)) ∧
  (∀ i s, (portOf s i).hostWait = true → ∃ t, exec (.hostHelloTimeout i) s = .next t ∧ (portOf t i).hostWait = false ∧
    t.mesh.root = s.mesh.root ∧ (hostAdapterPort s = some i → s.mesh.root = false → t.mesh.hostResult = 5 ∧ t.mesh.hostPort = i) ∧
    (hostAdapterPort s ≠ some i ∨ s.mesh.root = true → t.mesh = s.mesh)) ∧
  (∀ i s, (portOf s i).hostWait = false → exec (.hostHelloTimeout i) s = .next s) ∧
  (∀ s, s.ctl.mode = .train → s.mesh.root = true → s.mesh.settled = true → s.mesh.addr = none →
    (∀ g rec_, s.flash.savedGroup = some (g, rec_) → s.ctl.fastStart = true → rec_ = (idRecord s 0).getD [] →
      exec .meshAssignWaitExpiry s = .next (startEnum g s)) ∧
    (∀ g, (∀ e, s.flash.savedGroup = some e → s.ctl.fastStart = false ∨ e.2 ≠ (idRecord s 0).getD []) → groupHint s = some g → exec .meshAssignWaitExpiry s = .next (startEnum g s)) ∧
    ((∀ e, s.flash.savedGroup = some e → s.ctl.fastStart = false ∨ e.2 ≠ (idRecord s 0).getD []) → groupHint s = none →
      exec .meshAssignWaitExpiry s = .next (mapMesh (fun m => { m with addressingDone := true }) s))) ∧
  (∀ s, s.ctl.mode ≠ .train ∨ s.mesh.root = false ∨ s.mesh.settled = false ∨ s.mesh.addr ≠ none → exec .meshAssignWaitExpiry s = .next s) ∧
  (∀ s, s.ctl.mode = .train → s.mesh.root = false → s.mesh.settled = true → s.mesh.claimed = false →
    exec .claimWaitExpiry s = .next (mapMesh (fun m => { m with addressingDone := true }) s)) ∧
  (∀ s, s.ctl.mode ≠ .train ∨ s.mesh.root = true ∨ s.mesh.settled = false ∨ s.mesh.claimed = true → exec .claimWaitExpiry s = .next s) ∧
  (∀ i (offered claimant : U16) k s, (portOf s i).carries = true → s.mesh.root = false → s.mesh.claimed = false → s.mesh.addr = none → ∃ t,
    exec (.claim i offered claimant k) s = .next t ∧ t.mesh = { s.mesh with addr := some offered, claimed := true, upPort := i } ∧
    (portOf t i).partnerMesh = some claimant ∧
    (∀ j, j ≠ i → { portOf t j with rxUsed := (portOf s j).rxUsed, freed := (portOf s j).freed } = portOf s j) ∧ t = { s with mesh := t.mesh, links := t.links }) ∧
  (∀ i (offered claimant : U16) k s, (portOf s i).carries = true → s.mesh.root = true ∨ s.mesh.claimed = true ∨ s.mesh.addr ≠ none →
    exec (.claim i offered claimant k) s = .next (sendItem i (.frame 0x45 [(s.mesh.addr.getD 0xFFFF#16).toNat, flag s.mesh.addr.isSome])
      (updPort i (fun p => { p with partnerMesh := some claimant }) s))) ∧
  (∀ i offered claimant k s, (portOf s i).carries = false → exec (.claim i offered claimant k) s = .next s)

/-- Enumeration and tables: the answer that the root waits for adds a member with its path, or a link to one, in the group or outside it (R281); a member
passes answers up. A member takes the table that its root writes and ends its addressing (R283, R285), and relayed route entries (R338). A root takes a port's
change up (R284, R289) and writes the tables again. -/
def Obligations.GroupManagement : Prop :=
  (∀ (ok : Pkt → Bool) (s : State), let t := takeFirst ok s
    (s.mesh.inbox.find? (fun a => ok a.pkt) = none → t = s) ∧
    (∀ a, s.mesh.inbox.find? (fun a => ok a.pkt) = some a → t.mesh = { s.mesh with inbox := s.mesh.inbox.erase a } ∧
      Tab.get (portOf t a.port).freed a.pkt.cls 0 = Tab.get (portOf s a.port).freed a.pkt.cls 0 + a.flits ∧
      t = { s with mesh := t.mesh, links := t.links })) ∧
  (∀ m p (a : U16) s, s.mesh.root = true → s.mesh.enumAt = some (m, p) →
    exec (.claimAck m p a) s = .next (enumNext m p (addMember m p a.toNat (takeType 0x20 s)))) ∧
  (∀ m p a s, s.mesh.root = true → s.mesh.enumAt ≠ some (m, p) → exec (.claimAck m p a) s = .next (takeType 0x20 s)) ∧
  (∀ m p (a : U16) s, s.mesh.root = false → s.mesh.addr.isSome = true → ∃ t, exec (.claimAck m p a) s =
    .next (answerUp [enumAccepted, m, p, a.toNat] t) ∧
    (ownMember s m = true → t = updPort p (fun v => { v with partnerMesh := some a }) (takeType 0x20 s)) ∧
    (ownMember s m = false → t = takeType 0x20 s)) ∧
  (∀ m p a s, let k := a % 64
    (addMember m p a s).mesh.nextMember = k + 1 ∧ (addMember m p a s).mesh.enumQueue = s.mesh.enumQueue ++ [k] ∧
    Tab.find (addMember m p a s).mesh.members k = some ⟨(memberOf s m).path ++ [p], [], []⟩) ∧
  (∀ m p a s, let t := noteLink m p a s
    (a / 64 = memberAddr s 0 / 64 → (p, a % 64) ∈ (memberOf t m).links ∧ (memberOf t m).outside = (memberOf s m).outside) ∧
    (a / 64 ≠ memberAddr s 0 / 64 → (p, a / 64) ∈ (memberOf t m).outside ∧ (memberOf t m).links = (memberOf s m).links) ∧
    (∀ k, k ≠ m → memberOf t k = memberOf s k) ∧ t = { s with mesh := { s.mesh with members := t.mesh.members } }) ∧
  (∀ m p (a : U16) b s, s.mesh.root = true → s.mesh.enumAt = some (m, p) → ∃ t, exec (.claimRefuse m p a b) s = .next (enumNext m p t) ∧
    (b = false → t = takeType 0x20 s) ∧ (b = true → m ≠ 0 → t = noteLink m p a.toNat (takeType 0x20 s))) ∧
  (∀ m p a b s, s.mesh.root = true → s.mesh.enumAt ≠ some (m, p) → exec (.claimRefuse m p a b) s = .next (takeType 0x20 s)) ∧
  (∀ m p (a : U16) b s, s.mesh.root = false → s.mesh.addr.isSome = true → ∃ t,
    exec (.claimRefuse m p a b) s = .next (answerUp [enumRefused, m, p, a.toNat, flag b] t) ∧ (b = false → t = takeType 0x20 s) ∧
    t = { takeType 0x20 s with links := t.links }) ∧
  (∀ q r p o s, exec (.enum (q :: r) p o) s = .next (sendEnum (q :: r) [enumClaim, p, o] (takeType 0x20 s))) ∧
  (∀ p o s a, s.mesh.addr = some a → (portOf s p).carries = true → (portOf s p).partnerMesh = none → (portOf s p).hostAdapter = false →
    (o ≤ 0xFFFF → exec (.enum [] p o) s = .next (sendItem p (.frame 0x43 [o, a.toNat, p]) (takeType 0x20 s))) ∧
    (0xFFFF < o → exec (.enum [] p o) s =
      .next (answerUp [mgmtPortState, a.toNat % 64, p, 1, 0, 0] (takeType 0x20 s)))) ∧
  (∀ p o s, s.mesh.addr = none → exec (.enum [] p o) s = .next (takeType 0x20 s)) ∧
  (∀ masks s, s.mesh.addr.isSome = true → s.mesh.root = false → exec (.memberTableWrite masks) s =
    .next (mapMesh (fun m => { m with memberTable := tableOf masks, addressingDone := true }) (takeType 0x21 s))) ∧
  (∀ masks s, s.mesh.addr = none ∨ s.mesh.root = true → exec (.memberTableWrite masks) s = .next (takeType 0x21 s)) ∧
  (∀ (masks : List U16) n, n < 64 → Tab.get (tableOf masks) n 0#16 = nth masks n 0#16) ∧
  (∀ entries s, s.mesh.addr.isSome = true → exec (.mgmtRouteWrite entries) s = .next (writeRoutes entries (takeType 0x21 s))) ∧
  (∀ entries s, s.mesh.addr = none → exec (.mgmtRouteWrite entries) s = .next (takeType 0x21 s)) ∧
  (∀ m p up (a : U16) b s, let r := takeFirst (fun q => q.ptype = 0x20 || q.ptype = 0x21) s
    (s.mesh.addr = none → exec (.portStateReport m p up a b) s = .next r) ∧
    (s.mesh.addr.isSome = true → s.mesh.root = false → exec (.portStateReport m p up a b) s =
      .next (answerUp [mgmtPortState, m, p, flag up, flag b, a.toNat] r)) ∧
    (s.mesh.addr.isSome = true → s.mesh.root = true → s.mesh.enumAt ≠ some (m, p) →
      exec (.portStateReport m p up a b) s = .next (applyPortState m p up (if b then some a.toNat else none) r)) ∧
    (s.mesh.addr.isSome = true → s.mesh.root = true → s.mesh.enumAt = some (m, p) → exec (.portStateReport m p up a b) s =
      .next (enumNext m p (if up && b then noteLink m p a.toNat r else if up && decide (63 < s.mesh.nextMember) then overLimit m p r else r)))) ∧
  (∀ s, s.mesh.root = true → s.mesh.addr.isSome = true → exec .memberTableRecompute s = .next (writeTables s)) ∧
  (∀ s, s.mesh.root = false ∨ s.mesh.addr = none → exec .memberTableRecompute s = .next s)

/-- Forwarding: a packet for this module is delivered; one for another goes out with a hop less on a port of the route, or is dropped and counted at the port
that it came by: hops run out, no route, no address (R248, R273, R287). The chosen port is one of the route's that carries and was not refused (R276, R287).
Mailbox relays reach the member's mailboxes, or the host (R278). -/
def Obligations.PacketsForwarded : Prop :=
  (∀ (a : Arrival) s, s.mesh.addr = some a.pkt.dest →
    exec (.packetForward a) s = .next (mapMesh (fun m => { m with inbox := m.inbox ++ [⟨a.port, 0, a.pkt⟩] }) s)) ∧
  (∀ (a : Arrival) s, s.mesh.addr = none →
    exec (.packetForward a) s = .next (updPort a.port (fun v => { v with unaddressed := satInc 64 v.unaddressed }) s)) ∧
  (∀ (a : Arrival) s o, s.mesh.addr = some o → o ≠ a.pkt.dest → let p := a.pkt
    (p.hops = 0 → exec (.packetForward a) s = .next (updPort a.port (fun v => { v with hopExpired := satInc 64 v.hopExpired }) s)) ∧
    (p.hops ≠ 0 → choosePort s p.cls p.dest.toNat p.address (portSet s p.dest.toNat) = none →
      exec (.packetForward a) s = .next (noRoute a.port p.dest.toNat s)) ∧
    (∀ i, p.hops ≠ 0 → choosePort s p.cls p.dest.toNat p.address (portSet s p.dest.toNat) = some i →
      exec (.packetForward a) s = .next (sendItem i (.pkt { p with hops := p.hops - 1 }) s))) ∧
  (∀ s cls d addr l i, choosePort s cls d addr l = some i → i ∈ l) ∧
  (∀ s d, ∀ i ∈ portSet s d, i < 16 ∧ (portOf s i).carries = true ∧ (portOf s i).hostReason = 0) ∧
  (∀ s i d, (noRoute i d s).mesh.addr = s.mesh.addr ∧ (portOf (noRoute i d s) i).noRoute = satInc 64 (portOf s i).noRoute ∧
    (∀ j, j ≠ i → portOf (noRoute i d s) j = portOf s j) ∧ (noRoute i d s).hbm = s.hbm ∧ (noRoute i d s).gateh = s.gateh) ∧
  (∀ (p : Pkt) x s a, s.mesh.addr = some a → p.ptype = 0x30 →
    (s.mesh.root = true → p.dest ≠ a → p.dest.toNat / 64 = a.toNat / 64 → exec (.mailboxRelay p x) s =
      .next (sendPkt s.mesh.hostPort { p with ptype := 0x22, cls := 2, hops := 63, src := a } (takeInbox p s))) ∧
    (s.mesh.root = false ∨ p.dest = a ∨ p.dest.toNat / 64 ≠ a.toNat / 64 → exec (.mailboxRelay p x) s = .next s)) ∧
  (∀ (p : Pkt) x s a, s.mesh.addr = some a → p.ptype = 0x22 → let mb := numAt p.body 0 1
    (p.dest ≠ a → exec (.mailboxRelay p x) s = .next (forwardPkt (arrivalPort s p) none p (takeInbox p s))) ∧
    (p.dest = a → s.mesh.root = true →
      exec (.mailboxRelay p x) s = .next (sendItem s.mesh.hostPort (.pkt { p with ptype := 0x30, cls := 3 }) (takeInbox p s))) ∧
    (p.dest = a → s.mesh.root = false → servedMailbox mb s = false → exec (.mailboxRelay p x) s = .next (takeInbox p s)) ∧
    (p.dest = a → s.mesh.root = false → servedMailbox mb s = true →
      ((boxOf s mb).enter (p.body.drop 1) = none → exec (.mailboxRelay p x) s = .next s) ∧
      (∀ b, (boxOf s mb).enter (p.body.drop 1) = some b → let s1 := updBox mb (fun _ => b) (takeInbox p s)
        ∃ t, takeRequests mb ((boxOf s1 mb).waiting + 1) x s1 = .next t ∧ exec (.mailboxRelay p x) s = .next (relayBack p mb b t)))) ∧
  (∀ (p : Pkt) x s, s.mesh.addr = none ∨ (p.ptype ≠ 0x22 ∧ p.ptype ≠ 0x30) → exec (.mailboxRelay p x) s = .next s)

/-! ## The trellis -/

/-- Where stacks stand on the outward edge of a field (R178). A packet's way within a field runs from router to neighbouring router, starts where it is routed and ends at its
destination; for a core it turns at live routers only where a route of R181 does so, and takes the first of them where that one does (R181, R182). It ends at the core that
the slide map gives for its slice, or at the edge router of its goal; into another field it leaves at the edge of the bridge that the field route table names, in
the destination's column or row (R178, R180, R184). Every output that packets want grants exactly one of them in a cycle (R179). A packet for a held plot is kept where it
was injected, in a pool of 256, or 2,048 at a gateway, and beyond that with its agent, whose class then stalls in order (R189); none is lost, and all leave when
the hold ends (R188, R429). -/
def Obligations.TrellisRoutesAndHolds : Prop :=
  (∀ f k c, f < 8 → k < 4 → c < 16 → EdgeAgent.stack (4 * f + k) c ∈ edgeAgents f (outwardEdge f) (stackColumn (4 * f + k) c) ∧
    (∀ e i, e < 4 → i < 34 → EdgeAgent.stack (4 * f + k) c ∈ edgeAgents f e i → e = outwardEdge f ∧ i = stackColumn (4 * f + k) c)) ∧
  (∀ (fl : Field) (a b : Nat × Nat) (last : Nat), let l := fl.routed a b last
    l.getLast? = some (b.1, b.2, last) ∧ l.head?.map (fun o => (o.1, o.2.1)) = some a ∧
    (∀ k h v, l[k]? = some h → l[k + 1]? = some v → (v.1, v.2.1) = neighbour (h.1, h.2.1) h.2.2)) ∧
  (∀ (fl : Field) (a b : Nat × Nat), let l := fl.routed a b 4
    (fl.routerLive b.1 a.2 = true → l = along a [(b.1, a.2), b] ++ [(b.1, b.2, 4)]) ∧
    (fl.routerLive b.1 a.2 = true ∨ fl.routerLive a.1 b.2 = true ∨ (∃ c, c < 34 ∧ fl.routerLive c a.2 = true ∧ fl.routerLive c b.2 = true) →
      ∀ r ∈ turnsIn l, fl.routerLive r.1 r.2 = true)) ∧
  (∀ (s : State) (f vc : Nat) (site : Site) (goal : Goal), goal.field = f → ∃ hops h, legsTo s f site vc goal = [⟨f, site, vc, hops⟩] ∧
    (∀ v ∈ hops, v.field = f) ∧ hops.getLast? = some h ∧ (h.col, h.row) = goal.router s ∧ h.out = goal.last) ∧
  (∀ (s : State) (f vc b : Nat) (site : Site) (goal : Goal), goal.field ≠ f → Tab.get (fieldOf s f).routes goal.field none = some b →
    let g := if (bridgeEnds b).1 = f then (bridgeEnds b).2 else (bridgeEnds b).1
    let e := bridgeEdge f g
    ∃ hops h rest, legsTo s f site vc goal = ⟨f, site, vc, hops⟩ :: rest ∧ hops.getLast? = some h ∧ h.out = e ∧
      (h.col, h.row) = edgeRouter e (if e % 2 = 0 then (goal.router s).1 else (goal.router s).2)) ∧
  (∀ (turns : Tab Nat) (l : List (Flight × Nat)) (v w : Flight) (j k : Nat), (v, j) ∈ l → (w, k) ∈ l → v.key = w.key →
    winsOutput turns l j v = true → winsOutput turns l k w = true → j = k) ∧
  (∀ (turns : Tab Nat) (l : List (Flight × Nat)) (v : Flight) (j : Nat), (v, j) ∈ l → ∃ w k, (w, k) ∈ l ∧ w.key = v.key ∧
    winsOutput turns l k w = true ∧ (64 ≤ v.waited → v.hops ≠ [] → 64 ≤ w.waited)) ∧
  (∀ (s : State) (cls : Nat) (goal : Goal) (l : Leg), keptBack s cls goal l = true ↔
    (∃ p i, goal = .slice p i ∧ fieldOfPlot p = l.field ∧ plotHeld s p = true) ∨
    ∃ v ∈ (trellisOf s l.field).stalled, v.site = l.site ∧ v.cls = cls) ∧
  (∀ (f : Nat) (site : Site) (cls : Nat) (goal : Goal) (cargo : Cargo) (kept deliver : State → State) (s : State), let legs := legsTo s f site 0 goal
    (∀ l, legs.head? = some l → keptBack s cls goal l = true →
      carry f site cls goal cargo kept deliver s = park ⟨l.field, l.site, l.vc, cls, goal, cargo⟩ (kept s)) ∧
    ((∀ l ∈ legs, keptBack s cls goal l = false) →
      carry f site cls goal cargo kept deliver s = deliver (grantHops cls (legs.flatMap (·.hops)) s))) ∧
  (∀ (t : Trellis) (v : Parcel), let u := t.keep v
    let full := fun (g : Trellis) => (g.pools.filter (fun q => q.site = v.site)).length
    ((∃ q ∈ t.stalled, q.site = v.site ∧ q.cls = v.cls) ∨ v.site.poolSize ≤ full t → u = { t with stalled := t.stalled ++ [v] }) ∧
    ((∀ q ∈ t.stalled, q.site = v.site → q.cls ≠ v.cls) → full t < v.site.poolSize → u = { t with pools := t.pools ++ [v] } ∧
      full u ≤ v.site.poolSize) ∧ Site.poolSize (.router 0 0) = 256 ∧ Site.poolSize (.gateway 0 0) = 2048) ∧
  (∀ (f : Nat) (s : State), let r := leaveHold f s
    let t := trellisOf s f
    (trellisOf r.1 f).hold = [] ∧ (trellisOf r.1 f).pools = [] ∧ (trellisOf r.1 f).stalled = [] ∧ (∀ g, g ≠ f → trellisOf r.1 g = trellisOf s g) ∧
    r.2.Perm (t.pools ++ t.stalled) ∧ r.1 = { s with grid := r.1.grid })

/-! ## Windows and remote requests -/

/-- A window request at its target (R293, R294, R295): one that the gateway cannot take, because it serves 2,048 or its pool for a held plot has no room, waits;
of an unknown window, not opened by the window's key or replayed, it is dropped and counted; refused, it is counted and answered with zeros, an acknowledgement
or an old value of zero; else it is performed, at the aperture once the plot is not held (R430). From there on it carries the window's key (R297). Before an
address, and for another module, nothing happens. A counter that was taken is never fresh again (R294). -/
def Obligations.WindowRequestAtTarget : Prop :=
  (∀ (p : Pkt) (o : WordErrors) s, s.mesh.addr ≠ some p.dest ∨ gatewayFull s p = true →
    exec (.windowReadReq p) s = .next s ∧ exec (.windowWriteReq p) s = .next s ∧ exec (.windowAtomicReq p o) s = .next s) ∧
  (∀ (p : Pkt) s, let port := arrivalPort s p
    (apertureOf p.address = none → (gatewayFull s p = true ↔ 2048 ≤ servedAt s port)) ∧
    (∀ plot slice off, apertureOf p.address = some (plot, slice, off) → (gatewayFull s p = true ↔ 2048 ≤ servedAt s port ∨
      portStalls s (port / 2) (portSite s port plot slice) 0 (.slice plot slice) = true))) ∧
  (∀ (p : Pkt) (o : WordErrors) s t, s.mesh.addr = some p.dest → gatewayFull s p = false →
    (Tab.find s.mesh.windows p.window = none ∧ t = violation 0x06 .none (sourceModule p.src) (takeInbox p s)) ∨
    (∃ w, Tab.find s.mesh.windows p.window = some w ∧ (openBody w.key p = none ∨ replayVerdict s p.window p.src false p.nonce = .replayed) ∧
      t = violation 0x06 (.window p.window) (sourceModule p.src) (takeInbox p s)) ∨
    (∃ w body, Tab.find s.mesh.windows p.window = some w ∧ openBody w.key p = some body ∧
      replayVerdict s p.window p.src false p.nonce = .full ∧ t = countReplayFull (takeInbox p s)) →
    exec (.windowReadReq p) s = .next t ∧ exec (.windowWriteReq p) s = .next t ∧ exec (.windowAtomicReq p o) s = .next t) ∧
  (∀ (p : Pkt) (o : WordErrors) s w body, s.mesh.addr = some p.dest → gatewayFull s p = false →
    Tab.find s.mesh.windows p.window = some w → openBody w.key p = some body → replayVerdict s p.window p.src false p.nonce = .fresh →
    let port := arrivalPort s p
    let q := { p with key := some w.key }
    let a := takeNonce p.window p.src false p.nonce (takeInbox p s)
    let bad := violation 0x05 (.window p.window) (sourceModule p.src) a
    let noAtomic := exec (.windowAtomicReq p o) s = .next (respondWindow q 0x06 false false (le 8 0) bad)
    (w.refuses p.src w.rd p.address (readLength body) = true → exec (.windowReadReq p) s =
      .next (respondWindow q 0x04 false false (List.replicate (readLength body) 0#8) bad)) ∧
    (w.refuses p.src w.wr p.address body.length = true → exec (.windowWriteReq p) s = .next (respondWindow q 0x05 false false [] bad)) ∧
    (w.refuses p.src w.atomic p.address (widthBytes p.w8) = true ∨ regionAt s.hbm.regions p.address = none ∨ atomicFn p body = none ∨
      p.address % widthBytes p.w8 ≠ 0 → noAtomic) ∧
    (w.refuses p.src w.rd p.address (readLength body) = false → exec (.windowReadReq p) s =
      .next (if w.aperture then windowSpad port q true body a
        else windowHbm port q false (readLength body) (List.replicate (readLength body) 0#8) a)) ∧
    (w.refuses p.src w.wr p.address body.length = false → exec (.windowWriteReq p) s =
      .next (if w.aperture then windowSpad port q false body a else windowHbm port q true body.length body a)) ∧
    (∀ id r f, w.refuses p.src w.atomic p.address (widthBytes p.w8) = false → regionAt s.hbm.regions p.address = some (id, r) →
      atomicFn p body = some f → p.address % widthBytes p.w8 = 0 →
      let v := atomicAt id r p.address (widthBytes p.w8) f o a
      let g := stackGateway (r.phys p.address)
      exec (.windowAtomicReq p o) s = .next (replyFrom g.1 g.2 q 0x06 v.2.2 false (le 8 v.2.1) v.1))) ∧
  (∀ (port : Nat) (p : Pkt) (read : Bool) (body : List Byte) s plot slice off, apertureOf p.address = some (plot, slice, off) →
    let legs := legsTo s (port / 2) (portSite s port plot slice) 0 (.slice plot slice)
    let a := grantHops 0 (legs.flatMap (·.hops)) s
    let r := spadLoad plot slice off (readLength body) 0 (sourceModule p.src) a
    let v := spadStore plot slice off body 0 (sourceModule p.src) a
    (∀ l, legs.head? = some l → keptBack s 0 (.slice plot slice) l = true →
      windowSpad port p read body s = park ⟨l.field, l.site, l.vc, 0, .slice plot slice, .window port p read body⟩ s) ∧
    ((∀ l ∈ legs, keptBack s 0 (.slice plot slice) l = false) →
      (read = true → windowSpad port p read body s = replyFrom (fieldOfPlot plot) (sliceSite a plot slice) p 0x04 r.2.2 false r.2.1 r.1) ∧
      (read = false → windowSpad port p read body s = replyFrom (fieldOfPlot plot) (sliceSite a plot slice) p 0x05 false v.2 [] v.1))) ∧
  (∀ s w a r n, replayVerdict s w a r n = .fresh → replayVerdict (takeNonce w a r n s) w a r n = .replayed)

/-- An answer counts only when it is for this module, its request is tracked, and it is fresh, from the request's target and window, and opens with the key of
that window's entry (R292, R293, R294, R296); then the request ends: data lands, a failed write marks its commit, an atomic leaves its old value. An answer for a
plot whose traffic is held waits, and its request stays tracked (R194, R429); where the pool of its gateway has no room it stays in its buffers (R269). A request
that is not answered in 50 ms ends as Failed (R296). -/
def Obligations.WindowAnswers : Prop :=
  (∀ (p : Pkt) s t, (s.mesh.addr ≠ some p.dest ∨ answerStalls s p = true) ∧ t = s ∨
    s.mesh.addr = some p.dest ∧ answerStalls s p = false ∧ openAnswer s p = none ∧ t = takeInbox p s →
    exec (.readResp p) s = .next t ∧ exec (.writeAck p) s = .next t ∧ exec (.atomicResp p) s = .next t) ∧
  (∀ (p : Pkt) s, Tab.find s.mesh.remote p.reqTag = none → answerStalls s p = false ∧ openAnswer s p = none) ∧
  (∀ (p : Pkt) s q, Tab.find s.mesh.remote p.reqTag = some q →
    (q.target ≠ p.src ∨ q.window ≠ p.window → openAnswer s p = none) ∧
    (∀ e, q.target = p.src → q.window = p.window → s.job.remotes.find? (fun w => w.target = p.src.toNat && w.window = p.window) = some e →
      openAnswer s p = openBody e.key p) ∧
    (∀ n plot i o, q.dest = .fill n plot i o →
      answerStalls s p = portStalls s q.field (.gateway 3 (sliceCore s plot i).2) 1 (.slice plot i)) ∧
    ((∀ n plot i o, q.dest ≠ .fill n plot i o) → answerStalls s p = false)) ∧
  (∀ (p : Pkt) bs s, s.mesh.addr = some p.dest → answerStalls s p = false → openAnswer s p = some bs →
    (replayVerdict s p.window p.src true p.nonce = .replayed →
      let t := violation 0x06 .none (sourceModule p.src) (takeInbox p s)
      exec (.readResp p) s = .next t ∧ exec (.writeAck p) s = .next t ∧ exec (.atomicResp p) s = .next t) ∧
    (replayVerdict s p.window p.src true p.nonce = .full →
      let t := countReplayFull (takeInbox p s)
      exec (.readResp p) s = .next t ∧ exec (.writeAck p) s = .next t ∧ exec (.atomicResp p) s = .next t) ∧
    (replayVerdict s p.window p.src true p.nonce = .fresh →
      let a := takeNonce p.window p.src true p.nonce (takeInbox p s)
      exec (.readResp p) s = .next (answerRemote p.reqTag (if p.failed then none else some bs) p.poison p.failed a) ∧
      exec (.writeAck p) s = .next (answerRemote p.reqTag (some []) false p.failed a) ∧
      exec (.atomicResp p) s = .next (answerRemote p.reqTag (some bs) p.poison p.failed (mapHbm (fun h => { h with
        atomicOld := BitVec.ofNat 64 (numAt bs 0 8), atomicPoison := p.poison || p.failed }) a)))) ∧
  (∀ tag data poisoned failed s q, Tab.find s.mesh.remote tag = some q → let t := answerRemote tag data poisoned failed s
    (q.held = true → t = s) ∧
    (q.held = false → (∀ n p i o, q.dest ≠ .fill n p i o) → t = landRemote tag data poisoned failed s) ∧
    (∀ n p i o, q.held = false → q.dest = .fill n p i o → let legs := legsTo s q.field (.gateway 3 (sliceCore s p i).2) 0 (.slice p i)
      ((∀ l ∈ legs, keptBack s 1 (.slice p i) l = false) →
        t = landRemote tag data poisoned failed (grantHops 1 (legs.flatMap (·.hops)) s)) ∧
      (∀ l, legs.head? = some l → keptBack s 1 (.slice p i) l = true → Tab.find t.mesh.remote tag = some { q with held := true } ∧
        t = { s with mesh := { s.mesh with remote := t.mesh.remote }, grid := t.grid }))) ∧
  (∀ tag s, exec (.remoteRequestTimeout tag) s = .next (failRemote tag s)) ∧
  (∀ tag s q, Tab.find s.mesh.remote tag = some q → let t := landRemote tag none true true s
    t.mesh = { s.mesh with remote := Tab.erase s.mesh.remote tag } ∧
    (∀ c v, q.dest = .commit c → commitOf s q.field c = some v → commitOf t q.field c = some { v with bad := true }) ∧
    (∀ n p i o v, q.dest = .fill n p i o → transferOf s q.field n = some v → transferOf t q.field n = some { v with poisoned := true })) ∧
  (∀ tag s, Tab.find s.mesh.remote tag = none → failRemote tag s = s)

/-! ## Channels and queues -/

/-- Messages between modules: a channel message is taken only from the writer of an inbound channel, opened with the job key and fresh (R167, R168, R367), and
waits while the reader's traffic is held (R430), in its buffers where the gateway's pool has no room (R269); a forged one closes the channel with CHANNEL_FORGERY,
others are dropped and counted. A report of a reader opens, moves or closes the outbound channel that it concerns (R167, R170); a head report goes out when the
head has moved (R167, R430). -/
def Obligations.RemoteChannels : Prop :=
  (∀ (p : Pkt) s, s.mesh.addr ≠ some p.dest ∨ messageStalls s (numAt p.body 0 1) = true → exec (.channelMsg p) s = .next s) ∧
  (∀ (p : Pkt) s, s.mesh.addr = some p.dest → channelOf s (numAt p.body 0 1) = none →
    exec (.channelMsg p) s = .next (dropRemote p.src (takeInbox p s))) ∧
  (∀ (p : Pkt) s ch, let c := numAt p.body 0 1
    s.mesh.addr = some p.dest → messageStalls s c = false → channelOf s c = some ch → let a := takeInbox p s
    (ch.remoteIn = false ∨ ch.peerMesh ≠ p.src.toNat → exec (.channelMsg p) s = .next (dropRemote p.src a)) ∧
    (ch.remoteIn = true → ch.peerMesh = p.src.toNat → openBody s.job.jobKey p = none → exec (.channelMsg p) s =
      .next (record (ev 0x0306 6 [(16, c), (16, p.src.toNat)]).atHub (closeChannel c ch (dropRemote p.src a)))) ∧
    (∀ bs, ch.remoteIn = true → ch.peerMesh = p.src.toNat → openBody s.job.jobKey p = some bs →
      (replayVerdict s (4096 + c) p.src false p.nonce = .replayed → exec (.channelMsg p) s = .next (dropRemote p.src a)) ∧
      (replayVerdict s (4096 + c) p.src false p.nonce = .full → exec (.channelMsg p) s = .next (countReplayFull a)) ∧
      (replayVerdict s (4096 + c) p.src false p.nonce = .fresh →
        let n := takeNonce (4096 + c) p.src false p.nonce a
        let m : RemoteMsg := ⟨c, entriesIn (bs.drop 1)⟩
        let goal : Goal := .slice ch.readerPlot ch.readerAt
        let legs := legsTo n (fieldOfPlot ch.readerPlot) (.gateway 3 (sliceCore n ch.readerPlot ch.readerAt).2) 0 goal
        (∀ l, legs.head? = some l → keptBack n 2 goal l = true →
          exec (.channelMsg p) s = .next (park ⟨l.field, l.site, l.vc, 2, goal, .message m⟩ n)) ∧
        ((∀ l ∈ legs, keptBack n 2 goal l = false) →
          exec (.channelMsg p) s = .next (landMessage m (grantHops 2 (legs.flatMap (·.hops)) n)))))) ∧
  (∀ (m : RemoteMsg) s ch, channelOf s m.channel = some ch →
    ((chanQueue s m.channel ch).isOpen = true →
      landMessage m s = wakePlot ch.readerPlot (updChanQueue m.channel ch (fun q => m.entries.foldl (putEntry ch.ring) q) s)) ∧
    ((chanQueue s m.channel ch).isOpen = false →
      landMessage m s = forEach (m.entries.filter (fun e => e.kind = 0)) (fun _ => countDrop m.channel ch) s)) ∧
  (∀ (p : Pkt) s, s.mesh.addr ≠ some p.dest → exec (.channelReport p) s = .next s) ∧
  (∀ (p : Pkt) s, s.mesh.addr = some p.dest → openBody s.job.jobKey p = none →
    exec (.channelReport p) s = .next (dropRemote p.src (takeInbox p s))) ∧
  (∀ (p : Pkt) s bs, s.mesh.addr = some p.dest → openBody s.job.jobKey p = some bs → let r := reportIn p.src bs
    let b := takeInbox p s
    let a := takeNonce (4096 + r.channel) p.src true p.nonce b
    (replayVerdict s (4096 + r.channel) p.src true p.nonce = .replayed → exec (.channelReport p) s = .next (dropRemote p.src b)) ∧
    (replayVerdict s (4096 + r.channel) p.src true p.nonce = .full → exec (.channelReport p) s = .next (countReplayFull b)) ∧
    (replayVerdict s (4096 + r.channel) p.src true p.nonce = .fresh →
      (r.kind ≠ 3 → outboundFor s r = none → exec (.channelReport p) s = .next (dropRemote p.src b)) ∧
      (∀ c ch, r.kind ≠ 3 → outboundFor s r = some (c, ch) →
        (r.kind = 0 → exec (.channelReport p) s = .next (openReport c ch r a)) ∧
        (r.kind = 1 → (chanOf s c).pairing = 1 →
          exec (.channelReport p) s = .next (updChan c (fun v => { v with shadow := freeShadow r.head v.shadow }) a)) ∧
        (r.kind = 1 → (chanOf s c).pairing ≠ 1 → exec (.channelReport p) s = .next a) ∧
        (2 ≤ r.kind → s.ctl.mode ≠ .loaded → exec (.channelReport p) s = .next (closeOutbound c ch a)) ∧
        (2 ≤ r.kind → s.ctl.mode = .loaded → exec (.channelReport p) s = .next (updChan c (fun v => { v with pairing := 0 }) a))) ∧
      (∀ ch, r.kind = 3 → channelOf s r.channel = some ch → ch.remoteIn = true → ch.peerMesh = p.src.toNat →
        exec (.channelReport p) s = .next (updChanQueue r.channel ch Queue.close a)) ∧
      (r.kind = 3 → (∀ ch, channelOf s r.channel = some ch → ch.remoteIn = false ∨ ch.peerMesh ≠ p.src.toNat) →
        exec (.channelReport p) s = .next (dropRemote p.src b)))) ∧
  (∀ (r : Report) c ch s, (chanOf s c).pairing = 0 → r.ringSize = ch.ring → r.maxLenM1 + 1 = ch.maxLen →
    (chanOf (openReport c ch r s) c).pairing = 1 ∧ (chanOf (openReport c ch r s) c).shadow.isOpen = true ∧
    (chanOf (openReport c ch r s) c).shadow.head = r.head ∧ (chanOf (openReport c ch r s) c).shadow.tail = r.head) ∧
  (∀ c s ch, channelOf s c = some ch → ch.remoteIn = true → (chanQueue s c ch).isOpen = true →
    (chanQueue s c ch).head ≠ (chanOf s c).headReported → (plotOf s ch.readerPlot).fencedBy = 0 →
    exec (.headReport c) s = .next (reportQueue 1 c ch (updChan c (fun v => { v with headReported := (chanQueue s c ch).head }) s))) ∧
  (∀ c s, channelOf s c = none ∨ (∃ ch, channelOf s c = some ch ∧ (ch.remoteIn = false ∨ (chanQueue s c ch).isOpen = false ∨
    (chanQueue s c ch).head = (chanOf s c).headReported ∨ (plotOf s ch.readerPlot).fencedBy ≠ 0)) → exec (.headReport c) s = .next s)

/-- Rings and waits: a message of m entries goes to the tail when it fits there, to entry 0 behind a pad when it does not, and waits when neither has
room (R161), or while its reader's traffic is held (R429): a local writer's reservation then stands in the hold pool. Of the waiting writers the first in order of
plot and slice that fits is served, one message at a time of each writer (R160), and its wait is counted (R175); a message becomes readable with a good CRC and
without a double-bit error, else it is removed with a message fault on the reading slice (R159, R163; log entry 122 on which that is); an expired timer that is
not frozen (R73) is a stall fault that stops the plot (R171, R173). -/
def Obligations.QueueEvents : Prop :=
  (∀ m t s f, (m ≤ s - t → m ≤ f → placeInRing m t s f = some (t, false)) ∧
    (s - t < m → s - t ≤ f → m ≤ f - (s - t) → placeInRing m t s f = some (0, true)) ∧
    ((m ≤ s - t ∧ f < m) ∨ (s - t < m ∧ (f < s - t ∨ f - (s - t) < m)) → placeInRing m t s f = none)) ∧
  (∀ (ring seq : Nat) (payload : List Byte) (q : Queue), q.tail < ring → q.occupied ≤ ring →
    let m := payload.length / 32
    let free := ring - q.occupied
    (m ≤ ring - q.tail → m ≤ free → ∃ msg : QMsg, msg.start = q.tail ∧ msg.len = m ∧ msg.payload = payload ∧ msg.pad = false ∧
      q.place ring payload seq = some ({ q with msgs := q.msgs ++ [msg], tail := (q.tail + m) % ring }, none, q.tail)) ∧
    (ring - q.tail < m → m ≤ free - (ring - q.tail) → ∃ pad msg : QMsg, pad.pad = true ∧ pad.start = q.tail ∧ pad.len = ring - q.tail ∧
      msg.start = 0 ∧ msg.len = m ∧ msg.payload = payload ∧ msg.pad = false ∧
      q.place ring payload seq = some ({ q with msgs := q.msgs ++ [pad, msg], tail := m }, some q.tail, 0)) ∧
    ((m ≤ ring - q.tail ∧ free < m) ∨ (ring - q.tail < m ∧ free - (ring - q.tail) < m) → q.place ring payload seq = none)) ∧
  (∀ c ch a (payload : List Byte) s, ch.outbound = false →
    (plotHeld s ch.readerPlot = true → trySend c ch a payload s = none) ∧
    (plotHeld s ch.readerPlot = false →
      ((chanQueue s c ch).isOpen = false → trySend c ch a payload s = some (countDrop c ch s)) ∧
      ((chanQueue s c ch).isOpen = true → (chanQueue s c ch).place ch.ring payload (chanOf s c).seq = none → trySend c ch a payload s = none) ∧
      (∀ q pad at_, (chanQueue s c ch).isOpen = true → (chanQueue s c ch).place ch.ring payload (chanOf s c).seq = some (q, pad, at_) →
        trySend c ch a payload s = some (wakePlot ch.readerPlot (updChan c (fun v => { v with seq := ((chanOf s c).seq + 1) % 65536 })
          (updChanQueue c ch (fun _ => q.skip ch.ring) s)))))) ∧
  (∀ c ch (w : Waiter) (granted : State → State) s, let waits := updChan c (fun v => { v with waiters := v.waiters ++ [w] }) s
    ((∃ v ∈ (chanOf s c).waiters, v.sameWriter w = true) → sendOrWait c ch w granted s = waits) ∧
    ((∀ v ∈ (chanOf s c).waiters, v.sameWriter w = false) → ch.outbound = true → sendOrWait c ch w granted s = reserveOrWait c ch w granted s) ∧
    (trySend c ch (fieldOfPlot w.plot, sliceSite s w.plot w.slice) w.payload s = none → reserveOrWait c ch w granted s = waits) ∧
    (∀ t, trySend c ch (fieldOfPlot w.plot, sliceSite s w.plot w.slice) w.payload s = some t → reserveOrWait c ch w granted s = granted t)) ∧
  (∀ c ch (w : Waiter) granted s, ch.outbound = false → (∀ v ∈ (chanOf s c).waiters, v.sameWriter w = false) →
    let goal : Goal := .slice ch.readerPlot ch.readerAt
    let legs := legsTo s (fieldOfPlot w.plot) (sliceSite s w.plot w.slice) 0 goal
    ((∀ l ∈ legs, keptBack s 2 goal l = false) →
      sendOrWait c ch w granted s = reserveOrWait c ch w granted (grantHops 2 (legs.flatMap (·.hops)) s)) ∧
    (∀ l, legs.head? = some l → keptBack s 2 goal l = true → sendOrWait c ch w granted s = park ⟨l.field, l.site, l.vc, 2, goal, .reserve c w.plot w.node⟩
      (updChan c (fun v => { v with waiters := v.waiters ++ [{ w with held := true }] }) s))) ∧
  (∀ (s : State) (l : List Waiter), let g := grantOrder s l
    (∀ w ∈ g, w ∈ l ∧ plotHeld s w.plot = false ∧ w.held = false) ∧
    (∀ w ∈ l, plotHeld s w.plot = false → (∀ v ∈ l, v.held = true → v.sameWriter w = false) → ∃ v ∈ g, v.sameWriter w = true) ∧
    g.Pairwise (fun a b => a.sameWriter b = false) ∧
    g.Pairwise (fun a b => a.plot < b.plot ∨ a.plot = b.plot ∧ (a.slice < b.slice ∨ a.slice = b.slice ∧ a.since.toNat ≤ b.since.toNat))) ∧
  (∀ c ch w l s t, channelOf s c = some ch → grantOrder s (chanOf s c).waiters = w :: l →
    trySend c ch (fieldOfPlot w.plot, sliceSite s w.plot w.slice) w.payload s = some t → exec (.queueReservation c) s = .next (endWait c ch w t)) ∧
  (∀ c s, channelOf s c = none ∨ (∃ ch, channelOf s c = some ch ∧ ∀ w ∈ (chanOf s c).waiters,
    trySend c ch (fieldOfPlot w.plot, sliceSite s w.plot w.slice) w.payload s = none) → exec (.queueReservation c) s = .next s) ∧
  (∀ c u s, channelOf s c = none ∨ (∃ ch, channelOf s c = some ch ∧ (ch.outbound = true ∨ plotHeld s ch.readerPlot = true ∨
    nextUnread ch.ring (chanQueue s c ch).head (chanQueue s c ch).msgs = none)) → exec (.messageReadable c u) s = .next s) ∧
  (∀ c (u : QueueUpset) s ch m, channelOf s c = some ch → ch.outbound = false → plotHeld s ch.readerPlot = false →
    nextUnread ch.ring (chanQueue s c ch).head (chanQueue s c ch).msgs = some m →
    let a := correctQueue ch u.corrected s
    let double := m.ue ++ m.wordsOf u.doubleBit
    let slice := readingSlice s c ch
    (crc32 m.payload = m.crc → double = [] → exec (.messageReadable c u) s = .next (updChan c (fun v => { v with readers := [] })
      (updChanQueue c ch (fun q => { q with msgs := q.msgs.map (fun x => if x.start = m.start then { x with readable := true } else x) }) a))) ∧
    (crc32 m.payload ≠ m.crc ∨ double ≠ [] → exec (.messageReadable c u) s = .next (messageFault c m.seq ch.readerPlot
      slice (updChanQueue c ch (fun q => { q.dropMsg ch.ring m.start with crcFail := satInc 16 q.crcFail })
        (noteQueueUe ch double.eraseDups 8 slice a))))) ∧
  (∀ (ch : Channel) w s, let t := correctQueue ch [w] s
    (sliceOf t ch.readerPlot ch.readerAt).spadCe = satInc 64 (sliceOf s ch.readerPlot ch.readerAt).spadCe ∧
    t = withRecords t { s with plots := t.plots }) ∧
  (∀ c side k s ch w, channelOf s c = some ch → ((if side = 0 then (chanOf s c).waiters else (chanOf s c).readers).drop k).head? = some w →
    timersFrozen s w.plot = false → side ≠ 1 ∨ ch.readNoTimeout = false → ∃ a, exec (.queueStallTimeout c side k) s = .next (queueStall c side w a) ∧
    (chanOf a c).waiters = (if side = 0 then (chanOf s c).waiters.erase w else (chanOf s c).waiters) ∧
    (chanOf a c).readers = (if side = 0 then (chanOf s c).readers else (chanOf s c).readers.erase w) ∧
    (side = 0 → (chanQueue a c ch).stallCycles = satAdd 64 (chanQueue s c ch).stallCycles (cyclesSince s w.plot w.since))) ∧
  (∀ c side k s, channelOf s c = none ∨ (∃ ch, channelOf s c = some ch ∧
    (((if side = 0 then (chanOf s c).waiters else (chanOf s c).readers).drop k).head? = none ∨
     ∃ w, ((if side = 0 then (chanOf s c).waiters else (chanOf s c).readers).drop k).head? = some w ∧
       (timersFrozen s w.plot = true ∨ (side = 1 ∧ ch.readNoTimeout = true)))) → exec (.queueStallTimeout c side k) s = .next s) ∧
  (∀ c side w s, let t := queueStall c side w s
    (plotOf t w.plot).arr.stopped = true ∧
    (s.ctl.mode = .running → t.ctl.mode = .draining ∧ t.job.faulted = true) ∧ t.hbm = s.hbm ∧
    t.gateh = s.gateh ∧ t.mesh = s.mesh ∧ t.links = s.links)

/-! ## Plain writes and host DMA -/

/-- A byte written to the request ring of a served mailbox or to the register aperture is stored there alone; a longer write is its bytes in order; a write that
covers `REQ_TAIL` or `RSP_HEAD` stores the field last and takes up what waits (R203, R303). On the management bus a write reaches the window of mailbox 0 at
the module's own address (R476; log entry 129 on what lies beyond). Host DMA at a root reaches staging regions only; outside them a write is discarded, a read
brings zeros, and the access is counted (R56, R278, R382); inside them a whole word is stored and read back. The HOST packet that brought an access is taken
with it (R278). -/
def Obligations.HostAccess : Prop :=
  (∀ a l x s, exec (.registerWrite (.host a) l x) s = writeFrom a l x (takeHost s)) ∧
  (∀ b l x s, (busAnswers s b = true ↔ s.pins.auxOn = true ∧ b = 0x60 + 2 * flag s.pins.maddr1 + flag s.pins.maddr0) ∧
    (busAnswers s b = false → exec (.registerWrite (.bus b) l x) s = .next s) ∧
    (busAnswers s b = true → exec (.registerWrite (.bus b) l x) s =
      writeFrom (0x600000000000 + numAt l 0 2) (((l.drop 2).take 256).take (65536 - numAt l 0 2)) x s)) ∧
  (∀ a l x s, a + l.length ≤ 0x600000000000 ∨ 0x600000200000 ≤ a ∨
    (∃ mb o, mb < 32 ∧ a = 0x600000000000 + 65536 * mb + o ∧ 0x100 ≤ o ∧ o + l.length ≤ 65536) → writeFrom a l x s = .next (writeRegisters a l s)) ∧
  (∀ mb (v : U16) x s, mb < 32 → servedMailbox mb s = true → v.toNat < ringSize →
    writeFrom (0x600000000000 + 65536 * mb) (le 2 v.toNat) x s = takeWaiting mb x (updBox mb (fun b => { b with reqTail := v.toNat }) s) ∧
    writeFrom (0x600000000000 + 65536 * mb + 0xC) (le 2 v.toNat) x s =
      takeWaiting mb x (updBox mb (fun b => placeAll (writing mb s) b.delayed (b.readTo v.toNat)) s)) ∧
  (∀ a b l s, writeRegisters a (b :: l) s = writeRegisters (a + 1) l (writeRegister a b s)) ∧
  (∀ a v s, 0x600000000000 ≤ a → a < 0x600000200000 → let mb := (a - 0x600000000000) / 65536
    (servedMailbox mb s = true → 0x100 ≤ a % 65536 → a % 65536 < 0x8080 → writeRegister a v s =
      updBox mb (fun b => { b with ring := Mem.set b.ring (a % 65536 - 0x100) v }) s) ∧
    (servedMailbox mb s = false ∨ a % 65536 < 0x100 ∨ 0x8080 ≤ a % 65536 → writeRegister a v s = s)) ∧
  (∀ a v s, 0x700000000000 ≤ a → a < 0x700001000000 →
    (s.pins.auxOn = true → writeRegister a v s = mapMbx (fun m => { m with regs := Mem.set m.regs (a - 0x700000000000) v }) s) ∧
    (s.pins.auxOn = false → writeRegister a v s = s)) ∧
  (∀ a v s, a < 0x600000000000 ∨ (0x600000200000 ≤ a ∧ a < 0x700000000000) ∨ 0x700001000000 ≤ a → writeRegister a v s = s) ∧
  (∀ w a d s, s.mesh.root = false ∨ d.bytes = [] → exec (.hostDmaAccess w a d) s = .next (takeHost s)) ∧
  (∀ a d s, s.mesh.root = true → d.bytes ≠ [] → stagingAt s a d.bytes.length = none →
    let v := violation 0x09 .none (sourceHost s) (takeHost s)
    exec (.hostDmaAccess true a d) s = .next v ∧
    exec (.hostDmaAccess false a d) s = .next (answerHost (List.replicate d.bytes.length 0#8) false v)) ∧
  (∀ a d s id r, s.mesh.root = true → d.bytes.length = 64 → a % 256 = 0 → stagingAt s a 64 = some (id, r) → r.base % 64 = 0 → r.code ≠ 2 →
    let x := r.phys a
    Mem.wf s.hbm.data = true → Tab.find s.hbm.filling (granuleOf x) = none → s.hbm.isWritten (granuleOf x) = true → unreachable s r x = false → ∃ t,
    exec (.hostDmaAccess true a d) s = .next t ∧ Mem.read t.hbm.data x 64 = d.bytes ∧
    (∀ y, y < x ∨ x + 64 ≤ y → Mem.get t.hbm.data y = Mem.get s.hbm.data y) ∧ t.hbm.isMarked x = false ∧ t = { takeHost s with hbm := t.hbm } ∧
    exec (.hostDmaAccess false a ⟨d.bytes, []⟩) t = .next (answerHost d.bytes false (takeHost t)))

/-! ## Codes and keys -/

/-- A failed lane leaves two wrong symbols in a word: the strong code corrects two such lanes, the light code none (R215 to R217). The parity of an
archive block is 256 bytes, its check count over 16 less 1 at 200, zeros from 201 on, and stands in the top eighth of the pseudo-channel that holds the
block, apart from every other block's (R212, R219). A word of 64 bytes touches 43 or 44 of the symbols of 12 bits; a block without a failed word
needs no decode, and one whose failed and marked symbols are no more than the check symbols decodes (R220); a part of a block can be written only while its
marked words decode (R221). What GCM sealed opens under the same key, the key stream undoes itself, a tag has 16
bytes, and a derivation gives as many bytes as are asked (R308, R361). -/
def Obligations.CodesAndKeys : Prop :=
  (∀ (r : Region) (poison : List Nat) (x : Nat) (e : WordErrors), (∀ k, nth e.symbols k 0 = 0) →
    (r.code = 0 → (e.lanes = 1 → r.decodeWord poison x e = .corrected 2) ∧ (e.lanes = 2 → r.decodeWord poison x e = .corrected 4) ∧
      (3 ≤ e.lanes → r.decodeWord poison x e = .failed)) ∧
    (r.code = 1 → 1 ≤ e.lanes → r.decodeWord poison x e = .failed) ∧
    (r.code ≠ 2 → e.lanes = 0 → r.decodeWord poison x e = .clean)) ∧
  (∀ (pc : Nat) (block : List Byte), pc < 8 → (parityBytes pc block).length = 256 ∧ nth (parityBytes pc block) 200 0#8 = BitVec.ofNat 8 pc ∧
    (∀ k, 201 ≤ k → k < 256 → nth (parityBytes pc block) k 0#8 = 0#8)) ∧
  (∀ x y, x % 2 ^ 31 < 1879048192 → y % 2 ^ 31 < 1879048192 → parityAt x / 2 ^ 31 = x / 2 ^ 31 ∧ 1879048192 ≤ parityAt x % 2 ^ 31 ∧
    (x / 2048 = y / 2048 → parityAt x = parityAt y) ∧ (x / 2048 ≠ y / 2048 → parityAt x + 256 ≤ parityAt y ∨ parityAt y + 256 ≤ parityAt x)) ∧
  (∀ w, w < 32 → (symbolsOf w).length = 43 ∨ (symbolsOf w).length = 44) ∧
  (∀ (r : Region) (e : WordErrors) (marked : List Nat), (∀ w ∈ e.badWords, 32 ≤ w.1 ∨ w.1 ∈ marked) → r.decodeBlock e marked = .clean) ∧
  (∀ (r : Region) (e : WordErrors) (marked : List Nat), (marked = [] → r.rewritable e marked = true) ∧
    (marked ≠ [] → (r.rewritable e marked = true ↔ 2 * e.unknown + erased marked ≤ r.checks))) ∧
  (∀ (checks : Nat) (bad : Tab Nat) (marked : List Nat), erased (bad.map (·.1) ++ marked) ≤ checks → blockDecodes checks bad marked 0 = true) ∧
  (∀ (key : BitVec 256) (iv : BitVec 96) (bs aad text : List Byte), gcmText key iv (gcmText key iv bs) = bs ∧ (gcmText key iv bs).length = bs.length ∧
    (gcmTag key iv aad text).length = 16 ∧ (∀ n, gcmOpen n key iv aad (gcmSeal n key iv aad bs) = some bs)) ∧
  (∀ (prk info : List Byte) (n : Nat), (hkdfExpand prk info n).length = n)

/-! ## Memory controllers -/

/-- Words of HBM: a store of a whole word replaces it and clears its mark; a partial one is a read-modify-write that an uncorrectable word leaves
unwritten (R213); a read gives the word, zeros where the granule was never written, or poison from a marked, failed or lost word (R217, R222,
R238). What a read of a strong or light word with wrong symbols gives is the code's: a failed lane is corrected under STRONG and not under LIGHT (R215 to
R217). The first write to a granule fills it with zeros (R223). Scrub marks a word that fails and changes no data, and reports once a pass that it falls behind
(R229, R230). -/
def Obligations.MemoryWords : Prop :=
  (∀ (id : Nat) (r : Region) (x : Nat) (bs : List Byte) (e : WordErrors) (s : State), Mem.wf s.hbm.data = true → bs.length = 64 → x % 64 = 0 →
    let t := (writeWord id r x bs e s).1
    (writeWord id r x bs e s).2 = false ∧ Mem.read t.hbm.data x 64 = bs ∧ t.hbm.isMarked x = false ∧
    (∀ y, y < x ∨ x + 64 ≤ y → Mem.get t.hbm.data y = Mem.get s.hbm.data y) ∧ t = { s with hbm := t.hbm }) ∧
  (∀ (id : Nat) (r : Region) (x : Nat) (bs : List Byte) (e : WordErrors) (s : State), Mem.wf s.hbm.data = true → bs.length < 64 →
    unreachable s r x = false → s.hbm.isWritten (granuleOf x) = true → let t := (writeWord id r x bs e s).1
    let o := r.decodeWord s.hbm.poison x e
    (s.hbm.isMarked x = true ∨ o = .failed → (writeWord id r x bs e s).2 = true ∧ t.hbm.data = s.hbm.data) ∧
    (s.hbm.isMarked x = false → o ≠ .failed → (writeWord id r x bs e s).2 = false ∧ Mem.read t.hbm.data x bs.length = bs ∧
      (∀ y, y < x ∨ x + bs.length ≤ y → Mem.get t.hbm.data y = Mem.get s.hbm.data y))) ∧
  (∀ (id : Nat) (r : Region) (x : Nat) (e : WordErrors) (src : Nat) (s : State), let w := readWord id r x e src s
    let o := r.decodeWord s.hbm.poison x e
    (unreachable s r x = true → w = (s, List.replicate 64 0#8, true)) ∧
    (unreachable s r x = false → s.hbm.isWritten (granuleOf x) = false → w = (s, List.replicate 64 0#8, false)) ∧
    (unreachable s r x = false → s.hbm.isWritten (granuleOf x) = true → s.hbm.isMarked x = true → w = (s, List.replicate 64 0#8, true)) ∧
    (unreachable s r x = false → s.hbm.isWritten (granuleOf x) = true → s.hbm.isMarked x = false → o ≠ .failed →
      w.2 = (Mem.read s.hbm.data (x / 64 * 64) 64, false) ∧ w.1.hbm = s.hbm) ∧
    (unreachable s r x = false → s.hbm.isWritten (granuleOf x) = true → s.hbm.isMarked x = false → o = .failed →
      w.2 = (List.replicate 64 0#8, true) ∧ w.1.hbm.isMarked x = true ∧ w.1.hbm.data = s.hbm.data)) ∧
  (∀ (r : Region) (poison : List Nat) (x : Nat) (e : WordErrors), r.code = 0 ∨ r.code = 1 → let cap := if r.code = 0 then 4 else 1
    let wrong := fun k => 2 * e.lanes + nth e.symbols k 0
    (wrong 0 = 0 → r.decodeWord poison x e = .clean) ∧ (1 ≤ wrong 0 → wrong 0 ≤ cap → r.decodeWord poison x e = .corrected (wrong 0)) ∧
    (cap < wrong 0 → wrong 1 ≤ cap → r.decodeWord poison x e = .retried (wrong 1)) ∧
    (cap < wrong 0 → cap < wrong 1 → wrong 2 ≤ cap → r.decodeWord poison x e = .retried (wrong 2)) ∧
    (cap < wrong 0 → cap < wrong 1 → cap < wrong 2 → r.decodeWord poison x e = .failed) ∧
    (r.code = 0 → e.lanes = 1 → e.symbols = [] → r.decodeWord poison x e = .corrected 2) ∧
    (r.code = 1 → 1 ≤ e.lanes → r.decodeWord poison x e = .failed)) ∧
  (∀ (g : Nat) (s : State), let t := fillGranule g s
    (∀ x, granuleOf x = g → Mem.get t.hbm.data x = 0#8 ∧ t.hbm.isMarked x = false) ∧ t.hbm.isWritten g = true ∧
    (∀ x, granuleOf x ≠ g → Mem.get t.hbm.data x = Mem.get s.hbm.data x ∧ t.hbm.isMarked x = s.hbm.isMarked x) ∧
    (∀ k, k ≠ g → t.hbm.isWritten k = s.hbm.isWritten k)) ∧
  (∀ (word : Nat) (e : WordErrors) (late : Bool) (s : State), ∃ t, exec (.patrolScrubRead word e late) s = .next t ∧
    let x := word * 64
    let k := stackOfPhys x
    t.hbm.data = s.hbm.data ∧ t.hbm.written = s.hbm.written ∧ t.hbm.regions = s.hbm.regions ∧
    (scrubs s = false ∨ s.hbm.regions.find? (fun p => p.2.holdsGranule (granuleOf x)) = none → t = s) ∧
    (∀ id r, s.hbm.regions.find? (fun p => p.2.holdsGranule (granuleOf x)) = some (id, r) → (r.code = 1 → t = s) ∧
      (r.code ≠ 1 → scrubs s = true → unreachable s r x = false →
        (late = true → Tab.find (stackOf t k).late r.code = some (scrubPass s r.code)) ∧
        (s.hbm.isWritten (granuleOf x) = true → r.code = 0 → s.hbm.isMarked x = false →
          (r.decodeWord s.hbm.poison x e ≠ .failed → t.hbm.poison = s.hbm.poison) ∧
          (r.decodeWord s.hbm.poison x e = .failed → t.hbm.isMarked x = true)) ∧
        (s.hbm.isWritten (granuleOf x) = true → r.code = 2 → let marked := markedWords s.hbm.poison x
          (r.decodeBlock e marked ≠ .failed → t.hbm.poison = s.hbm.poison) ∧
          (r.decodeBlock e marked = .failed → ∀ w ∈ badWordsOf e marked, t.hbm.isMarked (x / 2048 * 2048 + w.1 * 64) = true)))) ∧
    t.plots = s.plots ∧ t.mesh = s.mesh ∧ t.gateh = s.gateh ∧ t.ctl = s.ctl)

/-- Requests that have reached their stack controller (one that a hold keeps has not: R188): a read is served, or held while its granule fills; a write to a granule never written starts the fill, at most four at
once on a stack, and waits for it (R213, R217, R222, R223); requests of one transfer to one line are taken in order (R196). The end of a fill without a
waiting request stores the zeros, the return of a line takes it off the lines that a requester waits for, and an entry closes after its 256th
cycle (R198 to R201). -/
def Obligations.MemoryRequests : Prop :=
  (∀ f rid os s q, requestOf s f rid = some q → q.issued = false → q.held = 0 → blockedRequest s f rid q = false → q.write = false →
    ((∀ g, requestGranule s q = some g → Tab.find s.hbm.filling g = none) →
      exec (.hbmRead f rid os) s = .next (performRead f rid true os s)) ∧
    (∀ g, requestGranule s q = some g → (Tab.find s.hbm.filling g).isSome = true → exec (.hbmRead f rid os) s = .next (waitOnFill g f rid s)) ∧
    exec (.hbmWrite f rid os) s = .next s) ∧
  (∀ f rid os s q, requestOf s f rid = some q → q.issued = false → q.held = 0 → blockedRequest s f rid q = false → q.write = true →
    (requestGranule s q = none → exec (.hbmWrite f rid os) s = .next (performWrite f rid os s)) ∧
    (∀ g, requestGranule s q = some g →
      ((fieldOf s (g / 2 ^ 20 / 4)).fenced = true ∨ (Tab.find s.hbm.filling g = none ∧ s.hbm.isWritten g = true) →
        exec (.hbmWrite f rid os) s = .next (performWrite f rid os s)) ∧
      ((fieldOf s (g / 2 ^ 20 / 4)).fenced = false → (Tab.find s.hbm.filling g).isSome = true ∨
        (s.hbm.isWritten g = false ∧ (s.hbm.filling.filter (fun e => e.1 / 2 ^ 20 = g / 2 ^ 20)).length < 4) →
        exec (.hbmWrite f rid os) s = .next (waitOnFill g f rid s)) ∧
      ((fieldOf s (g / 2 ^ 20 / 4)).fenced = false → Tab.find s.hbm.filling g = none → s.hbm.isWritten g = false →
        4 ≤ (s.hbm.filling.filter (fun e => e.1 / 2 ^ 20 = g / 2 ^ 20)).length → exec (.hbmWrite f rid os) s = .next s)) ∧
    exec (.hbmRead f rid os) s = .next s) ∧
  (∀ f rid os s, requestOf s f rid = none ∨ (∃ q, requestOf s f rid = some q ∧ (q.issued = true ∨ q.held ≠ 0 ∨ blockedRequest s f rid q = true)) →
    exec (.hbmRead f rid os) s = .next s ∧ exec (.hbmWrite f rid os) s = .next s) ∧
  (∀ g f rid s, (f, rid) ∈ Tab.get (waitOnFill g f rid s).hbm.filling g [] ∧
    waitOnFill g f rid s = { s with hbm := { s.hbm with filling := (waitOnFill g f rid s).hbm.filling } }) ∧
  (∀ g s, exec (.granuleFillComplete g) s = .next (completeFill g s)) ∧
  (∀ g s, (Tab.find s.hbm.filling g = none → completeFill g s = s) ∧ (Tab.find s.hbm.filling g = some [] →
    completeFill g s = fillGranule g (mapHbm (fun h => { h with filling := Tab.erase h.filling g }) s))) ∧
  (∀ k e o s, exec (.dramReadReturn k e o) s = .next (returnEntry k e o s)) ∧
  (∀ k e o s, (∀ m, Tab.find (stackOf s k).merge e = some m → m.returned = true) → returnEntry k e o s = s) ∧
  (∀ k e o s m, Tab.find (stackOf s k).merge e = some m → m.returned = false → let t := returnEntry k e o s
    (m.takes = true → ∃ data p, Tab.find (stackOf t k).merge e = some { m with returned := true, copy := some data, poison := p }) ∧
    (m.takes = false → Tab.find (stackOf t k).merge e = none) ∧
    (∀ f rid v, m.requesters = [(f, rid)] → requestOf s f rid = some v → v.issued = true → v.waiting.filter (· ≠ m.line) ≠ [] →
      ∃ u, requestOf t f rid = some u ∧ u.waiting = v.waiting.filter (· ≠ m.line)) ∧
    t.hbm.data = s.hbm.data ∧ t.hbm.written = s.hbm.written ∧ t.hbm.regions = s.hbm.regions) ∧
  (∀ k e s m, Tab.find (stackOf s k).merge e = some m → ∃ t, exec (.mergeEntryClose k e) s = .next t ∧
    (stackOf t k).merge = (if m.returned then Tab.erase (stackOf s k).merge e else Tab.set (stackOf s k).merge e { m with takes := false }) ∧
    (∀ j, j ≠ k → stackOf t j = stackOf s j) ∧ t = { s with hbm := { s.hbm with stks := t.hbm.stks } }) ∧
  (∀ k e s, Tab.find (stackOf s k).merge e = none → ∃ t, exec (.mergeEntryClose k e) s = .next t ∧ (∀ j, stackOf t j = stackOf s j) ∧
    t = { s with hbm := { s.hbm with stks := t.hbm.stks } })

/-- Atomics (R214): on an aligned operand in a region of the job's owner with the atomic right the old value is the answer and the new one is stored, in one
step: sum, new value, compared value, signed maximum, or; a marked or failed word answers poison and stays as it is. Elsewhere the access is a silent violation:
it answers zero and stores nothing (R56, R204; an operand that is not aligned: log entry 19). -/
def Obligations.Atomics : Prop :=
  (∀ (a : AtomicAddr) (id : Nat) (r : Region) (s : State), regionAt s.hbm.regions a.addr = some (id, r) → r.base % 64 = 0 → r.owner = s.job.principal →
    bit r.rights 2 = true → let x := r.phys a.addr
    Mem.wf s.hbm.data = true → Tab.find s.hbm.filling (granuleOf x) = none → s.hbm.isWritten (granuleOf x) = true → unreachable s r x = false →
    (s.hbm.isMarked x = false → ∀ e, r.decodeWord s.hbm.poison x e ≠ .failed →
      let old := fun n => leNat (Mem.read s.hbm.data x n)
      let gives := fun (c : Instr) (n new : Nat) => ∃ t, exec c s = .next t ∧ t.hbm.atomicOld = BitVec.ofNat 64 (old n) ∧
        t.hbm.atomicPoison = false ∧ leNat (Mem.read t.hbm.data x n) = new ∧
        (∀ y, y < x ∨ x + n ≤ y → Mem.get t.hbm.data y = Mem.get s.hbm.data y) ∧ t.hbm.regions = s.hbm.regions ∧ t.hbm.written = s.hbm.written
      (∀ (w8 : Bool) (v : U64), let n := if w8 then 8 else 4
        a.addr % n = 0 → gives (.fetchAdd a w8 v e) n ((old n + v.toNat) % 256 ^ n) ∧ gives (.swap a w8 v e) n (v.toNat % 256 ^ n) ∧
          gives (.fetchMax a w8 v e) n (if ofBits (8 * n) (old n) < ofBits (8 * n) v.toNat then v.toNat % 256 ^ n else old n) ∧
          gives (.fetchOr a w8 v e) n ((old n ||| v.toNat) % 256 ^ n)) ∧
      (∀ (v cmp : U64), a.addr % 8 = 0 → gives (.compareSwap a v cmp e) 8 (if old 8 = cmp.toNat then v.toNat else old 8))) ∧
    (∀ e, s.hbm.isMarked x = true ∨ r.decodeWord s.hbm.poison x e = .failed →
      let fails := fun (c : Instr) => ∃ t, exec c s = .next t ∧ t.hbm.atomicOld = 0#64 ∧ t.hbm.atomicPoison = true ∧ t.hbm.data = s.hbm.data
      (∀ (w8 : Bool) (v : U64), a.addr % (if w8 then 8 else 4) = 0 → fails (.fetchAdd a w8 v e) ∧ fails (.swap a w8 v e) ∧
        fails (.fetchMax a w8 v e) ∧ fails (.fetchOr a w8 v e)) ∧
      (∀ (v cmp : U64), a.addr % 8 = 0 → fails (.compareSwap a v cmp e)))) ∧
  (∀ (a : AtomicAddr) (w8 : Bool) (v cmp : U64) (e : WordErrors) (s : State), let src := sourceSlice s a.plot a.slice
    let silent := fun (c : Instr) (code : Nat) (o : VScope) => exec c s = .next (atomicAnswer 0 false (violation code o src s))
    let n := if w8 then 8 else 4
    (regionAt s.hbm.regions a.addr = none → let code := if closedRange a.addr then 0x03 else 0x01
      silent (.fetchAdd a w8 v e) code .none ∧ silent (.swap a w8 v e) code .none ∧ silent (.fetchMax a w8 v e) code .none ∧
      silent (.fetchOr a w8 v e) code .none ∧ silent (.compareSwap a v cmp e) code .none) ∧
    (∀ id r, regionAt s.hbm.regions a.addr = some (id, r) →
      (r.owner ≠ s.job.principal ∨ bit r.rights 2 = false ∨ a.addr % n ≠ 0 → silent (.fetchAdd a w8 v e) 0x02 (.region id) ∧
        silent (.swap a w8 v e) 0x02 (.region id) ∧ silent (.fetchMax a w8 v e) 0x02 (.region id) ∧ silent (.fetchOr a w8 v e) 0x02 (.region id)) ∧
      (r.owner ≠ s.job.principal ∨ bit r.rights 2 = false ∨ a.addr % 8 ≠ 0 → silent (.compareSwap a v cmp e) 0x02 (.region id))))

/-! ## The plot sequencer -/

/-- A chain that reaches its descriptor opens the run: the next epoch, the counter at 0, no tile counted, the parameters of this moment (R98);
or it joins an opening, or waits (R98). A slice takes the next items from the work counter until
the items are gone (R93, R96). -/
def Obligations.RunsAndWorkCounters : Prop :=
  (∀ (p c : Nat) (s : State) (ch : Chain) (dd : Desc), Tab.find (plotOf s p).chains c = some ch → descOf s p ch.desc = some dd →
    ch.status = 0 → seqRuns s p = true → let f := fieldOfPlot p
    let r := runOf s f dd.runId
    (r.isOpen = false → ∃ t, exec (.runOpen p c) s = .next t ∧ (runOf t f dd.runId).isOpen = true ∧
      (runOf t f dd.runId).epoch = (r.epoch + 1) % 65536 ∧ (runOf t f dd.runId).count = 0 ∧ (runOf t f dd.runId).bits = [] ∧
      (runOf t f dd.runId).transit = 0 ∧ (runOf t f dd.runId).params = paramsOf s p ∧ (runOf t f dd.runId).joined = [p] ∧
      counterOf t p dd = 0 ∧ Tab.find (plotOf t p).chains c = some ⟨ch.desc, 1⟩ ∧ (∀ k, k ≠ dd.runId → runOf t f k = runOf s f k) ∧
      (∀ g, g ≠ f → fieldOf t g = fieldOf s g) ∧ t.hbm = (clearLedger f dd.runId s).hbm ∧ t.gateh = s.gateh ∧ t.mesh = s.mesh ∧
      t.links = s.links) ∧
    (r.isOpen = true → r.desc = ch.desc → p ∉ r.joined → (∃ a ∈ r.active, a.1 = p) →
      exec (.runOpen p c) s = .next (joinRun p c ch.desc dd s)) ∧
    (r.isOpen = true → r.desc ≠ ch.desc ∨ p ∈ r.joined ∨ (∀ a ∈ r.active, a.1 ≠ p) → exec (.runOpen p c) s = .next s)) ∧
  (∀ (p c : Nat) (s : State), Tab.find (plotOf s p).chains c = none ∨ (∃ ch, Tab.find (plotOf s p).chains c = some ch ∧
    (descOf s p ch.desc = none ∨ ch.status ≠ 0 ∨ seqRuns s p = false)) → exec (.runOpen p c) s = .next s) ∧
  (∀ (p i d : Nat) (s : State) (r : Run) (dd : Desc), joinedRun s p d = some (r, dd) → canIssue s p i = true → i ∈ maskSlices dd.sliceMask →
    (workOf s p i d).stopped = false → fetchDue (sliceOf s p i) dd (workOf s p i d) = true → let v := counterOf s p dd
    (r.halted = true → exec (.workCounterFetch p i d) s = .next (stopSlice p i d dd s)) ∧
    (r.halted = false → dd.items ≤ v →
      exec (.workCounterFetch p i d) s = .next (stopSlice p i d dd (setCounter p dd ((v + dd.chunk) % 2 ^ 48) s))) ∧
    (r.halted = false → v < dd.items → ∃ t, exec (.workCounterFetch p i d) s = .next t ∧ counterOf t p dd = (v + dd.chunk) % 2 ^ 48 ∧
      workOf t p i d = { workOf s p i d with ranges := (workOf s p i d).ranges ++ [(v, min dd.chunk (dd.items - v))] } ∧
      (∀ q, q ≠ p → plotOf t q = plotOf s q) ∧ t = { s with plots := t.plots, flds := t.flds })) ∧
  (∀ (p i d : Nat) (s : State), joinedRun s p d = none ∨ (∃ r dd, joinedRun s p d = some (r, dd) ∧ (canIssue s p i = false ∨
    i ∉ maskSlices dd.sliceMask ∨ (workOf s p i d).stopped = true ∨ fetchDue (sliceOf s p i) dd (workOf s p i d) = false)) →
    exec (.workCounterFetch p i d) s = .next s) ∧
  (∀ (p i d : Nat) (dd : Desc) (s : State), (workOf (stopSlice p i d dd s) p i d).stopped = true)

/-- Fills and transfers: the next fill of an operand, for one of the issues to come within its distance, goes out when its part is empty and none is on its way
there, else it stalls or waits; a misaligned address is an issue fault (R67, R93, R101). A request takes an engine and a tracked request, moves the transfer on, and goes where its
address leads: a region with the right, else a silent violation (R193 to R196, R382). The end of a fill makes its part full; a poisoned one is
issued once more (R65, R108, R218). A stall that lasts too long is a job fault (R71 to R74). -/
def Obligations.FillsAndTransfers : Prop :=
  (∀ (p i d op : Nat) (s : State) (r : Run) (dd : Desc) (n place : Nat), liveRun s p i d = some (r, dd) → dd.kind ≠ 2 → op ∈ dd.usedOps → op ≠ 3 →
    let w := workOf s p i d
    let sl := sliceOf s p i
    let slot := dd.slotFor op
    let part := ((sl.slot slot).prod + (fillsInFlight s p i slot).length) % sl.partsOf slot
    nextFill sl dd w d op = some (n, place) →
    (n, place) ∈ w.upcoming dd (if dd.kind ≠ 0 then 1 else if sl.runs d then prefetchOf sl dd op else prefetchOf sl dd op + 1) ∧
    (addrAligned (dd.addr op place) = false → exec (.fillIssue p i d op) s = .next (issueFault p i d dd 0x09 (place / dd.steps) s)) ∧
    (addrAligned (dd.addr op place) = true → sl.partFull slot part = true →
      exec (.fillIssue p i d op) s = .next (stallSlice p i slot part true d s)) ∧
    (addrAligned (dd.addr op place) = true → sl.partFull slot part = false → (∃ v ∈ fillsInFlight s p i slot, v.part = part) →
      exec (.fillIssue p i d op) s = .next s) ∧
    (addrAligned (dd.addr op place) = true → sl.partFull slot part = false → (∀ v ∈ fillsInFlight s p i slot, v.part ≠ part) → ∃ t v,
      exec (.fillIssue p i d op) s = .next t ∧ transferOf t (fieldOfPlot p) (fieldOf s (fieldOfPlot p)).nextId = some v ∧ v.plot = p ∧ v.slice = i ∧
      v.slot = slot ∧ v.part = part ∧ v.rows = dd.rows op place ∧ v.offset = 0 ∧ v.poisoned = false ∧
      (dd.kind = 0 → workOf t p i d = { w with fills := w.fills ++ [⟨op, n, part⟩] }) ∧ (dd.kind ≠ 0 → workOf t p i d = w.advance dd n) ∧ t = { s with plots := t.plots, flds := t.flds })) ∧
  (∀ (p i d op : Nat) (s : State), liveRun s p i d = none ∨ (∃ r dd, liveRun s p i d = some (r, dd) ∧
    (dd.kind = 2 ∨ op ∉ dd.usedOps ∨ op = 3 ∨ nextFill (sliceOf s p i) dd (workOf s p i d) d op = none)) → exec (.fillIssue p i d op) s = .next s) ∧
  (∀ (f k n : Nat) (a : Int) (s : State) (tr : Transfer), transferOf s f k = some tr → pieceAt tr.rows tr.offset = some (a, n) →
    (plotOf s tr.plot).stopped = false → engineFree s f tr = true →
    let busy := if tr.engine then s else
      updField f (fun v => { v with engineTurn := tr.plot }) (updTransfer f k (fun v => { v with engine := true }) s)
    let gone := updField f (fun v => { v with trackerQueue := v.trackerQueue.filter (· ≠ k) })
      (updTransfer f k (fun v => { v with offset := v.offset + n }) busy)
    let bs := if tr.operand = 3 then (sliceOf s tr.plot tr.slice).bytes ((sliceOf s tr.plot tr.slice).partBase tr.slot tr.part + tr.offset) n else []
    (trackerFree busy k tr.plot = false → exec (.dmaRequestIssue f k) s = .next
      (updField f (fun v => { v with trackerQueue := if k ∈ v.trackerQueue then v.trackerQueue else v.trackerQueue ++ [k] })
        (updPlot tr.plot (fun pl => { pl with trackerWait := satInc 64 pl.trackerWait }) busy))) ∧
    (trackerFree busy k tr.plot = true → tr.remote = none → exec (.dmaRequestIssue f k) s = .next (localRequest f k tr a n bs gone)) ∧
    (∀ mesh w, trackerFree busy k tr.plot = true → tr.remote = some mesh → remoteEntryFor s mesh a n (·.rd) = some w →
      exec (.dmaRequestIssue f k) s = .next (sendRemoteRead f (.fill k tr.plot tr.slice tr.offset) w a.toNat n gone)) ∧
    (∀ mesh, trackerFree busy k tr.plot = true → tr.remote = some mesh → remoteEntryFor s mesh a n (·.rd) = none →
      exec (.dmaRequestIssue f k) s = .next (denied f k tr tr.offset n 0x04 .none gone))) ∧
  (∀ (f k : Nat) (s : State), transferOf s f k = none ∨ (∃ tr, transferOf s f k = some tr ∧ (pieceAt tr.rows tr.offset = none ∨
    (plotOf s tr.plot).stopped = true ∨ engineFree s f tr = false)) → exec (.dmaRequestIssue f k) s = .next s) ∧
  -- a transfer holds an engine, or one of 64 is free, its plot has fewer than 8 and is the next in turn; with a waiting plot above the last one served,
  -- the lowest such plot is next, else the lowest of all
  (∀ (f : Nat) (s : State) (tr : Transfer), (engineFree s f tr = true ↔ tr.engine = true ∨
      (enginesOf (fieldOf s f) none < 64 ∧ engineNext s f = some tr.plot)) ∧
    (∀ p, engineNext s f = some p → p ∈ enginePlots s f ∧ enginesOf (fieldOf s f) (some p) < 8 ∧
      (∀ q ∈ enginePlots s f, ((fieldOf s f).engineTurn < q → (fieldOf s f).engineTurn < p ∧ p ≤ q) ∧
        (p ≤ (fieldOf s f).engineTurn → p ≤ q))) ∧
    (engineNext s f = none → enginePlots s f = [])) ∧
  (∀ (f k : Nat) (tr : Transfer) (x n id : Nat) (r : Region) (bs : List Byte) (s : State), x < 2 ^ 41 → regionAt s.hbm.regions x = some (id, r) →
    let right := r.owner = s.job.principal ∧ bit r.rights (if tr.operand < 3 then 0 else 1) = true
    (right → localRequest f k tr (x : Int) n bs s = sendRequest f (requestSite s f tr ((stackGateway (r.phys x)).2.lane 0)) f (fieldOf s f).nextId x
      (addRequest f ⟨decide (tr.operand = 3), x, n, bs, if tr.operand = 3 then .commit k else .fill k tr.plot tr.slice tr.offset,
        tr.plot, tr.slice, false, [], false, 0⟩ s)) ∧
    (¬right → localRequest f k tr (x : Int) n bs s = denied f k tr tr.offset n 0x02 (.region id) s)) ∧
  (∀ (f g rid a : Nat) (site : Site) (s : State), let gate := addressGateway s g a
    let goal : Goal := .edge gate.1 (outwardEdge gate.1) (gate.2.lane 0)
    let legs := legsTo s f site 0 goal
    ((∀ l ∈ legs, keptBack s 0 goal l = false) → sendRequest f site g rid a s = grantHops 0 (legs.flatMap (·.hops)) s) ∧
    (∀ l, legs.head? = some l → keptBack s 0 goal l = true →
      sendRequest f site g rid a s = park ⟨l.field, l.site, l.vc, 0, goal, .request g rid⟩ (holdOne g rid s))) ∧
  (∀ (f k : Nat) (s : State) (tr : Transfer), transferOf s f k = some tr → tr.operand < 3 → pieceAt tr.rows tr.offset = none →
    fillPending s f k = false → (plotOf s tr.plot).stopped = false →
    (tr.poisoned = false → exec (.dmaTransferComplete f k) s = .next (updSlice tr.plot tr.slice (fun sl => sl.publish tr.slot tr.part)
      (updField f (fun v => { v with transfers := Tab.erase v.transfers k }) s))) ∧
    (tr.poisoned = true → tr.tries = 0 → exec (.dmaTransferComplete f k) s =
      .next (updTransfer f k (fun v => { v with offset := 0, engine := false, poisoned := false, tries := 1 }) s)) ∧
    (tr.poisoned = true → tr.tries ≠ 0 → exec (.dmaTransferComplete f k) s = .next (poisonedAgain f k tr s))) ∧
  (∀ (f k : Nat) (s : State), transferOf s f k = none ∨ (∃ tr, transferOf s f k = some tr ∧ (3 ≤ tr.operand ∨
    (pieceAt tr.rows tr.offset).isSome = true ∨ fillPending s f k = true ∨ (plotOf s tr.plot).stopped = true)) →
    exec (.dmaTransferComplete f k) s = .next s) ∧
  (∀ (sl : Slice) (k part : Nat), (sl.publish k part).partFull k part = true ∧ (sl.release k part).partFull k part = false ∧
    (sl.partFull k part = false → ((sl.publish k part).slot k).prod = ((sl.slot k).prod + 1) % sl.partsOf k) ∧
    (sl.partFull k part = true → ((sl.release k part).slot k).cons = ((sl.slot k).cons + 1) % sl.partsOf k)) ∧
  (∀ (p i slot : Nat) (b : Bool) (s : State) (w : Stall), (sliceOf s p i).stalls.find? (fun v => v.slot = slot && v.producer == b) = some w →
    timersFrozen s p = false → ∃ t, exec (.slotWaitTimeout p i slot b) s = .next t ∧ w ∉ (sliceOf t p i).stalls ∧
    (s.ctl.mode = .running → t.ctl.mode = .draining ∧ t.job.faulted = true) ∧ t.hbm = s.hbm ∧ t.gateh = s.gateh ∧ t.mesh = s.mesh) ∧
  (∀ (p i slot : Nat) (b : Bool) (s : State), (sliceOf s p i).stalls.find? (fun v => v.slot = slot && v.producer == b) = none ∨
    timersFrozen s p = true → exec (.slotWaitTimeout p i slot b) s = .next s)

/-- Tile issues: with its operand parts full and an accumulator bank free a slice starts its next issue, whose accumulator is the product of the
operands on top of C, the partial or zero (R25, R26, R38, R39, R90 to R92); two tiles of at most 16,384 entries are under way at once (R39); an empty
part stalls the port (R67); an operand that is poisoned or holds a double-bit error makes a failed issue (R108). At the drain the sums are checked: a failed sum makes a failed
issue, a pass makes the destination part full, sets the flags of the tile and counts or commits it (R36, R41, R42, R47, R48, R65, R99). A failed issue is made
again alone, the issue in the other bank goes on; the second failure of its tile starts the confirmation check (R111, R414, R418). A check of the core that
passes ends the job, one that fails fences the core (R416, R420). Where the issues that go first stand when a tile is made again: log entry 112. -/
def Obligations.TileIssueAndDrain : Prop :=
  (∀ (p i d place : Nat) (s : State) (r : Run) (dd : Desc), liveRun s p i d = some (r, dd) →
    let w := workOf s p i d
    let sl := sliceOf s p i
    let j := place % dd.steps
    let n := w.next dd
    let part := readPart sl dd w
    w.place dd n = some place → dd.kind = 0 → sl.bankFree dd.entries = true → replayAhead s p i d = false →
    (∀ op, (issueOps dd j).find? (fun op => !sl.partFull (dd.slotFor op) (part op)) = some op →
      exec (.tileIssue p i d) s = .next (stallSlice p i (dd.slotFor op) (part op) false d s)) ∧
    ((∀ op ∈ issueOps dd j, sl.partFull (dd.slotFor op) (part op) = true) → j ≠ 0 → sl.partFull dd.slotP ((j - 1) % 2) = false →
      exec (.tileIssue p i d) s = .next (stallSlice p i dd.slotP ((j - 1) % 2) false d s)) ∧
    ((∀ op ∈ issueOps dd j, sl.partFull (dd.slotFor op) (part op) = true) → (j ≠ 0 → sl.partFull dd.slotP ((j - 1) % 2) = true) →
      dd.commitMode ≠ 2 → addrAligned (dd.addr 3 place) = false →
      exec (.tileIssue p i d) s = .next (issueFault p i d dd 0x09 (place / dd.steps) s)) ∧
    ((∀ op ∈ issueOps dd j, sl.partFull (dd.slotFor op) (part op) = true) → (j ≠ 0 → sl.partFull dd.slotP ((j - 1) % 2) = true) →
      dd.commitMode = 2 ∨ addrAligned (dd.addr 3 place) = true →
      (readOperands p i dd j part s).2.2.2.2 = true ∨ poisonedRead sl dd j part = true →
      exec (.tileIssue p i d) s = .next (tileFailed p i d dd r n place 0x010C 3 part (readOperands p i dd j part s).1)) ∧
    (∀ a b, (∀ op ∈ issueOps dd j, sl.partFull (dd.slotFor op) (part op) = true) → (j ≠ 0 → sl.partFull dd.slotP ((j - 1) % 2) = true) →
      dd.commitMode = 2 ∨ addrAligned (dd.addr 3 place) = true →
      let rd := readOperands p i dd j part s
      rd.2.2.2.2 = false → poisonedRead sl dd j part = false → readMat dd.aFmt dd.bsCode dd.m dd.k false rd.2.1 = some a → readMat dd.bFmt dd.bsCode dd.n dd.k dd.sparse rd.2.2.1 = some b →
      ∃ t ti, exec (.tileIssue p i d) s = .next t ∧
        (sl.issue = none → (sliceOf t p i).issue = some ti ∧ (sliceOf t p i).ahead = sl.ahead ∧ ti.bank = 0) ∧
        (∀ u, sl.issue = some u → (sliceOf t p i).issue = some u ∧ (sliceOf t p i).ahead = some ti ∧ ti.bank = 1 - u.bank) ∧
        ti.desc = d ∧ ti.number = n ∧ ti.ue = [] ∧ ti.tile = place / dd.steps ∧ ti.step = j ∧ ti.run = dd.runId ∧ ti.acc = (multiply (dd.spec j) a b (initAcc (dd.spec j) rd.2.2.2.1)).map (·.hi) ∧
        (ti.predCol, ti.predRow) = predictSums (dd.spec j) a b (initAcc (dd.spec j) rd.2.2.2.1) ∧
        (workOf t p i d).issue = (w.advance dd n).issue ∧ (workOf t p i d).redo = (w.advance dd n).redo ∧ (∀ q, q ≠ p → plotOf t q = plotOf s q) ∧
        t.hbm = s.hbm ∧ t.flds = s.flds ∧ t.mesh = s.mesh)) ∧
  (∀ (p i d place : Nat) (s : State) (r : Run) (dd : Desc), liveRun s p i d = some (r, dd) → dd.kind = 2 →
    let n := (workOf s p i d).next dd
    (workOf s p i d).place dd n = some place → exec (.tileIssue p i d) s = .next (issueMove p i d n place dd r s)) ∧
  (∀ (p i d : Nat) (s : State), liveRun s p i d = none ∨ (∃ r dd, liveRun s p i d = some (r, dd) ∧
    ((workOf s p i d).place dd ((workOf s p i d).next dd) = none ∨ dd.kind = 1 ∨
      (dd.kind = 0 ∧ ((sliceOf s p i).bankFree dd.entries = false ∨ replayAhead s p i d = true)))) → exec (.tileIssue p i d) s = .next s) ∧
  (∀ (sl : Slice) (e : Nat), sl.bankFree e = true ↔ sl.issue = none ∨
    ∃ u, sl.issue = some u ∧ sl.ahead = none ∧ e ≤ 16384 ∧ u.acc.length + u.lo.length ≤ 16384) ∧
  (∀ (p i : Nat) (u : TileUpset) (s : State) (ti : TileIssue) (r : Run) (dd : Desc), (sliceOf s p i).issue = some ti →
    joinedRun s p ti.desc = some (r, dd) → (plotOf s p).stopped = false → coreDue s p i = false →
    let target := drainTarget (sliceOf s p i) dd ti
    s.job.issueStopped = false → r.halted = false → ti.tile ∉ (workOf s p i ti.desc).skipped → ti.step < dd.steps →
    ((sliceOf s p i).partFull target.1 target.2 = true →
      exec (.tileDrainCheck p i u) s = .next (stallSlice p i target.1 target.2 true ti.desc s)) ∧
    ((sliceOf s p i).partFull target.1 target.2 = false → u.accDouble = none → ti.ue = [] →
      (∀ e ∈ checkAll s (dd.spec ti.step) ti.predCol (colOf (dd.spec ti.step) (accEls ti u)) ++
        checkAll s (dd.spec ti.step) ti.predRow (rowOf (dd.spec ti.step) (accEls ti u)), e.verdict ≠ .fail) → ∃ t,
      exec (.tileDrainCheck p i u) s = .next t ∧ (sliceOf t p i).issue = (sliceOf s p i).ahead ∧ (sliceOf t p i).ahead = none ∧
      (sliceOf t p i).partFull target.1 target.2 = true ∧
      (sliceOf t p i).flags.overflow = ti.overflow ∧
      ((sliceOf t p i).flags.nan = true ↔ ∃ e ∈ accEls ti u, e.isNan (dd.spec ti.step) = true) ∧
      (ti.lastStep = true → dd.commitMode = 2 → ti.tile ∈ (runOf t (fieldOfPlot p) dd.runId).bits) ∧
      (ti.lastStep = true → dd.commitMode ≠ 2 → ∃ k c, commitOf t (fieldOfPlot p) k = some c ∧ c.run = dd.runId ∧ c.tile = ti.tile ∧ c.plot = p ∧
        c.slice = i ∧ c.slot = target.1 ∧ c.part = target.2 ∧ c.status = 0) ∧
      (((workOf s p i ti.desc).failsOf ti.tile).pending = false → ∀ q, q ≠ p → plotOf t q = plotOf s q) ∧ t.hbm = s.hbm ∧ t.mesh = s.mesh) ∧
    ((sliceOf s p i).partFull target.1 target.2 = false → u.accDouble ≠ none ∨ ti.ue ≠ [] ∨
      (∃ e ∈ checkAll s (dd.spec ti.step) ti.predCol (colOf (dd.spec ti.step) (accEls ti u)) ++
        checkAll s (dd.spec ti.step) ti.predRow (rowOf (dd.spec ti.step) (accEls ti u)), e.verdict = .fail) →
      let w := workOf s p i ti.desc
      let before := w.failsOf ti.tile
      before.slid = false → ∃ t, exec (.tileDrainCheck p i u) s = .next t ∧
      (∀ x, x ∈ (sliceOf t p i).issues ↔ x ∈ [ti] ++ (sliceOf s p i).ahead.toList ∧ ¬(x.desc = ti.desc ∧ x.number = ti.number)) ∧
      ((workOf t p i ti.desc).failsOf ti.tile).count = before.count + 1 ∧ ((workOf t p i ti.desc).failsOf ti.tile).number = ti.number ∧
      (partialLost (sliceOf s p i) dd (ti.tile * dd.steps + ti.step) = false → (w.tileOf dd w.issue = some ti.tile → (workOf t p i ti.desc).issue = ti.number) ∧
        (w.tileOf dd w.issue ≠ some ti.tile → ti.number ∈ (workOf t p i ti.desc).redo ∧ (workOf t p i ti.desc).issue = w.issue)) ∧
      (before.count = 0 → t.job.tileReplays = satInc 32 s.job.tileReplays ∧ (sliceOf t p i).confirm = (sliceOf s p i).confirm) ∧
      (before.count ≠ 0 → (sliceOf t p i).confirm = some 0) ∧ t.hbm = s.hbm ∧ t.mesh = s.mesh)) ∧
  (∀ (p i : Nat) (u : TileUpset) (s : State), (sliceOf s p i).issue = none ∨ (∃ ti, (sliceOf s p i).issue = some ti ∧ joinedRun s p ti.desc = none) ∨
    (plotOf s p).stopped = true ∨ coreDue s p i = true → exec (.tileDrainCheck p i u) s = .next s) ∧
  (∀ (p i : Nat) (pass : Bool) (s : State), (sliceOf s p i).confirm = none → exec (.confirmationCheckDone p i pass) s = .next s) ∧
  (∀ (p i k : Nat) (pass : Bool) (s : State), (sliceOf s p i).confirm = some (k + 1) → ∃ t, exec (.confirmationCheckDone p i pass) s = .next t ∧
    (sliceOf t p i).confirm = none ∧ (pass = true → s.ctl.mode = .running → t.ctl.mode = .draining ∧ t.job.faulted = true) ∧
    (pass = false → t = fenceSliceCore p i 0x0103 (updSlice p i (fun v => { v with confirm := none }) s))) ∧
  (∀ (p i : Nat) (pass : Bool) (s : State) (w : TileFail), (sliceOf s p i).confirm = some 0 → twiceFailed (sliceOf s p i) = some w → ∃ t,
    exec (.confirmationCheckDone p i pass) s = .next t ∧ (sliceOf t p i).confirm = none ∧
    (pass = true → t = jobFault 0x02 w.code (updSlice p i (fun v => { v with confirm := none }) s)) ∧
    (pass = false → t = fenceSliceCore p i w.code (updSlice p i (fun v => { v with confirm := none }) s)))

/-- Commits and the ledger: the commit DMA reads the D part (R81, R107); a commit of a closed run or an old epoch is stale, one of a counted tile a duplicate, one of a tile in flight is held, and any
other is written (R104, R107; a word of the bitmap that is marked reads as a free value: log entry 125); the answers to its writes set the tile's bit and count it once, or make it fail (R104); the slice's answer releases
the part or issues the commit again, and the third failure of a tile in its run is a commit fault (R66, R105, R106). A run that is done closes,
unless the outbox of its plot is full (R99, R173). -/
def Obligations.CommitsAndLedger : Prop :=
  (∀ (f k : Nat) (s : State) (v : Commit), commitOf s f k = some v → v.status ≤ 1 → (plotOf s v.plot).stopped = false →
    v.status = 1 ∨ badWords (sliceOf s v.plot v.slice) v = [] → exec (.commitArrival f k) s = .next (treat f k (readCommit v s))) ∧
  (∀ (f k : Nat) (s : State) (v : Commit), commitOf s f k = some v → v.status = 0 → (plotOf s v.plot).stopped = false →
    badWords (sliceOf s v.plot v.slice) v ≠ [] →
    exec (.commitArrival f k) s = .next (redoTile f k v (badWords (sliceOf s v.plot v.slice) v) (readCommit v s))) ∧
  (∀ (f k : Nat) (s : State), commitOf s f k = none ∨ (∃ v, commitOf s f k = some v ∧ (1 < v.status ∨ (plotOf s v.plot).stopped = true)) →
    exec (.commitArrival f k) s = .next s) ∧
  (∀ (fl : Field) (c : Commit), let r := Tab.get fl.runs c.run Run.empty
    (c.mode ≠ 0 → treatment fl c = .write) ∧ (c.mode = 0 → r.isOpen = false ∨ c.epoch ≠ r.epoch → treatment fl c = .stale) ∧
    (c.mode = 0 → r.isOpen = true → c.epoch = r.epoch → c.tile ∈ r.bits → treatment fl c = .duplicate) ∧
    (c.mode = 0 → r.isOpen = true → c.epoch = r.epoch → c.tile ∉ r.bits →
      ((∃ v ∈ pendingTable fl, v.run = c.run ∧ v.tile = c.tile) ∨ 4096 ≤ (pendingTable fl).length → treatment fl c = .hold) ∧
      ((∀ v ∈ pendingTable fl, v.run = c.run → v.tile ≠ c.tile) → (pendingTable fl).length < 4096 → treatment fl c = .write))) ∧
  (∀ (f k : Nat) (s : State) (v : Commit), commitOf s f k = some v → let t := treat f k s
    let at_ := treatment (ledgerField s f v) v
    (ledgerMarked s f v = false → ledgerField s f v = fieldOf s f) ∧
    (at_ = .stale → commitOf t f k = some { v with status := 5 } ∧
      (runOf t f v.run).stale = satInc 32 (runOf s f v.run).stale) ∧
    (at_ = .duplicate → commitOf t f k = some { v with status := 4 } ∧
      (runOf t f v.run).dup = satInc 32 (runOf s f v.run).dup) ∧
    (at_ = .hold → commitOf t f k = some { v with status := 1 }) ∧
    (at_ = .write → commitOf t f k = some { v with status := 2, bad := false } ∧ ∃ tr, transferOf t f k = some tr ∧
      tr.operand = 3 ∧ tr.rows = v.rows ∧ tr.offset = 0) ∧
    (∀ g, g ≠ f → fieldOf t g = fieldOf s g) ∧ t = { s with flds := t.flds, free := t.free }) ∧
  (∀ (f k : Nat) (s : State) (v : Commit) (tr : Transfer), commitOf s f k = some v → transferOf s f k = some tr → v.status = 2 →
    pieceAt tr.rows tr.offset = none → commitPending s f k = false → ∃ a, exec (.ledgerWriteAck f k) s = .next (treatHeld f a) ∧
    (v.bad = true → commitOf a f k = some { v with status := 6 } ∧ runOf a f v.run = runOf s f v.run) ∧
    (v.bad = false → v.mode = 0 → commitOf a f k = some { v with status := 3 } ∧ v.tile ∈ (runOf a f v.run).bits ∧
      (v.tile ∉ (runOf s f v.run).bits → (runOf a f v.run).count = satInc 32 (runOf s f v.run).count)) ∧
    (v.bad = false → v.mode ≠ 0 → commitOf a f k = some { v with status := 7 }) ∧ a = { s with flds := a.flds }) ∧
  (∀ (f k : Nat) (s : State), commitOf s f k = none ∨ transferOf s f k = none ∨ (∃ v tr, commitOf s f k = some v ∧ transferOf s f k = some tr ∧
    (v.status ≠ 2 ∨ (pieceAt tr.rows tr.offset).isSome = true ∨ commitPending s f k = true)) → exec (.ledgerWriteAck f k) s = .next s) ∧
  (∀ (f k : Nat) (s : State) (v : Commit), commitOf s f k = some v → 3 ≤ v.status → (plotOf s v.plot).stopped = false →
    (v.status = 6 → let n := Tab.get (runOf s f v.run).failed v.tile 0
      let a := updRun f v.run (fun r => { r with failed := Tab.set r.failed v.tile (n + 1) }) s
      (n < 2 → v.part < 16 → exec (.commitAnswer f k) s = .next (updCommit f k (fun v => { v with status := 0, bad := false }) a)) ∧
      (n < 2 → 16 ≤ v.part → exec (.commitAnswer f k) s = .next (endCommit f k v a)) ∧
      (2 ≤ n → exec (.commitAnswer f k) s = .next (commitFault v (endCommit f k v a)))) ∧
    (v.status ≠ 6 → ∃ t, exec (.commitAnswer f k) s = .next t ∧ commitOf t f k = none ∧ (v.part < 16 → (sliceOf t v.plot v.slice).partFull v.slot v.part = false) ∧
      (runOf t f v.run).transit = (runOf s f v.run).transit - 1 ∧ (v.status = 7 → v.tile ∈ (runOf t f v.run).bits) ∧
      (v.status ≠ 7 → (runOf t f v.run).count = (runOf s f v.run).count) ∧ t = { s with plots := t.plots, flds := t.flds })) ∧
  (∀ (f k : Nat) (s : State), commitOf s f k = none ∨ (∃ v, commitOf s f k = some v ∧ (v.status < 3 ∨ (plotOf s v.plot).stopped = true)) →
    exec (.commitAnswer f k) s = .next s) ∧
  (∀ (f k : Nat) (s : State) (d0 : Desc), let r := runOf s f k
    descOf s r.plot r.desc = some d0 → let dd := d0.resolve r.params
    (runDone s f r dd = true → dd.done = 0xFF ∨ outboxUsed s r.last < 4 → ∃ t, exec (.runClose f k) s = .next t ∧
      runOf t f k = { r with isOpen := false } ∧ (∀ g, g ≠ f → fieldOf t g = fieldOf s g) ∧ t.hbm = s.hbm ∧ t.gateh = s.gateh) ∧
    (runDone s f r dd = false ∨ (dd.done ≠ 0xFF ∧ 4 ≤ outboxUsed s r.last) → exec (.runClose f k) s = .next s)) ∧
  (∀ (f k : Nat) (s : State), descOf s (runOf s f k).plot (runOf s f k).desc = none → exec (.runClose f k) s = .next s)

/-! ## Nodes of the array -/

/-- Vector ALU nodes (R50 to R52, R112, R113, R117, R119, R120, R128, R417): a firing takes its operands, computes every lane by the operation, and its token goes to
the destinations; with no firing the command changes nothing. A residue mismatch that a retry clears is a recovered fault, a second mismatch keeps
the operands and starts the confirmation check. Lanes of a conversion that R128 does not give are free (log entry 31). -/
def Obligations.VectorAluNodes : Prop :=
  (∀ (n : NodeRef) (s : State),
    let runs := fun (c : Instr) (op : Nat) (f : Firing → List U32) =>
      (∀ fr, findFiring n [0, 1] op s = some fr → exec c s = .next (fireResult n fr (f fr) s)) ∧
      (findFiring n [0, 1] op s = none → exec c s = .next s)
    let checked := fun (c : Residue → Instr) (op : Nat) (f : Firing → List U32) =>
      (∀ q, findFiring n [0, 1] op s = none → exec (c q) s = .next s) ∧
      (∀ q fr, findFiring n [0, 1] op s = some fr →
        let again := (fr.key, fr.tag) ∈ (plotOf s n.plot).arr.retrying
        (q.misses = 0 → exec (c q) s = .next (updArr n.plot (fun a => { a with retrying := a.retrying.filter (· ≠ (fr.key, fr.tag)) })
          (fireResult n fr (f fr) s))) ∧
        (q.misses ≠ 0 → again → exec (c q) s = .next (jobFault 0x03 0x0103 (noteCompute n op 1 s))) ∧
        (q.misses = 1 → ¬again → exec (c q) s = .next (noteSliceRecovered n.plot n.slice 0x0103 (fireResult n fr (f fr)
          (mapJob (fun j => { j with opRetries := satInc 32 j.opRetries }) (noteCompute n op 1 s))))) ∧
        (2 ≤ q.misses → ¬again → ∃ t, exec (c q) s = .next t ∧ (plotOf t n.plot).arr = { (plotOf s n.plot).arr with retrying := (plotOf s n.plot).arr.retrying ++ [(fr.key, fr.tag)] } ∧
          (sliceOf t n.plot n.slice).confirm = some (fr.key + 1) ∧ t.job = { s.job with opRetries := satInc 32 s.job.opRetries }))
    let a := fun (fr : Firing) => nth fr.ins 0 []
    let b := fun (fr : Firing) => nth fr.ins 1 []
    let two := fun (g : U32 → U32 → U32) (fr : Firing) => List.zipWith g (a fr) (b fr)
    let one := fun (g : U32 → U32) (fr : Firing) => (a fr).map g
    runs (.pass n) 0x00 a ∧ checked (.fadd n) 0x01 (two fadd) ∧ checked (.fsub n) 0x02 (two fsub) ∧ checked (.fmul n) 0x03 (two fmul) ∧
    checked (.ffma n) 0x04 (fun fr => List.zipWith (fun g c => g c) (List.zipWith ffma (a fr) (b fr)) (nth fr.ins 2 [])) ∧
    runs (.fmin n) 0x05 (two fmin) ∧ runs (.fmax n) 0x06 (two fmax) ∧ runs (.fabs n) 0x07 (one fabs) ∧ runs (.fneg n) 0x08 (one fneg) ∧
    checked (.fsq n) 0x09 (one (fun x => fmul x x)) ∧
    runs (.fcmplt n) 0x0A (two (fun x y => truth ((f32 x).lt (f32 y)))) ∧
    runs (.fcmple n) 0x0B (two (fun x y => truth ((f32 x).lt (f32 y) || (f32 x).eq (f32 y)))) ∧
    runs (.fcmpeq n) 0x0C (two (fun x y => truth ((f32 x).eq (f32 y)))) ∧
    checked (.iadd n) 0x10 (two (fun x y => x + y)) ∧ checked (.isub n) 0x11 (two (fun x y => x - y)) ∧
    checked (.imul n) 0x12 (two (fun x y => x * y)) ∧
    runs (.and n) 0x13 (two (fun x y => x &&& y)) ∧ runs (.or n) 0x14 (two (fun x y => x ||| y)) ∧
    runs (.xor n) 0x15 (two (fun x y => x ^^^ y)) ∧ runs (.shl n) 0x16 (two (fun x y => x <<< (y.toNat % 32))) ∧
    runs (.shr n) 0x17 (two (fun x y => x >>> (y.toNat % 32))) ∧ runs (.sar n) 0x18 (two (fun x y => x.sshiftRight (y.toNat % 32))) ∧
    runs (.icmplt n) 0x19 (two (fun x y => if x.toInt < y.toInt then 0xFFFFFFFF#32 else 0#32)) ∧
    runs (.icmpeq n) 0x1A (two (fun x y => if x = y then 0xFFFFFFFF#32 else 0#32)) ∧
    runs (.cvtI32F32 n) 0x20 (fun fr => (a fr).map (fun x => BitVec.ofInt 32 (cvtInt 32 (bit fr.nd.modf 0) (f32 x)))) ∧
    runs (.cvtF32I32 n) 0x21 (one (fun x => toF32 (ofInt x.toInt))) ∧
    runs (.perm n) 0x30 (fun fr => (b fr).map (fun y => nth (a fr) (y.toNat % 16) 0#32)) ∧
    runs (.bcast n) 0x31 (fun fr => List.replicate 16 (nth (a fr) (bits fr.nd.arg.toNat 0 4) 0#32)) ∧
    runs (.laneid n) 0x32 (fun _ => (List.range 16).map (BitVec.ofNat 32)) ∧
    runs (.byteEq n) 0x33 (fun fr => bytesLanes ((lanesBytes (a fr)).map (fun y =>
      if y.toNat = bits fr.nd.arg.toNat 0 8 then 0xFF#8 else 0#8))) ∧
    runs (.byteRange n) 0x34 (fun fr => bytesLanes ((lanesBytes (a fr)).map (fun y =>
      if bits fr.nd.arg.toNat 0 8 ≤ y.toNat ∧ y.toNat ≤ bits fr.nd.arg.toNat 8 8 then 0xFF#8 else 0#8))) ∧
    (findFiring n [0, 1] 0x22 s = none → exec (.cvtDn n) s = .next s) ∧ (findFiring n [0, 1] 0x23 s = none → exec (.cvtUp n) s = .next s) ∧
    (∀ fr, let g := bits fr.nd.arg.toNat 4 2
      let code := bits fr.nd.arg.toNat 0 4
      let w := elemBits code
      (findFiring n [0, 1] 0x22 s = some fr → cvtCode code = true → (g + 1) * 16 * w ≤ 512 → exec (.cvtDn n) s = .next (fireResult n fr
        (natLanes (packElems w ((a fr).map (cvtDnLane code (bit fr.nd.modf 0) (bit fr.nd.modf 1))) * 2 ^ (g * 16 * w))) s)) ∧
      (findFiring n [0, 1] 0x23 s = some fr → cvtCode code = true → (g + 1) * 16 * w ≤ 512 → exec (.cvtUp n) s = .next (fireResult n fr
        ((unpackElems w (16 * g) 16 (lanesNat (a fr))).map (cvtUpLane code)) s)) ∧
      (findFiring n [0, 1] 0x22 s = some fr → cvtCode code = false ∨ 512 < (g + 1) * 16 * w → ∃ l, l.length = 16 ∧
        exec (.cvtDn n) s = .next (fireResult n fr l s)) ∧
      (findFiring n [0, 1] 0x23 s = some fr → cvtCode code = false ∨ 512 < (g + 1) * 16 * w → ∃ l, l.length = 16 ∧
        exec (.cvtUp n) s = .next (fireResult n fr l s)))) ∧
  (∀ (n : NodeRef) (fr : Firing) (lanes : List U32) (s : State),
    let t := fireResult n fr lanes s
    let a := (plotOf s n.plot).arr
    let b := (plotOf t n.plot).arr
    t = { s with plots := t.plots } ∧ (∀ p, p ≠ n.plot → plotOf t p = plotOf s p) ∧
    b.epoch = a.epoch ∧ b.active = a.active ∧ b.store = a.store ∧ b.accs = a.accs ∧ b.cursors = a.cursors ∧ b.switchTo = a.switchTo ∧
    (fr.nd.isSource = true → b.emitted = Tab.upd a.emitted fr.key 0 (· + 1)) ∧
    (fr.nd.isSource = false → b.emitted = a.emitted) ∧
    b.clock = a.clock + 1 ∧
    -- a result with one destination, nothing else on its way: it is stored; with no room it waits in its output register, or in a pass-through
    -- register of the slice beside its destination's
    (∀ d, fr.nd.dests = [d] → a.outs = [] → a.pass = [] → keySlice fr.key < 16 → keySlice d.key < 16 → let k := (fr.take a).toks
      let tok : Tok := ⟨d.key, d.port, fr.nd.resultTag fr.tag, a.epoch, lanes, 0, false⟩
      let near := keySlice fr.key = keySlice d.key ∨ (nextSlice (keySlice fr.key) (keySlice d.key)).1 = keySlice d.key
      ((fr.take a).room fr.sec d.key d.port = true → b.outs = [] ∧ b.pass = [] ∧
        b.toks = k ++ [{ tok with stamp := a.clock + 1, shared := !(fr.take a).reservedFree d.key d.port }]) ∧
      ((fr.take a).room fr.sec d.key d.port = false → b.toks = k ∧ (near → b.outs = [⟨fr.key, tok⟩] ∧ b.pass = []) ∧
        (¬near → b.outs = [] ∧ ∃ q, b.pass = [q] ∧ q.tok = tok ∧ (nextSlice q.slice (keySlice d.key)).1 = keySlice d.key)))) ∧
  -- room: the entry reserved for the port, or one of the shared rest of 64; a token in a shared entry keeps no reserved one (R119, R120)
  (∀ (sec : Section) (a : Arr) (key port : Nat), a.room sec key port = true ↔
    (∀ t ∈ a.toks, t.key = key → t.port = port → t.shared = true) ∨
    (a.toks.filter (fun t => t.key / 16 = key / 16 && t.shared)).length + sec.unitPorts (key / 16) < 64) ∧
  (∀ (a : U32), (f32 a).isNan = false → toF32 (f32 a) = a) ∧
  (∀ (a b : U32), (f32 a).isNan = true ∨ (f32 b).isNan = true → fadd a b = 0x7FC00000#32 ∧ fsub a b = 0x7FC00000#32 ∧ fmul a b = 0x7FC00000#32) ∧
  (∀ (a b : U32), ((f32 a).isNan = true → (f32 b).isNan = false → fmin a b = b ∧ fmax a b = b ∧ fmin b a = b ∧ fmax b a = b) ∧
    ((f32 a).lt (f32 b) = true → fmin a b = a ∧ fmax a b = b ∧ fmin b a = a ∧ fmax b a = b) ∧
    ((f32 a).isNan = true → (f32 b).isNan = true → fmin a b = 0x7FC00000#32 ∧ fmax a b = 0x7FC00000#32)) ∧
  (∀ code f v, floatFmt code = some f → v < 2 ^ (f.ebits + f.mbits + 1) → (f.decode v).isFin = true → ∀ rz sat, f.convert rz sat (f.decode v) = v)

/-- Special functions, reductions and steering (R53, R113, R129 to R132): the function of every lane; a sum, minimum or maximum over lanes; groups over
iterations whose result goes out with the G-th token; the destinations that a control lane selects. -/
def Obligations.SpecialReduceAndSteeringNodes : Prop :=
  (∀ (n : NodeRef) (s : State),
    let runs := fun (c : Instr) (pos op : Nat) (f : Firing → List U32) =>
      (∀ fr, findFiring n [pos] op s = some fr → exec c s = .next (fireResult n fr (f fr) s)) ∧
      (findFiring n [pos] op s = none → exec c s = .next s)
    let a := fun (fr : Firing) => nth fr.ins 0 []
    let b := fun (fr : Firing) => nth fr.ins 1 []
    let each := fun (code : Nat) (fr : Firing) => (a fr).map (sfu code)
    runs (.exp n) 2 0 (each 0) ∧ runs (.log n) 2 1 (each 1) ∧ runs (.rcp n) 2 2 (each 2) ∧ runs (.rsqrt n) 2 3 (each 3) ∧
    runs (.sin n) 2 4 (each 4) ∧ runs (.cos n) 2 5 (each 5) ∧ runs (.erf n) 2 6 (each 6) ∧
    runs (.lsum n) 3 0 (fun fr => List.replicate 16 (treeSum (a fr))) ∧
    runs (.lmax n) 3 1 (fun fr => List.replicate 16 (foldLanes fmax (a fr))) ∧
    runs (.lmin n) 3 2 (fun fr => List.replicate 16 (foldLanes fmin (a fr))) ∧
    -- accumulation over a group of 2^G iterations
    (let grouped := fun (c : Instr) (op : Nat) (g : U32 → U32 → U32) =>
      (findFiring n [3] op s = none → exec c s = .next s) ∧
      (∀ fr, findFiring n [3] op s = some fr →
        let k := fr.key * 16 + tagCtx fr.tag
        let old := Tab.get (plotOf s n.plot).arr.accs k Acc.empty
        let vals := if old.count = 0 then a fr else List.zipWith g old.vals (a fr)
        ∃ t, exec c s = .next t ∧ (∀ p, p ≠ n.plot → plotOf t p = plotOf s p) ∧ t = { s with plots := t.plots } ∧
          (old.count + 1 < fr.nd.group → Tab.get (plotOf t n.plot).arr.accs k Acc.empty = { old with vals := vals, count := old.count + 1 } ∧
            t = fire n fr (fun v => { v with accs := Tab.set v.accs k { old with vals := vals, count := old.count + 1 } }) s) ∧
          (fr.nd.group ≤ old.count + 1 → Tab.get (plotOf t n.plot).arr.accs k Acc.empty = ⟨0, old.groups + 1, [], []⟩ ∧
            t = fire n fr (fun v => fr.send fr.nd.dests (mkTag (tagCtx fr.tag) old.groups) vals
              { v with accs := Tab.set v.accs k ⟨0, old.groups + 1, [], []⟩ }) s))
    grouped (.accSum n) 8 fadd ∧ grouped (.accMax n) 9 fmax ∧ grouped (.accMin n) 10 fmin) ∧
    (findFiring n [3] 0x10 s = none → exec (.topk n) s = .next s) ∧
    (∀ fr, findFiring n [3] 0x10 s = some fr →
      let k := fr.key * 16 + tagCtx fr.tag
      let old := Tab.get (plotOf s n.plot).arr.accs k Acc.empty
      let best := topKeep (bits fr.nd.arg.toNat 4 4 + 1) old.cands ((a fr).zip (b fr))
      (old.count + 1 < fr.nd.group → exec (.topk n) s = .next (fire n fr (fun v => { v with
        accs := Tab.set v.accs k { old with cands := best, count := old.count + 1 } }) s)) ∧
      (fr.nd.group ≤ old.count + 1 → exec (.topk n) s = .next (fire n fr (fun v =>
        fr.send fr.nd.dest1.toList (mkTag (tagCtx fr.tag) old.groups) (padLanes (best.map (·.2)))
          (fr.send fr.nd.dest0.toList (mkTag (tagCtx fr.tag) old.groups) (padLanes (best.map (·.1)))
            { v with accs := Tab.set v.accs k ⟨0, old.groups + 1, [], []⟩ })) s))) ∧
    -- steering
    (let steers := fun (c : Instr) (op : Nat) (goal : Firing → List Dest) (f : Firing → List U32) =>
      (∀ fr, findFiring n [4] op s = some fr → exec c s = .next (fire n fr (fr.send (goal fr) fr.tag (f fr)) s)) ∧
      (findFiring n [4] op s = none → exec c s = .next s)
    let set := fun (l : List U32) => l.headD 0#32 ≠ 0#32
    steers (.switch n) 0 (fun fr => if set (b fr) then fr.nd.dest0.toList else fr.nd.dest1.toList) a ∧
    steers (.gate n) 1 (fun fr => if set (b fr) then fr.nd.dests else []) a ∧
    steers (.merge n) 2 (fun fr => fr.nd.dests) (fun fr => if set (a fr) then b fr else nth fr.ins 2 []) ∧
    steers (.select n) 3 (fun fr => fr.nd.dests) (fun fr =>
      List.zipWith (fun g c => g c) (List.zipWith (fun p x y => if p = 0#32 then y else x) (a fr) (b fr)) (nth fr.ins 2 []))) ∧
    (findFiring n [4] 4 s = none → exec (.spread n) s = .next s) ∧
    (∀ fr, findFiring n [4] 4 s = some fr → exec (.spread n) s = .next (fire n fr (fun v => (List.range fr.nd.group).foldl
      (fun v k => fr.send fr.nd.dests (mkTag (tagCtx fr.tag) (tagIter fr.tag * fr.nd.group + k)) (a fr) v) v) s))) ∧
  -- special values (R53)
  (∀ (code : Nat) (x : U32), code < 7 → (f32 x).isNan = true → sfu code x = 0x7FC00000#32) ∧
  (sfu 0 0x7F800000#32 = 0x7F800000#32 ∧ sfu 0 0xFF800000#32 = 0#32 ∧ sfu 1 0x7F800000#32 = 0x7F800000#32 ∧ sfu 1 0#32 = 0xFF800000#32 ∧
    sfu 1 0x80000000#32 = 0xFF800000#32 ∧ sfu 1 0xFF800000#32 = 0x7FC00000#32 ∧ sfu 2 0#32 = 0x7F800000#32 ∧ sfu 2 0x80000000#32 = 0xFF800000#32 ∧
    sfu 2 0x7F800000#32 = 0#32 ∧ sfu 3 0x7F800000#32 = 0#32 ∧ sfu 3 0xBF800000#32 = 0x7FC00000#32 ∧ sfu 4 0x7F800000#32 = 0x7FC00000#32 ∧
    sfu 5 0xFF800000#32 = 0x7FC00000#32 ∧ sfu 6 0x7F800000#32 = 0x3F800000#32 ∧ sfu 6 0xFF800000#32 = 0xBF800000#32) ∧
  -- sine and cosine beyond 2^15: free, and never larger than 1
  (∀ (code : Nat) (x : U32), code = 4 ∨ code = 5 → (f32 x).isFin = true → (Num.fin false 1 15).lt (f32 x).abs = true →
    (f32 (sfu code x)).isFin = true ∧ (Num.fin false 1 0).lt (f32 (sfu code x)).abs = false) ∧
  -- the candidates of TOPK stand in order, at most k of them, all from the old ones and the new
  (∀ (k : Nat) (l new : List (U32 × U32)), (topKeep k l new).length = min k (l.length + new.length) ∧
    ∀ c ∈ topKeep k l new, c ∈ l ∨ c ∈ new)

/-- Nodes of the scratchpad access unit (R55, R56, R67, R77, R81 to R83, R133, R134, R138): LDS and STS move 64 bytes at the node's cursor and on, wait
on the part's presence, and release or publish a part that ends; LD, ST, GATHER and SCATTER reach offsets; PUBLISH and RELEASE mark the part at the
slot's cursor. A double-bit error stops the section with a compute fault. An unaligned lane of GATHER is a free value (log entry 33), and RELEASE
takes the LDS node of lowest place (log entry 32). -/
def Obligations.ScratchpadNodes : Prop :=
  (∀ (n : NodeRef) (s : State) (fr : Firing), let src := sourceSlice s n.plot n.slice
    let j := fr.nd.target fr.key
    let slot := fr.nd.slotNo
    let sl := sliceOf s n.plot j
    let agent := reachAgent fr.nd.dir
    (findFiring n [5] 0 s = some fr → let c := cursorOf s n.plot fr.key (sl.slot slot).cons
      let r := spadLoad n.plot j (sl.partBase slot c.1 + c.2) 64 agent src s
      let on := fire n fr (fun a => fr.send fr.nd.dests fr.tag (bytesLanes r.2.1) (setCursor fr.key (advanceCursor sl slot c).1 a)) r.1
      (sl.partFull slot c.1 = false → exec (.lds n) s = .next (stallSlice n.plot j slot c.1 false (256 + fr.key) s)) ∧
      (sl.partFull slot c.1 = true → r.2.2 = true → exec (.lds n) s = .next (accessFault n 0 r.1)) ∧
      (sl.partFull slot c.1 = true → r.2.2 = false → (advanceCursor sl slot c).2 = true → fr.nd.hold = false →
        exec (.lds n) s = .next (updSlice n.plot j (fun v => v.release slot c.1) on)) ∧
      (sl.partFull slot c.1 = true → r.2.2 = false → (advanceCursor sl slot c).2 = false ∨ fr.nd.hold = true → exec (.lds n) s = .next on)) ∧
    (findFiring n [5] 1 s = some fr → let c := cursorOf s n.plot fr.key (sl.slot slot).prod
      let r := spadStore n.plot j (sl.partBase slot c.1 + c.2) (lanesBytes (nth fr.ins 0 [])) agent src s
      let on := fire n fr (fun a => fr.send fr.nd.dests fr.tag doneLanes (setCursor fr.key (advanceCursor sl slot c).1 a)) r.1
      (sl.partFull slot c.1 = true → exec (.sts n) s = .next (stallSlice n.plot j slot c.1 true (256 + fr.key) s)) ∧
      (sl.partFull slot c.1 = false → r.2 = true → exec (.sts n) s = .next (accessFault n 1 r.1)) ∧
      (sl.partFull slot c.1 = false → r.2 = false → (advanceCursor sl slot c).2 = true →
        exec (.sts n) s = .next (updSlice n.plot j (fun v => v.publish slot c.1) on)) ∧
      (sl.partFull slot c.1 = false → r.2 = false → (advanceCursor sl slot c).2 = false → exec (.sts n) s = .next on)) ∧
    (findFiring n [5] 2 s = some fr → let r := spadLoad n.plot j (fr.nd.wrapOffset fr.tag) 64 agent src s
      (r.2.2 = true → exec (.ld n) s = .next (accessFault n 2 r.1)) ∧
      (r.2.2 = false → exec (.ld n) s = .next (fireResult n fr (bytesLanes r.2.1) r.1))) ∧
    (findFiring n [5] 3 s = some fr → let r := spadStore n.plot j (fr.nd.wrapOffset fr.tag) (lanesBytes (nth fr.ins 0 [])) agent src s
      (r.2 = true → exec (.st n) s = .next (accessFault n 3 r.1)) ∧ (r.2 = false → exec (.st n) s = .next (fireResult n fr doneLanes r.1))) ∧
    (findFiring n [5] 4 s = some fr → let r := gatherLanes n fr.nd j (nth fr.ins 0 []) s
      (r.2.2 = true → exec (.gather n) s = .next (accessFault n 4 r.1)) ∧ (r.2.2 = false → exec (.gather n) s = .next (fireResult n fr r.2.1 r.1))) ∧
    (findFiring n [5] 5 s = some fr → let r := scatterLanes n fr.nd j ((nth fr.ins 0 []).zip (nth fr.ins 1 [])) s
      (r.2 = true → exec (.scatter n) s = .next (accessFault n 5 r.1)) ∧ (r.2 = false → exec (.scatter n) s = .next (fireResult n fr doneLanes r.1))) ∧
    (findFiring n [5] 6 s = some fr → let k := cursorNode fr.sec 1 j slot
      (∀ e, k = some e → let c := cursorOf s n.plot e.1 (sl.slot slot).prod
        exec (.publish n) s = .next (updSlice n.plot j (fun v => v.publish slot c.1) (fire n fr (fun a =>
          fr.send fr.nd.dests fr.tag doneLanes (setCursor e.1 ((c.1 + 1) % sl.partsOf slot, 0) a)) s))) ∧
      (k = none → exec (.publish n) s = .next (updSlice n.plot j (fun v => v.publish slot (sl.slot slot).prod) (fireResult n fr doneLanes s)))) ∧
    (findFiring n [5] 7 s = some fr → let k := cursorNode fr.sec 0 j slot
      (∀ e, k = some e → let c := cursorOf s n.plot e.1 (sl.slot slot).cons
        exec (.release n) s = .next (updSlice n.plot j (fun v => v.release slot c.1) (fire n fr (fun a =>
          fr.send fr.nd.dests fr.tag doneLanes (setCursor e.1 ((c.1 + 1) % sl.partsOf slot, 0) a)) s))) ∧
      (k = none → exec (.release n) s = .next (updSlice n.plot j (fun v => v.release slot (sl.slot slot).cons) (fireResult n fr doneLanes s))))) ∧
  (∀ (n : NodeRef) (s : State), (findFiring n [5] 0 s = none → exec (.lds n) s = .next s) ∧ (findFiring n [5] 1 s = none → exec (.sts n) s = .next s) ∧
    (findFiring n [5] 2 s = none → exec (.ld n) s = .next s) ∧ (findFiring n [5] 3 s = none → exec (.st n) s = .next s) ∧
    (findFiring n [5] 4 s = none → exec (.gather n) s = .next s) ∧ (findFiring n [5] 5 s = none → exec (.scatter n) s = .next s) ∧
    (findFiring n [5] 6 s = none → exec (.publish n) s = .next s) ∧ (findFiring n [5] 7 s = none → exec (.release n) s = .next s)) ∧
  -- a cursor moves 64 bytes on, and at the end of its part to the next part
  (∀ (sl : Slice) (slot part pos : Nat) (d : SlotDef), sl.slotDef slot = some d →
    (pos + 64 < d.size → advanceCursor sl slot (part, pos) = ((part, pos + 64), false)) ∧
    (d.size ≤ pos + 64 → advanceCursor sl slot (part, pos) = (((part + 1) % d.parts, 0), true))) ∧
  -- reads
  (∀ (p i off n agent : Nat) (src : U32) (s : State), let r := spadLoad p i off n agent src s
    let sl := sliceOf s p i
    (jobAreaEnd < off + n ∨ (plotOf s p).assigned = false → r = (violation 0x03 .none src s, List.replicate n 0#8, false)) ∧
    (off + n ≤ jobAreaEnd → (plotOf s p).assigned = true → r.2.1.length = n ∧
      (∀ k, k < n → nth r.2.1 k 0#8 = if sl.poweredAt (off + k) then Mem.get sl.spad (off + k) else 0#8) ∧
      (r.2.2 = true ↔ ∃ w ∈ sl.spadUe, sl.poweredAt (8 * w) = true ∧ 8 * w < off + n ∧ off < 8 * w + 8 ∧ n ≠ 0) ∧
      (∀ a, Mem.get (sliceOf r.1 p i).spad a = Mem.get sl.spad a) ∧ (sliceOf r.1 p i).spadUe = sl.spadUe ∧
      (sliceOf r.1 p i).gated = (if (List.range n).any (fun k => !sl.poweredAt (off + k)) then satInc 64 sl.gated else sl.gated) ∧
      (∀ q k, q ≠ p ∨ k ≠ i → sliceOf r.1 q k = sliceOf s q k) ∧ r.1 = { s with plots := r.1.plots, evt := r.1.evt, flash := r.1.flash })) ∧
  -- stores
  (∀ (p i off agent : Nat) (bs : List Byte) (src : U32) (s : State), let r := spadStore p i off bs agent src s
    let sl := sliceOf s p i
    (jobAreaEnd < off + bs.length ∨ (plotOf s p).assigned = false → r = (violation 0x03 .none src s, false)) ∧
    (off + bs.length ≤ jobAreaEnd → (plotOf s p).assigned = true →
      (r.2 = true ↔ ∃ w ∈ sl.spadUe, sl.poweredAt (8 * w) = true ∧ 8 * w < off + bs.length ∧ off < 8 * w + 8 ∧ bs ≠ [] ∧
        ¬(off ≤ 8 * w ∧ 8 * w + 8 ≤ off + bs.length)) ∧
      (r.2 = true → (sliceOf r.1 p i).spad = sl.spad) ∧
      (sliceOf r.1 p i).gated = (if (List.range bs.length).any (fun k => !sl.poweredAt (off + k)) then satInc 64 sl.gated else sl.gated) ∧
      (r.2 = false → Mem.wf sl.spad = true → ∀ a, Mem.get (sliceOf r.1 p i).spad a = if off ≤ a ∧ a < off + bs.length ∧ sl.poweredAt a = true then nth bs (a - off) 0#8
        else Mem.get sl.spad a) ∧
      (∀ q k, q ≠ p ∨ k ≠ i → sliceOf r.1 q k = sliceOf s q k) ∧ r.1 = { s with plots := r.1.plots, evt := r.1.evt, flash := r.1.flash }))

/-- Queue nodes, parameters and sections (R122, R135 to R137, R143 to R150, R162, R163): QRD delivers two entries of the message at the head or waits,
QWR sends the token as a message or appends it, and completes when its queue accepts; parameters are read and written; a section request stops the sources, a load waits its turn,
and the barrier flushes and activates. -/
def Obligations.QueueParamAndSectionNodes : Prop :=
  (∀ (n : NodeRef) (s : State) (fr : Firing),
    (findFiring n [6] 0 s = some fr → let c := fr.nd.channel
      (channelOf s c = none → exec (.qrd n) s = .next s) ∧
      (∀ ch, channelOf s c = some ch → (chanQueue s c ch).front = none → ∃ t, exec (.qrd n) s = .next t ∧
        (∃ w ∈ (chanOf t c).readers, w.plot = n.plot ∧ w.node = some fr.key) ∧ (∀ k, k ≠ c → chanOf t k = chanOf s k) ∧ t = { s with chans := t.chans }) ∧
      (∀ ch m, channelOf s c = some ch → (chanQueue s c ch).front = some m → m.ue ≠ [] → exec (.qrd n) s = .next (failMessage c ch m n.slice m.ue s)) ∧
      (∀ ch m, channelOf s c = some ch → (chanQueue s c ch).front = some m → m.ue = [] → fr.nd.isSource = false → 2 < m.len →
        exec (.qrd n) s = .next (messageFault c m.seq n.plot n.slice s)) ∧
      (∀ ch m, channelOf s c = some ch → (chanQueue s c ch).front = some m → m.ue = [] → fr.nd.isSource = true ∨ m.len ≤ 2 →
        exec (.qrd n) s = .next (readToken c ch m n fr s))) ∧
    (findFiring n [6] 1 s = some fr → let c := fr.nd.channel
      let chunk := (lanesBytes (nth fr.ins 0 [])).take (if bit fr.nd.modf 0 then 32 else 64)
      let all := (sliceOf s n.plot n.slice).asm ++ chunk
      let want := 32 * (bits fr.nd.arg.toNat 8 6 + 1)
      (channelOf s c = none ∨ nodeWaits s n.plot fr.key = true → exec (.qwr n) s = .next s) ∧
      (∀ ch, channelOf s c = some ch → nodeWaits s n.plot fr.key = false →
        (bit fr.nd.modf 1 = true → all.length < want → exec (.qwr n) s =
          .next (updSlice n.plot n.slice (fun v => { v with asm := all }) (fireResult n fr doneLanes s))) ∧
        (let goes := fun (payload : List Byte) (s0 : State) => exec (.qwr n) s = .next (sendOrWait c ch
            ⟨n.plot, n.slice, some fr.key, fr.tag, (plotOf s n.plot).arr.epoch, payload, s.ctl.localTime, 0, false⟩
            (completeNode n.plot fr.key fr.tag (plotOf s n.plot).arr.epoch)
            (noteWork n.plot n.slice (updArr n.plot (fun a => (fr.take a).pump fr.sec) s0)))
        (bit fr.nd.modf 1 = false → goes chunk s) ∧
        (bit fr.nd.modf 1 = true → want ≤ all.length → goes all (updSlice n.plot n.slice (fun v => { v with asm := [] }) s))))) ∧
    (findFiring n [7] 0 s = some fr → let v := (Tab.get (plotOf s n.plot).params (bits fr.nd.arg.toNat 0 4) 0#64).toNat
      exec (.paramRd n) s = .next (fireResult n fr (BitVec.ofNat 32 v :: BitVec.ofNat 32 (v / 2 ^ 32) :: List.replicate 14 0#32) s)) ∧
    (findFiring n [7] 1 s = some fr → ∃ t, exec (.paramWr n) s = .next t ∧
      (Tab.get (plotOf t n.plot).params (bits fr.nd.arg.toNat 0 4) 0#64).toNat =
        (nth (nth fr.ins 0 []) 0 0#32).toNat + 2 ^ 32 * (nth (nth fr.ins 0 []) 1 0#32).toNat ∧
      (∀ k, k ≠ bits fr.nd.arg.toNat 0 4 → Tab.get (plotOf t n.plot).params k 0#64 = Tab.get (plotOf s n.plot).params k 0#64) ∧
      (plotOf t n.plot).arr = (plotOf (fireResult n fr doneLanes s) n.plot).arr) ∧
    (findFiring n [7] 2 s = some fr → let a := (plotOf s n.plot).arr
      ∃ t, exec (.sectNext n) s = .next t ∧
        (a.switchTo = none → a.draining = false → (plotOf t n.plot).arr.switchTo = some (bits fr.nd.arg.toNat 0 2)) ∧
        (a.switchTo ≠ none ∨ a.draining = true → (plotOf t n.plot).arr.switchTo = a.switchTo ∧
          (plotOf t n.plot).arr.switchIgnored = satInc 64 a.switchIgnored) ∧ t = { s with plots := t.plots }) ∧
    (findFiring n [7] 3 s = some fr → let slot := bits fr.nd.arg.toNat 10 2
      ((plotOf s n.plot).arr.active = some slot →
        exec (.sectLoad n) s = .next (sectionFault 6 n.plot n.slice n.pos n.node (fire n fr id s))) ∧
      ((plotOf s n.plot).arr.active ≠ some slot → ∃ t, exec (.sectLoad n) s = .next t ∧
        (plotOf t n.plot).arr.loads = (plotOf s n.plot).arr.loads ++ [(slot, bits fr.nd.arg.toNat 0 10)] ∧ t = { s with plots := t.plots }))) ∧
  -- a write that its queue has accepted completes its node
  (∀ (p key : Nat) (tag : BitVec 16) (epoch : U16) (s : State), (activeSection s p = none ∨ epoch ≠ (plotOf s p).arr.epoch →
      completeNode p key tag epoch s = noteStale p s) ∧
    (∀ sec nd, activeSection s p = some sec → epoch = (plotOf s p).arr.epoch → Tab.find sec.nodes key = some nd →
      completeNode p key tag epoch s = updArr p (fun a => (a.retire sec nd tag).emit sec key nd.dests (nd.resultTag tag) doneLanes) s)) ∧
  (∀ (n : NodeRef) (s : State), (findFiring n [6] 0 s = none → exec (.qrd n) s = .next s) ∧ (findFiring n [6] 1 s = none → exec (.qwr n) s = .next s) ∧
    (findFiring n [7] 0 s = none → exec (.paramRd n) s = .next s) ∧ (findFiring n [7] 1 s = none → exec (.paramWr n) s = .next s) ∧
    (findFiring n [7] 2 s = none → exec (.sectNext n) s = .next s) ∧ (findFiring n [7] 3 s = none → exec (.sectLoad n) s = .next s)) ∧
  (∀ (n : NodeRef) (pos : List Nat) (op : Nat) (s : State) (fr : Firing), findFiring n pos op s = some fr → fr.nd.isSource = true →
    (plotOf s n.plot).arr.switchTo = none ∧ (plotOf s n.plot).arr.draining = false) ∧
  -- sections
  (∀ (p : Nat) (s : State), let a := (plotOf s p).arr
    (a.loads = [] ∨ (plotOf s p).stopped = true → exec (.sectLoadComplete p) s = .next s) ∧
    (∀ k num r, a.loads = (k, num) :: r → (plotOf s p).stopped = false →
      let on := updArr p (fun v => { v with store := Tab.set v.store k num }) (updArr p (fun v => { v with loads := r }) s)
      let goes := a.flushed = true ∧ a.switchTo = some k ∧ r.head?.map (·.1) ≠ some k
      (a.active = some k → a.flushed = false →
        exec (.sectLoadComplete p) s = .next (sectionFault 6 p 0 7 0 (updArr p (fun v => { v with loads := r }) s))) ∧
      (a.active ≠ some k ∨ a.flushed = true → (goes → exec (.sectLoadComplete p) s = .next (activateSection p k on)) ∧
        (¬goes → exec (.sectLoadComplete p) s = .next on ∧ (plotOf on p).arr = { a with loads := r, store := Tab.set a.store k num }))) ∧
    -- the barrier: a plot that waits at it and is quiet is flushed; a switch then activates its section, or waits while its store slot is loaded
    (atBarrier s p = true ↔ a.stopped = false ∧ (plotOf s p).stopped = false ∧ a.flushed = false ∧ (a.draining = true ∨ a.switchTo ≠ none)) ∧
    (let strict := ((activeSection s p).map (·.strict)).getD false
    let flushed := fun (b : Arr) => b.toks = [] ∧ b.outs = [] ∧ b.pass = [] ∧ b.draining = false ∧ b.residual = satAdd 64 a.residual (residualOf s p)
    let forced := updArr p (fun v => { v with forced := satInc 64 v.forced }) s
    flushed (plotOf (flushArray p s) p).arr ∧
    (∀ k, ∃ t, activateSection p k (flushArray p s) = closeOnSwitch p t ∧ flushed (plotOf t p).arr ∧ (plotOf t p).arr.active = some k ∧
      (plotOf t p).arr.switchTo = none ∧ (plotOf t p).arr.epoch = a.epoch + 1#16 ∧ (plotOf t p).arr.emitted = [] ∧ (plotOf t p).arr.accs = [] ∧
      (plotOf t p).arr.retired = [] ∧ (plotOf t p).arr.flushed = false ∧ (plotOf t p).arr.stopped = false) ∧
    (atBarrier s p = true → arrayQuiet s p = true → strict = false ∨ residualOf s p = 0 →
      (∀ k, a.switchTo = some k → slotLoading a k = false → exec (.drainBarrierReached p) s = .next (activateSection p k (flushArray p s))) ∧
      (∀ k, a.switchTo = some k → slotLoading a k = true → ∃ t, exec (.drainBarrierReached p) s = .next t ∧ flushed (plotOf t p).arr ∧
        (plotOf t p).arr.switchTo = some k ∧ (plotOf t p).arr.flushed = true ∧ (plotOf t p).arr.active = a.active ∧ (plotOf t p).arr.epoch = a.epoch) ∧
      (a.switchTo = none → ∃ t, exec (.drainBarrierReached p) s = .next t ∧ flushed (plotOf t p).arr ∧ (plotOf t p).arr.switchTo = none ∧
        (plotOf t p).arr.stopped = true ∧ (plotOf t p).arr.epoch = a.epoch)) ∧
    (atBarrier s p = true → arrayQuiet s p = true → strict = true → residualOf s p ≠ 0 →
      exec (.drainBarrierReached p) s = .next (sectionFault 2 p 0 0 0 (flushArray p s))) ∧
    (atBarrier s p = false ∨ arrayQuiet s p = false → exec (.drainBarrierReached p) s = .next s) ∧
    (atBarrier s p = false → exec (.drainLimitExpiry p) s = .next s) ∧
    (atBarrier s p = true → strict = true → exec (.drainLimitExpiry p) s = .next (sectionFault 3 p 0 0 0 s)) ∧
    (atBarrier s p = true → strict = false →
      (∀ k, a.switchTo = some k → slotLoading a k = false → exec (.drainLimitExpiry p) s = .next (activateSection p k (flushArray p forced))) ∧
      (∀ k, a.switchTo = some k → slotLoading a k = true → ∃ t, exec (.drainLimitExpiry p) s = .next t ∧ flushed (plotOf t p).arr ∧
        (plotOf t p).arr.forced = satInc 64 a.forced ∧ (plotOf t p).arr.switchTo = some k ∧ (plotOf t p).arr.flushed = true) ∧
      (a.switchTo = none → ∃ t, exec (.drainLimitExpiry p) s = .next t ∧ flushed (plotOf t p).arr ∧ (plotOf t p).arr.forced = satInc 64 a.forced ∧
        (plotOf t p).arr.stopped = true))) ∧
    (let starved := arrayRuns s p 0 = true ∧ a.toks ≠ [] ∧ openFirings s p = [] ∧ writesWait s p = false ∧ unitStalled s p = false ∧ a.loads = []
    (starved → exec (.starvationFault p) s = .next (sectionFault 1 p 0 0 0 s)) ∧ (¬starved → exec (.starvationFault p) s = .next s)) ∧
    (∀ e : U16, ((plotOf s p).assigned = true → (plotOf s p).stopped = false → e ≠ a.epoch → exec (.staleTokenDrop p e) s = .next (noteStale p s)) ∧
      ((plotOf s p).assigned = false ∨ (plotOf s p).stopped = true ∨ e = a.epoch → exec (.staleTokenDrop p e) s = .next s)))

/-- A firing on one plot of the array leaves the module's memory, fuses, pins, power, mailboxes, field test and every other plot's parameters, descriptors
and tables alone: no descriptor, parameter, byte or presence bit of another plot changes, and no byte of HBM (R63, R79, R120, R346). -/
def Obligations.NodesStayInTheirPlot : Prop :=
  ∀ (c : Instr) (n : NodeRef) (s t : State), nodeOf c = some n → exec c s = .next t →
    t.hbm = s.hbm ∧ t.otp = s.otp ∧ t.pins = s.pins ∧ t.pwr = s.pwr ∧ t.mbx = s.mbx ∧ t.test = s.test ∧ t.bridges = s.bridges ∧
    ∀ p, p ≠ n.plot → (plotOf t p).params = (plotOf s p).params ∧ (plotOf t p).descs = (plotOf s p).descs ∧
      ∀ i, (sliceOf t p i).spad = (sliceOf s p i).spad ∧ (sliceOf t p i).slotSt = (sliceOf s p i).slotSt

/-- Pins and fuses change only where the spec lets them: pins by the edges of POWER_GOOD, of RESET_N, of TRST_N and of the auxiliary rail; OTP by the
commands that program it and by a request that is taken from its ring (R340, R356, R357, R384, R385, R403, R405). -/
def Obligations.PinsAndFusesChangeOnlyBy : Prop :=
  ∀ (c : Instr) (s t : State), exec c s = .next t →
    (pinEdge c = false → t.pins = s.pins) ∧ (fuseCommand c = false → t.otp = s.otp)
end

