-- ==== Sys2Proof/Laws/Tables.lean ====
section
/-! SUPPORT. Laws of the two containers: what a table or a byte memory holds after a change, and that every operation over a byte memory
keeps the canonical form. -/

namespace Sys2Proof

/-! ## Tables -/

@[simp] theorem Tab.get_set_same {α : Type} (t : Tab α) (k : Nat) (v d : α) : Tab.get (Tab.set t k v) k d = v := by
  induction t with
  | nil => simp [Tab.set, Tab.get]
  | cons e r ih =>
    obtain ⟨j, w⟩ := e
    unfold Tab.set
    split
    · simp [Tab.get]
    · split
      · simp [Tab.get]
      · rename_i h; simp [Tab.get, h, ih]

theorem Tab.get_set_ne {α : Type} (t : Tab α) (k i : Nat) (v d : α) (h : i ≠ k) : Tab.get (Tab.set t k v) i d = Tab.get t i d := by
  induction t with
  | nil => simp [Tab.set, Tab.get, Ne.symm h]
  | cons e r ih =>
    obtain ⟨j, w⟩ := e
    unfold Tab.set
    split
    · simp [Tab.get, Ne.symm h]
    · split
      · rename_i hj; subst hj; simp [Tab.get, Ne.symm h]
      · simp [Tab.get, ih]

@[simp] theorem Tab.find_set_same {α : Type} (t : Tab α) (k : Nat) (v : α) : Tab.find (Tab.set t k v) k = some v := by
  induction t with
  | nil => simp [Tab.set, Tab.find]
  | cons e r ih =>
    obtain ⟨j, w⟩ := e
    unfold Tab.set
    split
    · simp [Tab.find]
    · split
      · simp [Tab.find]
      · rename_i h; simp [Tab.find, h, ih]

theorem Tab.find_set_ne {α : Type} (t : Tab α) (k i : Nat) (v : α) (h : i ≠ k) : Tab.find (Tab.set t k v) i = Tab.find t i := by
  induction t with
  | nil => simp [Tab.set, Tab.find, Ne.symm h]
  | cons e r ih =>
    obtain ⟨j, w⟩ := e
    unfold Tab.set
    split
    · simp [Tab.find, Ne.symm h]
    · split
      · rename_i hj; subst hj; simp [Tab.find, Ne.symm h]
      · simp [Tab.find, ih]

/-- What a table lists after a change: the new pair, or a pair that it listed. -/
theorem Tab.mem_set {α : Type} {t : Tab α} {k : Nat} {v : α} {e : Nat × α} (h : e ∈ Tab.set t k v) : e = (k, v) ∨ e ∈ t := by
  induction t with
  | nil => simp [Tab.set] at h; exact .inl h
  | cons f r ih =>
    obtain ⟨j, w⟩ := f
    unfold Tab.set at h
    split at h
    · simpa using h
    · split at h
      · simp only [List.mem_cons] at h ⊢
        exact h.imp id .inr
      · simp only [List.mem_cons] at h ⊢
        rcases h with h | h
        · exact .inr (.inl h)
        · exact (ih h).imp id .inr

theorem Tab.mem_erase {α : Type} {t : Tab α} {k : Nat} {e : Nat × α} (h : e ∈ Tab.erase t k) : e ∈ t := by
  induction t with
  | nil => simp [Tab.erase] at h
  | cons f r ih =>
    obtain ⟨j, w⟩ := f
    unfold Tab.erase at h
    split at h
    · exact List.mem_cons_of_mem _ h
    · simp only [List.mem_cons] at h ⊢; exact h.imp id ih

theorem Tab.mem_of_find {α : Type} {t : Tab α} {k : Nat} {v : α} (h : Tab.find t k = some v) : (k, v) ∈ t := by
  induction t with
  | nil => simp [Tab.find] at h
  | cons f r ih =>
    obtain ⟨j, w⟩ := f
    unfold Tab.find at h
    split at h
    · simp_all
    · exact List.mem_cons_of_mem _ (ih h)

/-- What a table answers at a key: the default, or the value of a pair that it lists. -/
theorem Tab.get_mem {α : Type} (t : Tab α) (k : Nat) (d : α) : Tab.get t k d = d ∨ (k, Tab.get t k d) ∈ t := by
  induction t with
  | nil => simp [Tab.get]
  | cons f r ih =>
    obtain ⟨j, w⟩ := f
    unfold Tab.get
    split
    · rename_i h; subst h; simp
    · rcases ih with h | h
      · exact .inl h
      · exact .inr (List.mem_cons_of_mem _ h)

theorem Tab.mem_mapVals {α : Type} {t : Tab α} {f : Nat → α → α} {e : Nat × α} (h : e ∈ Tab.mapVals t f) :
    ∃ v, (e.1, v) ∈ t ∧ e.2 = f e.1 v := by
  induction t with
  | nil => simp [Tab.mapVals] at h
  | cons g r ih =>
    obtain ⟨j, w⟩ := g
    simp only [Tab.mapVals, List.mem_cons] at h
    rcases h with h | h
    · subst h; exact ⟨w, by simp, rfl⟩
    · obtain ⟨v, hv, he⟩ := ih h; exact ⟨v, List.mem_cons_of_mem _ hv, he⟩

/-! ## Byte memory: the canonical form -/

/-- A memory above an address is above every lower one, and above none at all. -/
theorem Mem.wfFrom_weaken {m : Mem} {lo : Nat} (h : Mem.wfFrom (some lo) m = true) (lo' : Option Nat)
    (hl : ∀ l, lo' = some l → l ≤ lo) : Mem.wfFrom lo' m = true := by
  cases m with
  | nil => rfl
  | cons e r =>
    obtain ⟨j, v⟩ := e
    simp only [Mem.wfFrom, Bool.and_eq_true, decide_eq_true_eq] at h ⊢
    obtain ⟨⟨h1, h2⟩, h3⟩ := h
    refine ⟨⟨?_, h2⟩, h3⟩
    cases lo' with
    | none => rfl
    | some l => have := hl l rfl; simp only [decide_eq_true_eq]; omega

theorem Mem.wfFrom_set {m : Mem} (a : Nat) (b : Byte) : ∀ lo : Option Nat, (∀ l, lo = some l → l < a) → Mem.wfFrom lo m = true →
    Mem.wfFrom lo (Mem.set m a b) = true := by
  induction m with
  | nil =>
    intro lo hlo _
    unfold Mem.set
    split
    · rfl
    · cases lo with
      | none => simp_all [Mem.wfFrom]
      | some l => have := hlo l rfl; simp_all [Mem.wfFrom]
  | cons e r ih =>
    intro lo hlo h
    obtain ⟨j, v⟩ := e
    have h' := h
    simp only [Mem.wfFrom, Bool.and_eq_true, decide_eq_true_eq] at h
    obtain ⟨⟨h1, h2⟩, h3⟩ := h
    unfold Mem.set
    split
    · split
      · exact h'
      · rename_i hj hb
        simp only [Mem.wfFrom, h3, hj, h2, hb, Bool.and_true, decide_true, ne_eq, not_false_eq_true]
        cases lo with
        | none => rfl
        | some l => simpa using hlo l rfl
    · split
      · rename_i hj
        subst hj
        split
        · cases lo with
          | none => exact Mem.wfFrom_weaken h3 none (by simp)
          | some l => exact Mem.wfFrom_weaken h3 (some l) (by intro l' e; cases e; have := hlo l rfl; omega)
        · rename_i hb
          simp only [Mem.wfFrom, Bool.and_eq_true, decide_eq_true_eq]
          exact ⟨⟨h1, hb⟩, h3⟩
      · simp only [Mem.wfFrom, Bool.and_eq_true, decide_eq_true_eq]
        refine ⟨⟨h1, h2⟩, ih (some j) ?_ h3⟩
        intro l e; cases e; omega

/-- Storing a byte keeps the canonical form. -/
theorem Mem.wf_set {m : Mem} (a : Nat) (b : Byte) (h : Mem.wf m = true) : Mem.wf (Mem.set m a b) = true :=
  Mem.wfFrom_set a b none (by simp) h

/-- Storing bytes keeps the canonical form. -/
theorem Mem.wf_write {m : Mem} (a : Nat) (bs : List Byte) (h : Mem.wf m = true) : Mem.wf (Mem.write m a bs) = true := by
  induction bs generalizing m a with
  | nil => exact h
  | cons b r ih => exact ih (a + 1) (Mem.wf_set a b h)

theorem Mem.wfFrom_clear {m : Mem} (a n : Nat) : ∀ lo, Mem.wfFrom lo m = true → Mem.wfFrom lo (Mem.clear m a n) = true := by
  induction m with
  | nil => intro lo _; rfl
  | cons e r ih =>
    intro lo h
    obtain ⟨j, v⟩ := e
    simp only [Mem.wfFrom, Bool.and_eq_true, decide_eq_true_eq] at h
    obtain ⟨⟨h1, h2⟩, h3⟩ := h
    unfold Mem.clear
    split
    · refine ih lo ?_
      cases lo with
      | none => exact Mem.wfFrom_weaken h3 none (by simp)
      | some l => exact Mem.wfFrom_weaken h3 (some l) (by intro l' e; cases e; simp at h1; omega)
    · simp only [Mem.wfFrom, Bool.and_eq_true, decide_eq_true_eq]
      exact ⟨⟨h1, h2⟩, ih (some j) h3⟩

/-- Clearing a range keeps the canonical form. -/
theorem Mem.wf_clear {m : Mem} (a n : Nat) (h : Mem.wf m = true) : Mem.wf (Mem.clear m a n) = true := Mem.wfFrom_clear a n none h

theorem Mem.wfFrom_filter {m : Mem} (p : Nat × Byte → Bool) : ∀ lo, Mem.wfFrom lo m = true → Mem.wfFrom lo (m.filter p) = true := by
  induction m with
  | nil => intro lo _; rfl
  | cons e r ih =>
    intro lo h
    obtain ⟨j, v⟩ := e
    simp only [Mem.wfFrom, Bool.and_eq_true, decide_eq_true_eq] at h
    obtain ⟨⟨h1, h2⟩, h3⟩ := h
    rw [List.filter_cons]
    split
    · simp only [Mem.wfFrom, Bool.and_eq_true, decide_eq_true_eq]
      exact ⟨⟨h1, h2⟩, ih (some j) h3⟩
    · refine ih lo ?_
      cases lo with
      | none => exact Mem.wfFrom_weaken h3 none (by simp)
      | some l => exact Mem.wfFrom_weaken h3 (some l) (by intro l' e; cases e; simp at h1; omega)

/-- Leaving bytes out keeps the canonical form. -/
theorem Mem.wf_filter {m : Mem} (p : Nat × Byte → Bool) (h : Mem.wf m = true) : Mem.wf (m.filter p) = true := Mem.wfFrom_filter p none h

theorem Mem.wfFrom_slice {m : Mem} (a n : Nat) : ∀ lo, Mem.wfFrom lo m = true →
    Mem.wfFrom (lo.bind (fun l => if l < a then none else some (l - a))) (Mem.slice m a n) = true := by
  induction m with
  | nil => intro lo _; rfl
  | cons e r ih =>
    intro lo h
    obtain ⟨j, v⟩ := e
    simp only [Mem.wfFrom, Bool.and_eq_true, decide_eq_true_eq] at h
    obtain ⟨⟨h1, h2⟩, h3⟩ := h
    have h4 := ih (some j) h3
    unfold Mem.slice
    split
    · rename_i hj
      have hja : ¬ j < a := by omega
      simp only [Option.bind_some, hja, if_false] at h4
      simp only [Mem.wfFrom, Bool.and_eq_true, decide_eq_true_eq]
      refine ⟨⟨?_, h2⟩, h4⟩
      cases lo with
      | none => rfl
      | some l =>
        simp only [decide_eq_true_eq] at h1
        simp only [Option.bind_some]
        split
        · rename_i h'; split at h' <;> simp_all
        · rename_i h'
          split at h'
          · simp at h'
          · simp only [Option.some.injEq] at h'; subst h'; simp only [decide_eq_true_eq]; omega
    · refine ih lo ?_
      cases lo with
      | none => exact Mem.wfFrom_weaken h3 none (by simp)
      | some l => exact Mem.wfFrom_weaken h3 (some l) (by intro l' e; cases e; simp at h1; omega)

/-- A renumbered part keeps the canonical form. -/
theorem Mem.wf_slice {m : Mem} (a n : Nat) (h : Mem.wf m = true) : Mem.wf (Mem.slice m a n) = true := Mem.wfFrom_slice a n none h

/-! ## Byte memory: reading after writing -/

theorem Mem.get_below {m : Mem} {lo a : Nat} (h : Mem.wfFrom (some lo) m = true) (ha : a ≤ lo) : Mem.get m a = 0#8 := by
  induction m generalizing lo with
  | nil => rfl
  | cons e r ih =>
    obtain ⟨j, v⟩ := e
    simp only [Mem.wfFrom, Bool.and_eq_true, decide_eq_true_eq] at h
    unfold Mem.get
    split
    · omega
    · exact ih h.2 (by omega)

/-- A byte stored is read back, in a memory in canonical form. -/
theorem Mem.get_set_same {m : Mem} (a : Nat) (b : Byte) : ∀ lo, Mem.wfFrom lo m = true → Mem.get (Mem.set m a b) a = b := by
  induction m with
  | nil => intro lo _; unfold Mem.set; split <;> simp_all [Mem.get]
  | cons e r ih =>
    intro lo h
    obtain ⟨j, v⟩ := e
    simp only [Mem.wfFrom, Bool.and_eq_true, decide_eq_true_eq] at h
    obtain ⟨⟨h1, h2⟩, h3⟩ := h
    unfold Mem.set
    split
    · rename_i hj
      split
      · rename_i hb; simp only [Mem.get, Nat.ne_of_gt hj, if_false, hb]; exact Mem.get_below h3 (by omega)
      · simp [Mem.get]
    · split
      · rename_i hj
        split
        · rename_i hb; rw [hb]; exact Mem.get_below h3 (by omega)
        · simp [Mem.get]
      · rename_i hj; simp only [Mem.get, hj, if_false]; exact ih (some j) h3

/-- A byte stored leaves every other address as it was. -/
theorem Mem.get_set_ne {m : Mem} (a i : Nat) (b : Byte) (h : i ≠ a) : Mem.get (Mem.set m a b) i = Mem.get m i := by
  induction m with
  | nil => unfold Mem.set; split <;> simp [Mem.get, Ne.symm h]
  | cons e r ih =>
    obtain ⟨j, v⟩ := e
    unfold Mem.set
    split
    · split
      · rfl
      · simp [Mem.get, Ne.symm h]
    · split
      · rename_i hj
        subst hj
        split
        · simp [Mem.get, Ne.symm h]
        · simp [Mem.get, Ne.symm h]
      · simp [Mem.get, ih]

/-- Bytes stored leave every address outside them as it was. -/
theorem Mem.get_write_outside {m : Mem} (a i : Nat) (bs : List Byte) (h : i < a ∨ a + bs.length ≤ i) :
    Mem.get (Mem.write m a bs) i = Mem.get m i := by
  induction bs generalizing m a with
  | nil => rfl
  | cons b r ih =>
    simp only [List.length_cons] at h
    show Mem.get (Mem.write (Mem.set m a b) (a + 1) r) i = _
    rw [ih (a + 1) (by omega), Mem.get_set_ne a i b (by omega)]

/-- Bytes stored are read back. -/
theorem Mem.get_write_inside {m : Mem} (h : Mem.wf m = true) (a i : Nat) (bs : List Byte) (hi : i < bs.length) :
    Mem.get (Mem.write m a bs) (a + i) = bs[i] := by
  induction bs generalizing m a i with
  | nil => simp at hi
  | cons b r ih =>
    show Mem.get (Mem.write (Mem.set m a b) (a + 1) r) (a + i) = _
    cases i with
    | zero => rw [Mem.get_write_outside _ _ _ (by omega)]; exact Mem.get_set_same a b none h
    | succ i =>
      have := ih (m := Mem.set m a b) (Mem.wf_set a b h) (a + 1) i (by simpa using hi)
      rw [show a + (i + 1) = a + 1 + i by omega]; simpa using this

end Sys2Proof
end

