-- ==== Sys2Proof/Laws/State.lean ====
section
/-! SUPPORT. Every part of the state after each update of one part, by definition, so that no proof unfolds an update; and the
parts that the shared records (events, violations) leave alone. -/

namespace Sys2Proof.Machine

open Sys2Proof

/-! ### `mapPins` -/

section
variable (f : Pins → Pins) (s : State)
@[simp] theorem mapPins_pending : (mapPins f s).pending = s.pending := (rfl)
@[simp] theorem mapPins_pins : (mapPins f s).pins = f s.pins := (rfl)
@[simp] theorem mapPins_ctl : (mapPins f s).ctl = s.ctl := (rfl)
@[simp] theorem mapPins_pwr : (mapPins f s).pwr = s.pwr := (rfl)
@[simp] theorem mapPins_otp : (mapPins f s).otp = s.otp := (rfl)
@[simp] theorem mapPins_flash : (mapPins f s).flash = s.flash := (rfl)
@[simp] theorem mapPins_gateh : (mapPins f s).gateh = s.gateh := (rfl)
@[simp] theorem mapPins_mbx : (mapPins f s).mbx = s.mbx := (rfl)
@[simp] theorem mapPins_evt : (mapPins f s).evt = s.evt := (rfl)
@[simp] theorem mapPins_job : (mapPins f s).job = s.job := (rfl)
@[simp] theorem mapPins_chans : (mapPins f s).chans = s.chans := (rfl)
@[simp] theorem mapPins_plots : (mapPins f s).plots = s.plots := (rfl)
@[simp] theorem mapPins_flds : (mapPins f s).flds = s.flds := (rfl)
@[simp] theorem mapPins_grid : (mapPins f s).grid = s.grid := (rfl)
@[simp] theorem mapPins_bridges : (mapPins f s).bridges = s.bridges := (rfl)
@[simp] theorem mapPins_hbm : (mapPins f s).hbm = s.hbm := (rfl)
@[simp] theorem mapPins_links : (mapPins f s).links = s.links := (rfl)
@[simp] theorem mapPins_mesh : (mapPins f s).mesh = s.mesh := (rfl)
@[simp] theorem mapPins_test : (mapPins f s).test = s.test := (rfl)
@[simp] theorem mapPins_health : (mapPins f s).health = s.health := (rfl)
@[simp] theorem mapPins_free : (mapPins f s).free = s.free := (rfl)
end

/-! ### `mapCtl` -/

section
variable (f : Ctl → Ctl) (s : State)
@[simp] theorem mapCtl_pending : (mapCtl f s).pending = s.pending := (rfl)
@[simp] theorem mapCtl_pins : (mapCtl f s).pins = s.pins := (rfl)
@[simp] theorem mapCtl_ctl : (mapCtl f s).ctl = f s.ctl := (rfl)
@[simp] theorem mapCtl_pwr : (mapCtl f s).pwr = s.pwr := (rfl)
@[simp] theorem mapCtl_otp : (mapCtl f s).otp = s.otp := (rfl)
@[simp] theorem mapCtl_flash : (mapCtl f s).flash = s.flash := (rfl)
@[simp] theorem mapCtl_gateh : (mapCtl f s).gateh = s.gateh := (rfl)
@[simp] theorem mapCtl_mbx : (mapCtl f s).mbx = s.mbx := (rfl)
@[simp] theorem mapCtl_evt : (mapCtl f s).evt = s.evt := (rfl)
@[simp] theorem mapCtl_job : (mapCtl f s).job = s.job := (rfl)
@[simp] theorem mapCtl_chans : (mapCtl f s).chans = s.chans := (rfl)
@[simp] theorem mapCtl_plots : (mapCtl f s).plots = s.plots := (rfl)
@[simp] theorem mapCtl_flds : (mapCtl f s).flds = s.flds := (rfl)
@[simp] theorem mapCtl_grid : (mapCtl f s).grid = s.grid := (rfl)
@[simp] theorem mapCtl_bridges : (mapCtl f s).bridges = s.bridges := (rfl)
@[simp] theorem mapCtl_hbm : (mapCtl f s).hbm = s.hbm := (rfl)
@[simp] theorem mapCtl_links : (mapCtl f s).links = s.links := (rfl)
@[simp] theorem mapCtl_mesh : (mapCtl f s).mesh = s.mesh := (rfl)
@[simp] theorem mapCtl_test : (mapCtl f s).test = s.test := (rfl)
@[simp] theorem mapCtl_health : (mapCtl f s).health = s.health := (rfl)
@[simp] theorem mapCtl_free : (mapCtl f s).free = s.free := (rfl)
end

/-! ### `mapPwr` -/

section
variable (f : Power → Power) (s : State)
@[simp] theorem mapPwr_pending : (mapPwr f s).pending = s.pending := (rfl)
@[simp] theorem mapPwr_pins : (mapPwr f s).pins = s.pins := (rfl)
@[simp] theorem mapPwr_ctl : (mapPwr f s).ctl = s.ctl := (rfl)
@[simp] theorem mapPwr_pwr : (mapPwr f s).pwr = f s.pwr := (rfl)
@[simp] theorem mapPwr_otp : (mapPwr f s).otp = s.otp := (rfl)
@[simp] theorem mapPwr_flash : (mapPwr f s).flash = s.flash := (rfl)
@[simp] theorem mapPwr_gateh : (mapPwr f s).gateh = s.gateh := (rfl)
@[simp] theorem mapPwr_mbx : (mapPwr f s).mbx = s.mbx := (rfl)
@[simp] theorem mapPwr_evt : (mapPwr f s).evt = s.evt := (rfl)
@[simp] theorem mapPwr_job : (mapPwr f s).job = s.job := (rfl)
@[simp] theorem mapPwr_chans : (mapPwr f s).chans = s.chans := (rfl)
@[simp] theorem mapPwr_plots : (mapPwr f s).plots = s.plots := (rfl)
@[simp] theorem mapPwr_flds : (mapPwr f s).flds = s.flds := (rfl)
@[simp] theorem mapPwr_grid : (mapPwr f s).grid = s.grid := (rfl)
@[simp] theorem mapPwr_bridges : (mapPwr f s).bridges = s.bridges := (rfl)
@[simp] theorem mapPwr_hbm : (mapPwr f s).hbm = s.hbm := (rfl)
@[simp] theorem mapPwr_links : (mapPwr f s).links = s.links := (rfl)
@[simp] theorem mapPwr_mesh : (mapPwr f s).mesh = s.mesh := (rfl)
@[simp] theorem mapPwr_test : (mapPwr f s).test = s.test := (rfl)
@[simp] theorem mapPwr_health : (mapPwr f s).health = s.health := (rfl)
@[simp] theorem mapPwr_free : (mapPwr f s).free = s.free := (rfl)
end

/-! ### `mapOtp` -/

section
variable (f : Otp → Otp) (s : State)
@[simp] theorem mapOtp_pending : (mapOtp f s).pending = s.pending := (rfl)
@[simp] theorem mapOtp_pins : (mapOtp f s).pins = s.pins := (rfl)
@[simp] theorem mapOtp_ctl : (mapOtp f s).ctl = s.ctl := (rfl)
@[simp] theorem mapOtp_pwr : (mapOtp f s).pwr = s.pwr := (rfl)
@[simp] theorem mapOtp_otp : (mapOtp f s).otp = f s.otp := (rfl)
@[simp] theorem mapOtp_flash : (mapOtp f s).flash = s.flash := (rfl)
@[simp] theorem mapOtp_gateh : (mapOtp f s).gateh = s.gateh := (rfl)
@[simp] theorem mapOtp_mbx : (mapOtp f s).mbx = s.mbx := (rfl)
@[simp] theorem mapOtp_evt : (mapOtp f s).evt = s.evt := (rfl)
@[simp] theorem mapOtp_job : (mapOtp f s).job = s.job := (rfl)
@[simp] theorem mapOtp_chans : (mapOtp f s).chans = s.chans := (rfl)
@[simp] theorem mapOtp_plots : (mapOtp f s).plots = s.plots := (rfl)
@[simp] theorem mapOtp_flds : (mapOtp f s).flds = s.flds := (rfl)
@[simp] theorem mapOtp_grid : (mapOtp f s).grid = s.grid := (rfl)
@[simp] theorem mapOtp_bridges : (mapOtp f s).bridges = s.bridges := (rfl)
@[simp] theorem mapOtp_hbm : (mapOtp f s).hbm = s.hbm := (rfl)
@[simp] theorem mapOtp_links : (mapOtp f s).links = s.links := (rfl)
@[simp] theorem mapOtp_mesh : (mapOtp f s).mesh = s.mesh := (rfl)
@[simp] theorem mapOtp_test : (mapOtp f s).test = s.test := (rfl)
@[simp] theorem mapOtp_health : (mapOtp f s).health = s.health := (rfl)
@[simp] theorem mapOtp_free : (mapOtp f s).free = s.free := (rfl)
end

/-! ### `mapFlash` -/

section
variable (f : Flash → Flash) (s : State)
@[simp] theorem mapFlash_pending : (mapFlash f s).pending = s.pending := (rfl)
@[simp] theorem mapFlash_pins : (mapFlash f s).pins = s.pins := (rfl)
@[simp] theorem mapFlash_ctl : (mapFlash f s).ctl = s.ctl := (rfl)
@[simp] theorem mapFlash_pwr : (mapFlash f s).pwr = s.pwr := (rfl)
@[simp] theorem mapFlash_otp : (mapFlash f s).otp = s.otp := (rfl)
@[simp] theorem mapFlash_flash : (mapFlash f s).flash = f s.flash := (rfl)
@[simp] theorem mapFlash_gateh : (mapFlash f s).gateh = s.gateh := (rfl)
@[simp] theorem mapFlash_mbx : (mapFlash f s).mbx = s.mbx := (rfl)
@[simp] theorem mapFlash_evt : (mapFlash f s).evt = s.evt := (rfl)
@[simp] theorem mapFlash_job : (mapFlash f s).job = s.job := (rfl)
@[simp] theorem mapFlash_chans : (mapFlash f s).chans = s.chans := (rfl)
@[simp] theorem mapFlash_plots : (mapFlash f s).plots = s.plots := (rfl)
@[simp] theorem mapFlash_flds : (mapFlash f s).flds = s.flds := (rfl)
@[simp] theorem mapFlash_grid : (mapFlash f s).grid = s.grid := (rfl)
@[simp] theorem mapFlash_bridges : (mapFlash f s).bridges = s.bridges := (rfl)
@[simp] theorem mapFlash_hbm : (mapFlash f s).hbm = s.hbm := (rfl)
@[simp] theorem mapFlash_links : (mapFlash f s).links = s.links := (rfl)
@[simp] theorem mapFlash_mesh : (mapFlash f s).mesh = s.mesh := (rfl)
@[simp] theorem mapFlash_test : (mapFlash f s).test = s.test := (rfl)
@[simp] theorem mapFlash_health : (mapFlash f s).health = s.health := (rfl)
@[simp] theorem mapFlash_free : (mapFlash f s).free = s.free := (rfl)
end

/-! ### `mapGate` -/

section
variable (f : Gate → Gate) (s : State)
@[simp] theorem mapGate_pending : (mapGate f s).pending = s.pending := (rfl)
@[simp] theorem mapGate_pins : (mapGate f s).pins = s.pins := (rfl)
@[simp] theorem mapGate_ctl : (mapGate f s).ctl = s.ctl := (rfl)
@[simp] theorem mapGate_pwr : (mapGate f s).pwr = s.pwr := (rfl)
@[simp] theorem mapGate_otp : (mapGate f s).otp = s.otp := (rfl)
@[simp] theorem mapGate_flash : (mapGate f s).flash = s.flash := (rfl)
@[simp] theorem mapGate_gateh : (mapGate f s).gateh = f s.gateh := (rfl)
@[simp] theorem mapGate_mbx : (mapGate f s).mbx = s.mbx := (rfl)
@[simp] theorem mapGate_evt : (mapGate f s).evt = s.evt := (rfl)
@[simp] theorem mapGate_job : (mapGate f s).job = s.job := (rfl)
@[simp] theorem mapGate_chans : (mapGate f s).chans = s.chans := (rfl)
@[simp] theorem mapGate_plots : (mapGate f s).plots = s.plots := (rfl)
@[simp] theorem mapGate_flds : (mapGate f s).flds = s.flds := (rfl)
@[simp] theorem mapGate_grid : (mapGate f s).grid = s.grid := (rfl)
@[simp] theorem mapGate_bridges : (mapGate f s).bridges = s.bridges := (rfl)
@[simp] theorem mapGate_hbm : (mapGate f s).hbm = s.hbm := (rfl)
@[simp] theorem mapGate_links : (mapGate f s).links = s.links := (rfl)
@[simp] theorem mapGate_mesh : (mapGate f s).mesh = s.mesh := (rfl)
@[simp] theorem mapGate_test : (mapGate f s).test = s.test := (rfl)
@[simp] theorem mapGate_health : (mapGate f s).health = s.health := (rfl)
@[simp] theorem mapGate_free : (mapGate f s).free = s.free := (rfl)
end

/-! ### `mapMbx` -/

section
variable (f : Mbx → Mbx) (s : State)
@[simp] theorem mapMbx_pending : (mapMbx f s).pending = s.pending := (rfl)
@[simp] theorem mapMbx_pins : (mapMbx f s).pins = s.pins := (rfl)
@[simp] theorem mapMbx_ctl : (mapMbx f s).ctl = s.ctl := (rfl)
@[simp] theorem mapMbx_pwr : (mapMbx f s).pwr = s.pwr := (rfl)
@[simp] theorem mapMbx_otp : (mapMbx f s).otp = s.otp := (rfl)
@[simp] theorem mapMbx_flash : (mapMbx f s).flash = s.flash := (rfl)
@[simp] theorem mapMbx_gateh : (mapMbx f s).gateh = s.gateh := (rfl)
@[simp] theorem mapMbx_mbx : (mapMbx f s).mbx = f s.mbx := (rfl)
@[simp] theorem mapMbx_evt : (mapMbx f s).evt = s.evt := (rfl)
@[simp] theorem mapMbx_job : (mapMbx f s).job = s.job := (rfl)
@[simp] theorem mapMbx_chans : (mapMbx f s).chans = s.chans := (rfl)
@[simp] theorem mapMbx_plots : (mapMbx f s).plots = s.plots := (rfl)
@[simp] theorem mapMbx_flds : (mapMbx f s).flds = s.flds := (rfl)
@[simp] theorem mapMbx_grid : (mapMbx f s).grid = s.grid := (rfl)
@[simp] theorem mapMbx_bridges : (mapMbx f s).bridges = s.bridges := (rfl)
@[simp] theorem mapMbx_hbm : (mapMbx f s).hbm = s.hbm := (rfl)
@[simp] theorem mapMbx_links : (mapMbx f s).links = s.links := (rfl)
@[simp] theorem mapMbx_mesh : (mapMbx f s).mesh = s.mesh := (rfl)
@[simp] theorem mapMbx_test : (mapMbx f s).test = s.test := (rfl)
@[simp] theorem mapMbx_health : (mapMbx f s).health = s.health := (rfl)
@[simp] theorem mapMbx_free : (mapMbx f s).free = s.free := (rfl)
end

/-! ### `mapEvt` -/

section
variable (f : Events → Events) (s : State)
@[simp] theorem mapEvt_pending : (mapEvt f s).pending = s.pending := (rfl)
@[simp] theorem mapEvt_pins : (mapEvt f s).pins = s.pins := (rfl)
@[simp] theorem mapEvt_ctl : (mapEvt f s).ctl = s.ctl := (rfl)
@[simp] theorem mapEvt_pwr : (mapEvt f s).pwr = s.pwr := (rfl)
@[simp] theorem mapEvt_otp : (mapEvt f s).otp = s.otp := (rfl)
@[simp] theorem mapEvt_flash : (mapEvt f s).flash = s.flash := (rfl)
@[simp] theorem mapEvt_gateh : (mapEvt f s).gateh = s.gateh := (rfl)
@[simp] theorem mapEvt_mbx : (mapEvt f s).mbx = s.mbx := (rfl)
@[simp] theorem mapEvt_evt : (mapEvt f s).evt = f s.evt := (rfl)
@[simp] theorem mapEvt_job : (mapEvt f s).job = s.job := (rfl)
@[simp] theorem mapEvt_chans : (mapEvt f s).chans = s.chans := (rfl)
@[simp] theorem mapEvt_plots : (mapEvt f s).plots = s.plots := (rfl)
@[simp] theorem mapEvt_flds : (mapEvt f s).flds = s.flds := (rfl)
@[simp] theorem mapEvt_grid : (mapEvt f s).grid = s.grid := (rfl)
@[simp] theorem mapEvt_bridges : (mapEvt f s).bridges = s.bridges := (rfl)
@[simp] theorem mapEvt_hbm : (mapEvt f s).hbm = s.hbm := (rfl)
@[simp] theorem mapEvt_links : (mapEvt f s).links = s.links := (rfl)
@[simp] theorem mapEvt_mesh : (mapEvt f s).mesh = s.mesh := (rfl)
@[simp] theorem mapEvt_test : (mapEvt f s).test = s.test := (rfl)
@[simp] theorem mapEvt_health : (mapEvt f s).health = s.health := (rfl)
@[simp] theorem mapEvt_free : (mapEvt f s).free = s.free := (rfl)
end

/-! ### `mapJob` -/

section
variable (f : Job → Job) (s : State)
@[simp] theorem mapJob_pending : (mapJob f s).pending = s.pending := (rfl)
@[simp] theorem mapJob_pins : (mapJob f s).pins = s.pins := (rfl)
@[simp] theorem mapJob_ctl : (mapJob f s).ctl = s.ctl := (rfl)
@[simp] theorem mapJob_pwr : (mapJob f s).pwr = s.pwr := (rfl)
@[simp] theorem mapJob_otp : (mapJob f s).otp = s.otp := (rfl)
@[simp] theorem mapJob_flash : (mapJob f s).flash = s.flash := (rfl)
@[simp] theorem mapJob_gateh : (mapJob f s).gateh = s.gateh := (rfl)
@[simp] theorem mapJob_mbx : (mapJob f s).mbx = s.mbx := (rfl)
@[simp] theorem mapJob_evt : (mapJob f s).evt = s.evt := (rfl)
@[simp] theorem mapJob_job : (mapJob f s).job = f s.job := (rfl)
@[simp] theorem mapJob_chans : (mapJob f s).chans = s.chans := (rfl)
@[simp] theorem mapJob_plots : (mapJob f s).plots = s.plots := (rfl)
@[simp] theorem mapJob_flds : (mapJob f s).flds = s.flds := (rfl)
@[simp] theorem mapJob_grid : (mapJob f s).grid = s.grid := (rfl)
@[simp] theorem mapJob_bridges : (mapJob f s).bridges = s.bridges := (rfl)
@[simp] theorem mapJob_hbm : (mapJob f s).hbm = s.hbm := (rfl)
@[simp] theorem mapJob_links : (mapJob f s).links = s.links := (rfl)
@[simp] theorem mapJob_mesh : (mapJob f s).mesh = s.mesh := (rfl)
@[simp] theorem mapJob_test : (mapJob f s).test = s.test := (rfl)
@[simp] theorem mapJob_health : (mapJob f s).health = s.health := (rfl)
@[simp] theorem mapJob_free : (mapJob f s).free = s.free := (rfl)
end

/-! ### `mapChans` -/

section
variable (f : Tab ChanState → Tab ChanState) (s : State)
@[simp] theorem mapChans_pending : (mapChans f s).pending = s.pending := (rfl)
@[simp] theorem mapChans_pins : (mapChans f s).pins = s.pins := (rfl)
@[simp] theorem mapChans_ctl : (mapChans f s).ctl = s.ctl := (rfl)
@[simp] theorem mapChans_pwr : (mapChans f s).pwr = s.pwr := (rfl)
@[simp] theorem mapChans_otp : (mapChans f s).otp = s.otp := (rfl)
@[simp] theorem mapChans_flash : (mapChans f s).flash = s.flash := (rfl)
@[simp] theorem mapChans_gateh : (mapChans f s).gateh = s.gateh := (rfl)
@[simp] theorem mapChans_mbx : (mapChans f s).mbx = s.mbx := (rfl)
@[simp] theorem mapChans_evt : (mapChans f s).evt = s.evt := (rfl)
@[simp] theorem mapChans_job : (mapChans f s).job = s.job := (rfl)
@[simp] theorem mapChans_chans : (mapChans f s).chans = f s.chans := (rfl)
@[simp] theorem mapChans_plots : (mapChans f s).plots = s.plots := (rfl)
@[simp] theorem mapChans_flds : (mapChans f s).flds = s.flds := (rfl)
@[simp] theorem mapChans_grid : (mapChans f s).grid = s.grid := (rfl)
@[simp] theorem mapChans_bridges : (mapChans f s).bridges = s.bridges := (rfl)
@[simp] theorem mapChans_hbm : (mapChans f s).hbm = s.hbm := (rfl)
@[simp] theorem mapChans_links : (mapChans f s).links = s.links := (rfl)
@[simp] theorem mapChans_mesh : (mapChans f s).mesh = s.mesh := (rfl)
@[simp] theorem mapChans_test : (mapChans f s).test = s.test := (rfl)
@[simp] theorem mapChans_health : (mapChans f s).health = s.health := (rfl)
@[simp] theorem mapChans_free : (mapChans f s).free = s.free := (rfl)
end

/-! ### `mapPlots` -/

section
variable (f : Tab Plot → Tab Plot) (s : State)
@[simp] theorem mapPlots_pending : (mapPlots f s).pending = s.pending := (rfl)
@[simp] theorem mapPlots_pins : (mapPlots f s).pins = s.pins := (rfl)
@[simp] theorem mapPlots_ctl : (mapPlots f s).ctl = s.ctl := (rfl)
@[simp] theorem mapPlots_pwr : (mapPlots f s).pwr = s.pwr := (rfl)
@[simp] theorem mapPlots_otp : (mapPlots f s).otp = s.otp := (rfl)
@[simp] theorem mapPlots_flash : (mapPlots f s).flash = s.flash := (rfl)
@[simp] theorem mapPlots_gateh : (mapPlots f s).gateh = s.gateh := (rfl)
@[simp] theorem mapPlots_mbx : (mapPlots f s).mbx = s.mbx := (rfl)
@[simp] theorem mapPlots_evt : (mapPlots f s).evt = s.evt := (rfl)
@[simp] theorem mapPlots_job : (mapPlots f s).job = s.job := (rfl)
@[simp] theorem mapPlots_chans : (mapPlots f s).chans = s.chans := (rfl)
@[simp] theorem mapPlots_plots : (mapPlots f s).plots = f s.plots := (rfl)
@[simp] theorem mapPlots_flds : (mapPlots f s).flds = s.flds := (rfl)
@[simp] theorem mapPlots_grid : (mapPlots f s).grid = s.grid := (rfl)
@[simp] theorem mapPlots_bridges : (mapPlots f s).bridges = s.bridges := (rfl)
@[simp] theorem mapPlots_hbm : (mapPlots f s).hbm = s.hbm := (rfl)
@[simp] theorem mapPlots_links : (mapPlots f s).links = s.links := (rfl)
@[simp] theorem mapPlots_mesh : (mapPlots f s).mesh = s.mesh := (rfl)
@[simp] theorem mapPlots_test : (mapPlots f s).test = s.test := (rfl)
@[simp] theorem mapPlots_health : (mapPlots f s).health = s.health := (rfl)
@[simp] theorem mapPlots_free : (mapPlots f s).free = s.free := (rfl)
end

/-! ### `mapFlds` -/

section
variable (f : Tab Field → Tab Field) (s : State)
@[simp] theorem mapFlds_pending : (mapFlds f s).pending = s.pending := (rfl)
@[simp] theorem mapFlds_pins : (mapFlds f s).pins = s.pins := (rfl)
@[simp] theorem mapFlds_ctl : (mapFlds f s).ctl = s.ctl := (rfl)
@[simp] theorem mapFlds_pwr : (mapFlds f s).pwr = s.pwr := (rfl)
@[simp] theorem mapFlds_otp : (mapFlds f s).otp = s.otp := (rfl)
@[simp] theorem mapFlds_flash : (mapFlds f s).flash = s.flash := (rfl)
@[simp] theorem mapFlds_gateh : (mapFlds f s).gateh = s.gateh := (rfl)
@[simp] theorem mapFlds_mbx : (mapFlds f s).mbx = s.mbx := (rfl)
@[simp] theorem mapFlds_evt : (mapFlds f s).evt = s.evt := (rfl)
@[simp] theorem mapFlds_job : (mapFlds f s).job = s.job := (rfl)
@[simp] theorem mapFlds_chans : (mapFlds f s).chans = s.chans := (rfl)
@[simp] theorem mapFlds_plots : (mapFlds f s).plots = s.plots := (rfl)
@[simp] theorem mapFlds_flds : (mapFlds f s).flds = f s.flds := (rfl)
@[simp] theorem mapFlds_grid : (mapFlds f s).grid = s.grid := (rfl)
@[simp] theorem mapFlds_bridges : (mapFlds f s).bridges = s.bridges := (rfl)
@[simp] theorem mapFlds_hbm : (mapFlds f s).hbm = s.hbm := (rfl)
@[simp] theorem mapFlds_links : (mapFlds f s).links = s.links := (rfl)
@[simp] theorem mapFlds_mesh : (mapFlds f s).mesh = s.mesh := (rfl)
@[simp] theorem mapFlds_test : (mapFlds f s).test = s.test := (rfl)
@[simp] theorem mapFlds_health : (mapFlds f s).health = s.health := (rfl)
@[simp] theorem mapFlds_free : (mapFlds f s).free = s.free := (rfl)
end

/-! ### `mapGrid` -/

section
variable (f : Tab Trellis → Tab Trellis) (s : State)
@[simp] theorem mapGrid_pending : (mapGrid f s).pending = s.pending := (rfl)
@[simp] theorem mapGrid_pins : (mapGrid f s).pins = s.pins := (rfl)
@[simp] theorem mapGrid_ctl : (mapGrid f s).ctl = s.ctl := (rfl)
@[simp] theorem mapGrid_pwr : (mapGrid f s).pwr = s.pwr := (rfl)
@[simp] theorem mapGrid_otp : (mapGrid f s).otp = s.otp := (rfl)
@[simp] theorem mapGrid_flash : (mapGrid f s).flash = s.flash := (rfl)
@[simp] theorem mapGrid_gateh : (mapGrid f s).gateh = s.gateh := (rfl)
@[simp] theorem mapGrid_mbx : (mapGrid f s).mbx = s.mbx := (rfl)
@[simp] theorem mapGrid_evt : (mapGrid f s).evt = s.evt := (rfl)
@[simp] theorem mapGrid_job : (mapGrid f s).job = s.job := (rfl)
@[simp] theorem mapGrid_chans : (mapGrid f s).chans = s.chans := (rfl)
@[simp] theorem mapGrid_plots : (mapGrid f s).plots = s.plots := (rfl)
@[simp] theorem mapGrid_flds : (mapGrid f s).flds = s.flds := (rfl)
@[simp] theorem mapGrid_grid : (mapGrid f s).grid = f s.grid := (rfl)
@[simp] theorem mapGrid_bridges : (mapGrid f s).bridges = s.bridges := (rfl)
@[simp] theorem mapGrid_hbm : (mapGrid f s).hbm = s.hbm := (rfl)
@[simp] theorem mapGrid_links : (mapGrid f s).links = s.links := (rfl)
@[simp] theorem mapGrid_mesh : (mapGrid f s).mesh = s.mesh := (rfl)
@[simp] theorem mapGrid_test : (mapGrid f s).test = s.test := (rfl)
@[simp] theorem mapGrid_health : (mapGrid f s).health = s.health := (rfl)
@[simp] theorem mapGrid_free : (mapGrid f s).free = s.free := (rfl)
end

/-! ### `mapBridges` -/

section
variable (f : Tab Bool → Tab Bool) (s : State)
@[simp] theorem mapBridges_pending : (mapBridges f s).pending = s.pending := (rfl)
@[simp] theorem mapBridges_pins : (mapBridges f s).pins = s.pins := (rfl)
@[simp] theorem mapBridges_ctl : (mapBridges f s).ctl = s.ctl := (rfl)
@[simp] theorem mapBridges_pwr : (mapBridges f s).pwr = s.pwr := (rfl)
@[simp] theorem mapBridges_otp : (mapBridges f s).otp = s.otp := (rfl)
@[simp] theorem mapBridges_flash : (mapBridges f s).flash = s.flash := (rfl)
@[simp] theorem mapBridges_gateh : (mapBridges f s).gateh = s.gateh := (rfl)
@[simp] theorem mapBridges_mbx : (mapBridges f s).mbx = s.mbx := (rfl)
@[simp] theorem mapBridges_evt : (mapBridges f s).evt = s.evt := (rfl)
@[simp] theorem mapBridges_job : (mapBridges f s).job = s.job := (rfl)
@[simp] theorem mapBridges_chans : (mapBridges f s).chans = s.chans := (rfl)
@[simp] theorem mapBridges_plots : (mapBridges f s).plots = s.plots := (rfl)
@[simp] theorem mapBridges_flds : (mapBridges f s).flds = s.flds := (rfl)
@[simp] theorem mapBridges_grid : (mapBridges f s).grid = s.grid := (rfl)
@[simp] theorem mapBridges_bridges : (mapBridges f s).bridges = f s.bridges := (rfl)
@[simp] theorem mapBridges_hbm : (mapBridges f s).hbm = s.hbm := (rfl)
@[simp] theorem mapBridges_links : (mapBridges f s).links = s.links := (rfl)
@[simp] theorem mapBridges_mesh : (mapBridges f s).mesh = s.mesh := (rfl)
@[simp] theorem mapBridges_test : (mapBridges f s).test = s.test := (rfl)
@[simp] theorem mapBridges_health : (mapBridges f s).health = s.health := (rfl)
@[simp] theorem mapBridges_free : (mapBridges f s).free = s.free := (rfl)
end

/-! ### `mapHbm` -/

section
variable (f : Hbm → Hbm) (s : State)
@[simp] theorem mapHbm_pending : (mapHbm f s).pending = s.pending := (rfl)
@[simp] theorem mapHbm_pins : (mapHbm f s).pins = s.pins := (rfl)
@[simp] theorem mapHbm_ctl : (mapHbm f s).ctl = s.ctl := (rfl)
@[simp] theorem mapHbm_pwr : (mapHbm f s).pwr = s.pwr := (rfl)
@[simp] theorem mapHbm_otp : (mapHbm f s).otp = s.otp := (rfl)
@[simp] theorem mapHbm_flash : (mapHbm f s).flash = s.flash := (rfl)
@[simp] theorem mapHbm_gateh : (mapHbm f s).gateh = s.gateh := (rfl)
@[simp] theorem mapHbm_mbx : (mapHbm f s).mbx = s.mbx := (rfl)
@[simp] theorem mapHbm_evt : (mapHbm f s).evt = s.evt := (rfl)
@[simp] theorem mapHbm_job : (mapHbm f s).job = s.job := (rfl)
@[simp] theorem mapHbm_chans : (mapHbm f s).chans = s.chans := (rfl)
@[simp] theorem mapHbm_plots : (mapHbm f s).plots = s.plots := (rfl)
@[simp] theorem mapHbm_flds : (mapHbm f s).flds = s.flds := (rfl)
@[simp] theorem mapHbm_grid : (mapHbm f s).grid = s.grid := (rfl)
@[simp] theorem mapHbm_bridges : (mapHbm f s).bridges = s.bridges := (rfl)
@[simp] theorem mapHbm_hbm : (mapHbm f s).hbm = f s.hbm := (rfl)
@[simp] theorem mapHbm_links : (mapHbm f s).links = s.links := (rfl)
@[simp] theorem mapHbm_mesh : (mapHbm f s).mesh = s.mesh := (rfl)
@[simp] theorem mapHbm_test : (mapHbm f s).test = s.test := (rfl)
@[simp] theorem mapHbm_health : (mapHbm f s).health = s.health := (rfl)
@[simp] theorem mapHbm_free : (mapHbm f s).free = s.free := (rfl)
end

/-! ### `mapLinks` -/

section
variable (f : Tab Port → Tab Port) (s : State)
@[simp] theorem mapLinks_pending : (mapLinks f s).pending = s.pending := (rfl)
@[simp] theorem mapLinks_pins : (mapLinks f s).pins = s.pins := (rfl)
@[simp] theorem mapLinks_ctl : (mapLinks f s).ctl = s.ctl := (rfl)
@[simp] theorem mapLinks_pwr : (mapLinks f s).pwr = s.pwr := (rfl)
@[simp] theorem mapLinks_otp : (mapLinks f s).otp = s.otp := (rfl)
@[simp] theorem mapLinks_flash : (mapLinks f s).flash = s.flash := (rfl)
@[simp] theorem mapLinks_gateh : (mapLinks f s).gateh = s.gateh := (rfl)
@[simp] theorem mapLinks_mbx : (mapLinks f s).mbx = s.mbx := (rfl)
@[simp] theorem mapLinks_evt : (mapLinks f s).evt = s.evt := (rfl)
@[simp] theorem mapLinks_job : (mapLinks f s).job = s.job := (rfl)
@[simp] theorem mapLinks_chans : (mapLinks f s).chans = s.chans := (rfl)
@[simp] theorem mapLinks_plots : (mapLinks f s).plots = s.plots := (rfl)
@[simp] theorem mapLinks_flds : (mapLinks f s).flds = s.flds := (rfl)
@[simp] theorem mapLinks_grid : (mapLinks f s).grid = s.grid := (rfl)
@[simp] theorem mapLinks_bridges : (mapLinks f s).bridges = s.bridges := (rfl)
@[simp] theorem mapLinks_hbm : (mapLinks f s).hbm = s.hbm := (rfl)
@[simp] theorem mapLinks_links : (mapLinks f s).links = f s.links := (rfl)
@[simp] theorem mapLinks_mesh : (mapLinks f s).mesh = s.mesh := (rfl)
@[simp] theorem mapLinks_test : (mapLinks f s).test = s.test := (rfl)
@[simp] theorem mapLinks_health : (mapLinks f s).health = s.health := (rfl)
@[simp] theorem mapLinks_free : (mapLinks f s).free = s.free := (rfl)
end

/-! ### `mapMesh` -/

section
variable (f : Mesh → Mesh) (s : State)
@[simp] theorem mapMesh_pending : (mapMesh f s).pending = s.pending := (rfl)
@[simp] theorem mapMesh_pins : (mapMesh f s).pins = s.pins := (rfl)
@[simp] theorem mapMesh_ctl : (mapMesh f s).ctl = s.ctl := (rfl)
@[simp] theorem mapMesh_pwr : (mapMesh f s).pwr = s.pwr := (rfl)
@[simp] theorem mapMesh_otp : (mapMesh f s).otp = s.otp := (rfl)
@[simp] theorem mapMesh_flash : (mapMesh f s).flash = s.flash := (rfl)
@[simp] theorem mapMesh_gateh : (mapMesh f s).gateh = s.gateh := (rfl)
@[simp] theorem mapMesh_mbx : (mapMesh f s).mbx = s.mbx := (rfl)
@[simp] theorem mapMesh_evt : (mapMesh f s).evt = s.evt := (rfl)
@[simp] theorem mapMesh_job : (mapMesh f s).job = s.job := (rfl)
@[simp] theorem mapMesh_chans : (mapMesh f s).chans = s.chans := (rfl)
@[simp] theorem mapMesh_plots : (mapMesh f s).plots = s.plots := (rfl)
@[simp] theorem mapMesh_flds : (mapMesh f s).flds = s.flds := (rfl)
@[simp] theorem mapMesh_grid : (mapMesh f s).grid = s.grid := (rfl)
@[simp] theorem mapMesh_bridges : (mapMesh f s).bridges = s.bridges := (rfl)
@[simp] theorem mapMesh_hbm : (mapMesh f s).hbm = s.hbm := (rfl)
@[simp] theorem mapMesh_links : (mapMesh f s).links = s.links := (rfl)
@[simp] theorem mapMesh_mesh : (mapMesh f s).mesh = f s.mesh := (rfl)
@[simp] theorem mapMesh_test : (mapMesh f s).test = s.test := (rfl)
@[simp] theorem mapMesh_health : (mapMesh f s).health = s.health := (rfl)
@[simp] theorem mapMesh_free : (mapMesh f s).free = s.free := (rfl)
end

/-! ### `mapTest` -/

section
variable (f : Test → Test) (s : State)
@[simp] theorem mapTest_pending : (mapTest f s).pending = s.pending := (rfl)
@[simp] theorem mapTest_pins : (mapTest f s).pins = s.pins := (rfl)
@[simp] theorem mapTest_ctl : (mapTest f s).ctl = s.ctl := (rfl)
@[simp] theorem mapTest_pwr : (mapTest f s).pwr = s.pwr := (rfl)
@[simp] theorem mapTest_otp : (mapTest f s).otp = s.otp := (rfl)
@[simp] theorem mapTest_flash : (mapTest f s).flash = s.flash := (rfl)
@[simp] theorem mapTest_gateh : (mapTest f s).gateh = s.gateh := (rfl)
@[simp] theorem mapTest_mbx : (mapTest f s).mbx = s.mbx := (rfl)
@[simp] theorem mapTest_evt : (mapTest f s).evt = s.evt := (rfl)
@[simp] theorem mapTest_job : (mapTest f s).job = s.job := (rfl)
@[simp] theorem mapTest_chans : (mapTest f s).chans = s.chans := (rfl)
@[simp] theorem mapTest_plots : (mapTest f s).plots = s.plots := (rfl)
@[simp] theorem mapTest_flds : (mapTest f s).flds = s.flds := (rfl)
@[simp] theorem mapTest_grid : (mapTest f s).grid = s.grid := (rfl)
@[simp] theorem mapTest_bridges : (mapTest f s).bridges = s.bridges := (rfl)
@[simp] theorem mapTest_hbm : (mapTest f s).hbm = s.hbm := (rfl)
@[simp] theorem mapTest_links : (mapTest f s).links = s.links := (rfl)
@[simp] theorem mapTest_mesh : (mapTest f s).mesh = s.mesh := (rfl)
@[simp] theorem mapTest_test : (mapTest f s).test = f s.test := (rfl)
@[simp] theorem mapTest_health : (mapTest f s).health = s.health := (rfl)
@[simp] theorem mapTest_free : (mapTest f s).free = s.free := (rfl)
end

/-! ### `mapHealth` -/

section
variable (f : List Warning → List Warning) (s : State)
@[simp] theorem mapHealth_pending : (mapHealth f s).pending = s.pending := (rfl)
@[simp] theorem mapHealth_pins : (mapHealth f s).pins = s.pins := (rfl)
@[simp] theorem mapHealth_ctl : (mapHealth f s).ctl = s.ctl := (rfl)
@[simp] theorem mapHealth_pwr : (mapHealth f s).pwr = s.pwr := (rfl)
@[simp] theorem mapHealth_otp : (mapHealth f s).otp = s.otp := (rfl)
@[simp] theorem mapHealth_flash : (mapHealth f s).flash = s.flash := (rfl)
@[simp] theorem mapHealth_gateh : (mapHealth f s).gateh = s.gateh := (rfl)
@[simp] theorem mapHealth_mbx : (mapHealth f s).mbx = s.mbx := (rfl)
@[simp] theorem mapHealth_evt : (mapHealth f s).evt = s.evt := (rfl)
@[simp] theorem mapHealth_job : (mapHealth f s).job = s.job := (rfl)
@[simp] theorem mapHealth_chans : (mapHealth f s).chans = s.chans := (rfl)
@[simp] theorem mapHealth_plots : (mapHealth f s).plots = s.plots := (rfl)
@[simp] theorem mapHealth_flds : (mapHealth f s).flds = s.flds := (rfl)
@[simp] theorem mapHealth_grid : (mapHealth f s).grid = s.grid := (rfl)
@[simp] theorem mapHealth_bridges : (mapHealth f s).bridges = s.bridges := (rfl)
@[simp] theorem mapHealth_hbm : (mapHealth f s).hbm = s.hbm := (rfl)
@[simp] theorem mapHealth_links : (mapHealth f s).links = s.links := (rfl)
@[simp] theorem mapHealth_mesh : (mapHealth f s).mesh = s.mesh := (rfl)
@[simp] theorem mapHealth_test : (mapHealth f s).test = s.test := (rfl)
@[simp] theorem mapHealth_health : (mapHealth f s).health = f s.health := (rfl)
@[simp] theorem mapHealth_free : (mapHealth f s).free = s.free := (rfl)
end

/-! ### `drawFree` -/

section
variable (s : State)
@[simp] theorem drawFree_pending : (drawFree s).pending = s.pending := (rfl)
@[simp] theorem drawFree_pins : (drawFree s).pins = s.pins := (rfl)
@[simp] theorem drawFree_ctl : (drawFree s).ctl = s.ctl := (rfl)
@[simp] theorem drawFree_pwr : (drawFree s).pwr = s.pwr := (rfl)
@[simp] theorem drawFree_otp : (drawFree s).otp = s.otp := (rfl)
@[simp] theorem drawFree_flash : (drawFree s).flash = s.flash := (rfl)
@[simp] theorem drawFree_gateh : (drawFree s).gateh = s.gateh := (rfl)
@[simp] theorem drawFree_mbx : (drawFree s).mbx = s.mbx := (rfl)
@[simp] theorem drawFree_evt : (drawFree s).evt = s.evt := (rfl)
@[simp] theorem drawFree_job : (drawFree s).job = s.job := (rfl)
@[simp] theorem drawFree_chans : (drawFree s).chans = s.chans := (rfl)
@[simp] theorem drawFree_plots : (drawFree s).plots = s.plots := (rfl)
@[simp] theorem drawFree_flds : (drawFree s).flds = s.flds := (rfl)
@[simp] theorem drawFree_grid : (drawFree s).grid = s.grid := (rfl)
@[simp] theorem drawFree_bridges : (drawFree s).bridges = s.bridges := (rfl)
@[simp] theorem drawFree_hbm : (drawFree s).hbm = s.hbm := (rfl)
@[simp] theorem drawFree_links : (drawFree s).links = s.links := (rfl)
@[simp] theorem drawFree_mesh : (drawFree s).mesh = s.mesh := (rfl)
@[simp] theorem drawFree_test : (drawFree s).test = s.test := (rfl)
@[simp] theorem drawFree_health : (drawFree s).health = s.health := (rfl)
@[simp] theorem drawFree_free : (drawFree s).free = s.free + 1 := (rfl)
end

/-! ### Plots, fields, ports and mailboxes read back -/

@[simp] theorem plotOf_setPlot (p : Nat) (v : Plot) (s : State) : plotOf (setPlot p v s) p = v := by
  simp [plotOf, setPlot]

@[simp] theorem plotOf_updPlot (p : Nat) (f : Plot → Plot) (s : State) : plotOf (updPlot p f s) p = f (plotOf s p) := by
  simp [updPlot]

theorem plotOf_updPlot_ne (p q : Nat) (f : Plot → Plot) (s : State) (h : q ≠ p) : plotOf (updPlot p f s) q = plotOf s q := by
  simp [updPlot, setPlot, plotOf, Tab.get_set_ne _ _ _ _ _ h]

@[simp] theorem fieldOf_setField (f : Nat) (v : Field) (s : State) : fieldOf (setField f v s) f = v := by
  simp [fieldOf, setField]

@[simp] theorem fieldOf_updField (f : Nat) (g : Field → Field) (s : State) : fieldOf (updField f g s) f = g (fieldOf s f) := by
  simp [updField]

theorem fieldOf_updField_ne (f k : Nat) (g : Field → Field) (s : State) (h : k ≠ f) : fieldOf (updField f g s) k = fieldOf s k := by
  simp [updField, setField, fieldOf, Tab.get_set_ne _ _ _ _ _ h]

@[simp] theorem portOf_setPort (p : Nat) (v : Port) (s : State) : portOf (setPort p v s) p = v := by
  simp [portOf, setPort]

@[simp] theorem portOf_updPort (p : Nat) (g : Port → Port) (s : State) : portOf (updPort p g s) p = g (portOf s p) := by
  simp [updPort]

theorem portOf_updPort_ne (p q : Nat) (g : Port → Port) (s : State) (h : q ≠ p) : portOf (updPort p g s) q = portOf s q := by
  simp [updPort, setPort, portOf, Tab.get_set_ne _ _ _ _ _ h]

@[simp] theorem boxOf_updBox (m : Nat) (g : Mailbox → Mailbox) (s : State) : boxOf (updBox m g s) m = g (boxOf s m) := by
  simp [boxOf, updBox]

theorem boxOf_updBox_ne (m k : Nat) (g : Mailbox → Mailbox) (s : State) (h : k ≠ m) : boxOf (updBox m g s) k = boxOf s k := by
  simp [boxOf, updBox, Tab.get_set_ne _ _ _ _ _ h]

@[simp] theorem trellisOf_updTrellis (f : Nat) (g : Trellis → Trellis) (s : State) : trellisOf (updTrellis f g s) f = g (trellisOf s f) := by
  simp [trellisOf, updTrellis]

theorem trellisOf_updTrellis_ne (f k : Nat) (g : Trellis → Trellis) (s : State) (h : k ≠ f) : trellisOf (updTrellis f g s) k = trellisOf s k := by
  simp [trellisOf, updTrellis, Tab.get_set_ne _ _ _ _ _ h]

@[simp] theorem stackOf_updStack (k : Nat) (g : Stack → Stack) (s : State) : stackOf (updStack k g s) k = g (stackOf s k) := by
  simp [stackOf, updStack]

/-! ### The shared records -/

theorem Flash.keep_parts (fl : Flash) (e : EventRec) : ∃ a b c, fl.keep e = { fl with sumCounts := a, sumKept := b, sumNext := c } :=
  ⟨_, _, _, rfl⟩

theorem recordOne_parts (e : EventRec) (s : State) :
    ∃ v a b c, recordOne e s = { s with evt := v, flash := { s.flash with sumCounts := a, sumKept := b, sumNext := c } } := by
  have key : ∀ (g : Events → Events) (f : Flash → Flash), (∃ a b c, f s.flash = { s.flash with sumCounts := a, sumKept := b, sumNext := c }) →
      ∃ v a b c, mapFlash f (mapEvt g s) = { s with evt := v, flash := { s.flash with sumCounts := a, sumKept := b, sumNext := c } } := by
    intro g f ⟨a, b, c, h⟩
    exact ⟨g s.evt, a, b, c, by simp only [mapFlash, mapEvt]; rw [h]⟩
  have key2 : ∀ g : Events → Events,
      ∃ v a b c, mapEvt g s = { s with evt := v, flash := { s.flash with sumCounts := a, sumKept := b, sumNext := c } } :=
    fun g => ⟨g s.evt, s.flash.sumCounts, s.flash.sumKept, s.flash.sumNext, rfl⟩
  unfold recordOne
  dsimp only
  split
  · exact key _ _ (Flash.keep_parts _ _)
  · exact key2 _

/-- What recording one event changes: the event ring, and the flash summary for the classes that are kept. -/
theorem recordOne_frame (e : EventRec) (s : State) :
    recordOne e s = { s with evt := (recordOne e s).evt,
                             flash := { s.flash with sumCounts := (recordOne e s).flash.sumCounts, sumKept := (recordOne e s).flash.sumKept,
                                                     sumNext := (recordOne e s).flash.sumNext } } := by
  obtain ⟨v, a, b, c, hr⟩ := recordOne_parts e s
  rw [hr]

theorem record_frame (e : EventRec) (s : State) :
    record e s = { s with evt := (record e s).evt,
                          flash := { s.flash with sumCounts := (record e s).flash.sumCounts, sumKept := (record e s).flash.sumKept,
                                                  sumNext := (record e s).flash.sumNext } } := by
  unfold record
  exact recordOne_frame _ s

section
variable (e : EventRec) (s : State)
@[simp] theorem record_pending : (record e s).pending = s.pending := by rw [record_frame]
@[simp] theorem record_pins : (record e s).pins = s.pins := by rw [record_frame]
@[simp] theorem record_ctl : (record e s).ctl = s.ctl := by rw [record_frame]
@[simp] theorem record_pwr : (record e s).pwr = s.pwr := by rw [record_frame]
@[simp] theorem record_otp : (record e s).otp = s.otp := by rw [record_frame]
@[simp] theorem record_gateh : (record e s).gateh = s.gateh := by rw [record_frame]
@[simp] theorem record_mbx : (record e s).mbx = s.mbx := by rw [record_frame]
@[simp] theorem record_job : (record e s).job = s.job := by rw [record_frame]
@[simp] theorem record_chans : (record e s).chans = s.chans := by rw [record_frame]
@[simp] theorem record_plots : (record e s).plots = s.plots := by rw [record_frame]
@[simp] theorem record_flds : (record e s).flds = s.flds := by rw [record_frame]
@[simp] theorem record_grid : (record e s).grid = s.grid := by rw [record_frame]
@[simp] theorem record_bridges : (record e s).bridges = s.bridges := by rw [record_frame]
@[simp] theorem record_hbm : (record e s).hbm = s.hbm := by rw [record_frame]
@[simp] theorem record_links : (record e s).links = s.links := by rw [record_frame]
@[simp] theorem record_mesh : (record e s).mesh = s.mesh := by rw [record_frame]
@[simp] theorem record_test : (record e s).test = s.test := by rw [record_frame]
@[simp] theorem record_health : (record e s).health = s.health := by rw [record_frame]
@[simp] theorem record_free : (record e s).free = s.free := by rw [record_frame]
end

/-- What a silent violation changes: the violation counters. -/
theorem violation_frame (c : Nat) (v : VScope) (src : U32) (s : State) :
    violation c v src s = { s with gateh := { s.gateh with vModule := (violation c v src s).gateh.vModule,
                                                           vRegion := (violation c v src s).gateh.vRegion,
                                                           vWindow := (violation c v src s).gateh.vWindow } } := by
  unfold violation
  cases v <;> rfl

/-- A change of module state: the mode, and a STATE_CHANGE record. -/
theorem setMode_ctl (m : ModState) (cause : Nat) (s : State) : (setMode m cause s).ctl = { s.ctl with mode := m } := by
  simp [setMode]

end Sys2Proof.Machine
end

