-- ==== Sys2Proof/Laws/Requests.lean ====
section
/-! SUPPORT. What the shared request path does, case by case (R308, R310): the lemmas that a statement about one command cites. -/

namespace Sys2Proof.Machine

open Sys2Proof

variable {h : Hdr} {c : Cmd} {body : State → Ans} {after : State → State} {s : State}

theorem requestThen_go (hj : judge h c s = .go) :
    requestThen h c body after s =
      if (body (accept h s)).2.good then after (respond h c.code (body (accept h s)).2 (body (accept h s)).1)
      else respond h c.code (body (accept h s)).2 (body (accept h s)).1 := by
  unfold requestThen; rw [hj]

theorem request_go (hj : judge h c s = .go) :
    request h c body s = respond h c.code (body (accept h s)).2 (body (accept h s)).1 := by
  unfold request; rw [requestThen_go hj]; split <;> rfl

theorem requestThen_refuse {r : Reply} (hj : judge h c s = .refuse r) : requestThen h c body after s = respond h c.code r (accept h s) := by
  unfold requestThen; rw [hj]

theorem requestThen_discard (hj : judge h c s = .discard) : requestThen h c body after s = discard s := by
  unfold requestThen; rw [hj]

theorem requestThen_unserved (hj : judge h c s = .unserved) : requestThen h c body after s = s := by
  unfold requestThen; rw [hj]

/-- The request path depends on the row of R323 only through its verdict and its code. -/
theorem judge_unserved (hs : servedMailbox h.mailbox s = false) : judge h c s = .unserved := by
  unfold judge; simp [hs]

theorem judge_discard (hs : servedMailbox h.mailbox s = true) (ha : authentic h s = false) : judge h c s = .discard := by
  unfold judge; simp [hs, ha]

theorem judge_length (hs : servedMailbox h.mailbox s = true) (ha : authentic h s = true) (hl : ¬(h.len ≤ maxPayload s ∧ h.len = c.size)) :
    judge h c s = .refuse ⟨stBadLength, 0, []⟩ := by
  unfold judge; simp only [hs, ha, Bool.not_true, Bool.false_eq_true, if_false]
  rw [if_pos]; simp; omega

theorem judge_issuer (hs : servedMailbox h.mailbox s = true) (ha : authentic h s = true) (h1 : h.len ≤ maxPayload s) (h2 : h.len = c.size)
    (hi : authorised h c s = false) : judge h c s = .refuse ⟨stNotAuthorised, 0, []⟩ := by
  unfold judge; simp [hs, ha, hi, h2]; intro h3; rw [← h2] at h3; omega

theorem judge_state (hs : servedMailbox h.mailbox s = true) (ha : authentic h s = true) (h1 : h.len ≤ maxPayload s) (h2 : h.len = c.size)
    (hi : authorised h c s = true) (hm : s.ctl.mode ∉ c.legal) : judge h c s = .refuse ⟨stWrongState, 0, le 8 (legalMask c.legal)⟩ := by
  unfold judge; simp [hs, ha, hi, h2, hm]; intro h3; rw [← h2] at h3; omega

/-- What a response changes: the mailboxes. -/
theorem respond_frame (code : Nat) (r : Reply) : respond h code r s = { s with mbx := (respond h code r s).mbx } := rfl

/-- What the acceptance of a request changes: the sessions. -/
theorem accept_frame : accept h s = { s with gateh := { s.gateh with sessions := (accept h s).gateh.sessions } } := by
  unfold accept; split <;> rfl

end Sys2Proof.Machine
end

