-- ==== Sys2Proof/Laws/Commands.lean ====
section
/-! SUPPORT. Every mailbox command is one request on the shared path, with its row of R323: so that what holds of the path (a refusal, a discard)
holds of each of them. -/

namespace Sys2Proof.Machine

open Sys2Proof

/-- A command runs as a request with this header and this row of R323. -/
def Asks (c : Instr) (h : Hdr) (row : Cmd) (s : State) : Prop :=
  ∃ body after, exec c s = .next (requestThen h row body after s)

theorem asks_moduleIdentify (h : Hdr) (s : State) :
    Asks (.moduleIdentify h) h
      ⟨0x0100, 0, true, [0, 1, 2], allStates, true⟩ s := ⟨_, id, rfl⟩

theorem asks_moduleShutdown (h : Hdr) (retain : U64) (s : State) :
    Asks (.moduleShutdown h retain) h
      ⟨0x0103, 16, false, [0, 1], [.ready], true⟩ s := by
  show ∃ b a, Host.Outcome.next (shutdown _ _ _ s) = .next (requestThen h _ b a s)
  unfold shutdown
  exact ⟨_, _, rfl⟩

theorem asks_moduleShutdownTest (h : Hdr) (level : U64) (retain : U64) (s : State) :
    Asks (.moduleShutdownTest h level retain) h
      ⟨0x0103, 16, false, [0, 1], [.ready], true⟩ s := by
  show ∃ b a, Host.Outcome.next (shutdown _ _ _ s) = .next (requestThen h _ b a s)
  unfold shutdown
  exact ⟨_, _, rfl⟩

theorem asks_moduleRestart (h : Hdr) (s : State) :
    Asks (.moduleRestart h) h
      ⟨0x0104, 0, false, [0, 1], [.ready, .loaded], true⟩ s := ⟨_, _, rfl⟩

theorem asks_moduleFirmwareInstall (h : Hdr) (b : Bulk) (x : Ext) (s : State) :
    Asks (.moduleFirmwareInstall h b x) h
      ⟨0x0105, 16, false, [0], active, true⟩ s := ⟨_, id, rfl⟩

theorem asks_sessionOpenHello (h : Hdr) (m : Hello) (x : Ext) (s : State) :
    Asks (.sessionOpenHello h m x) h
      ⟨0x0200, 144, true, [], .sealed :: served, roleMailbox m.role m.mailbox && roleOpen s m.role⟩ s := ⟨_, id, rfl⟩

theorem asks_sessionOpenFinish (h : Hdr) (m : Finish) (x : Ext) (s : State) :
    Asks (.sessionOpenFinish h m x) h
      ⟨0x0200, if m.credKind = 0 then 256 else 432, true, [], .sealed :: served, match pendingHandshake s m.handshake with | none => owned s | some k => roleOpen s k.role⟩ s := ⟨_, id, rfl⟩

theorem asks_sessionClose (h : Hdr) (s : State) :
    Asks (.sessionClose h) h
      ⟨0x0201, 0, false, [0, 1, 2], .sealed :: served, true⟩ s := ⟨_, _, rfl⟩

theorem asks_attestReport (h : Hdr) (nonce : Digest) (s : State) :
    Asks (.attestReport h nonce) h
      ⟨0x0202, 48, true, [0, 1, 2], .sealed :: served, true⟩ s := ⟨_, id, rfl⟩

theorem asks_ownerClaim (h : Hdr) (r : ClaimRecord) (x : Ext) (s : State) :
    Asks (.ownerClaim h r x) h
      ⟨0x0203, 200, true, [], [.ready], true⟩ s := ⟨_, id, rfl⟩

theorem asks_ownerViolationsRead (h : Hdr) (v : U64) (s : State) :
    Asks (.ownerViolationsRead h v) h
      ⟨0x0204, 8, false, [0], .sealed :: served, true⟩ s := ⟨_, id, rfl⟩

theorem asks_ownerSeal (h : Hdr) (s : State) :
    Asks (.ownerSeal h) h
      ⟨0x0205, 0, false, [0], served, true⟩ s := ⟨_, _, rfl⟩

theorem asks_ownerUnseal (h : Hdr) (t : Token) (x : Ext) (s : State) :
    Asks (.ownerUnseal h t x) h
      ⟨0x0206, 120, false, [0], [.sealed], true⟩ s := ⟨_, _, rfl⟩

theorem asks_jobLoad (h : Hdr) (b : Bulk) (x : Ext) (s : State) :
    Asks (.jobLoad h b x) h
      ⟨0x0300, 16, false, [2], [.ready], true⟩ s := ⟨_, id, rfl⟩

theorem asks_jobStart (h : Hdr) (s : State) :
    Asks (.jobStart h) h
      ⟨0x0301, 0, false, [2], [.loaded], ownJob h s⟩ s := ⟨_, id, rfl⟩

theorem asks_jobDrain (h : Hdr) (s : State) :
    Asks (.jobDrain h) h
      ⟨0x0302, 0, false, [2, 1], [.running], ownJob h s⟩ s := ⟨_, id, rfl⟩

theorem asks_jobUnload (h : Hdr) (s : State) :
    Asks (.jobUnload h) h
      ⟨0x0303, 0, false, [2, 1], [.loaded], ownJob h s⟩ s := ⟨_, id, rfl⟩

theorem asks_jobStatus (h : Hdr) (v : U64) (s : State) :
    Asks (.jobStatus h v) h
      ⟨0x0304, 8, false, [2, 1], [.loaded, .running, .draining], ownJob h s⟩ s := ⟨_, id, rfl⟩

theorem asks_plotStatus (h : Hdr) (s : State) :
    Asks (.plotStatus h) h
      ⟨0x0400, 0, false, [0, 1, 2], served, true⟩ s := ⟨_, id, rfl⟩

theorem asks_plotPolicySet (h : Hdr) (policy : U64) (s : State) :
    Asks (.plotPolicySet h policy) h
      ⟨0x0401, 8, false, [0, 1], [.ready], true⟩ s := ⟨_, id, rfl⟩

theorem asks_plotPin (h : Hdr) (plot : U64) (s : State) :
    Asks (.plotPin h plot) h
      ⟨0x0402, 8, false, [2], [.loaded, .running], true⟩ s := ⟨_, id, rfl⟩

theorem asks_plotUnpin (h : Hdr) (plot : U64) (s : State) :
    Asks (.plotUnpin h plot) h
      ⟨0x0403, 8, false, [2], [.loaded, .running], true⟩ s := ⟨_, id, rfl⟩

theorem asks_plotFence (h : Hdr) (plot : U64) (s : State) :
    Asks (.plotFence h plot) h
      ⟨0x0404, 8, false, [0, 1], [.running], true⟩ s := ⟨_, id, rfl⟩

theorem asks_memoryRegionDefine (h : Hdr) (r : Rec4) (x : Ext) (s : State) :
    Asks (.memoryRegionDefine h r x) h
      ⟨0x0500, 32, false, [0, 1, 2], active, true⟩ s := ⟨_, id, rfl⟩

theorem asks_memoryRegionClear (h : Hdr) (region : U64) (s : State) :
    Asks (.memoryRegionClear h region) h
      ⟨0x0501, 8, false, [0, 1, 2], active, true⟩ s := ⟨_, id, rfl⟩

theorem asks_memoryRegionRelease (h : Hdr) (region : U64) (s : State) :
    Asks (.memoryRegionRelease h region) h
      ⟨0x0502, 8, false, [0, 1, 2], active, true⟩ s := ⟨_, id, rfl⟩

theorem asks_memoryRegionList (h : Hdr) (start : U64) (s : State) :
    Asks (.memoryRegionList h start) h
      ⟨0x0503, 8, false, [0, 1, 2], active, true⟩ s := ⟨_, id, rfl⟩

theorem asks_memoryRetirePage (h : Hdr) (loc : RetireArgs) (s : State) :
    Asks (.memoryRetirePage h loc) h
      ⟨0x0504, 16, false, [1], active, true⟩ s := ⟨_, id, rfl⟩

theorem asks_memoryRetireBank (h : Hdr) (loc : RetireArgs) (s : State) :
    Asks (.memoryRetireBank h loc) h
      ⟨0x0504, 16, false, [1], active, true⟩ s := ⟨_, id, rfl⟩

theorem asks_memoryRepairRequest (h : Hdr) (loc : U64) (kind : U64) (s : State) :
    Asks (.memoryRepairRequest h loc kind) h
      ⟨0x0505, 16, false, [1], active, true⟩ s := ⟨_, id, rfl⟩

theorem asks_memoryScrubSet (h : Hdr) (strong : U64) (page : U64) (s : State) :
    Asks (.memoryScrubSet h strong page) h
      ⟨0x0506, 16, false, [1], active, true⟩ s := ⟨_, id, rfl⟩

theorem asks_memoryStagingMark (h : Hdr) (region : U64) (s : State) :
    Asks (.memoryStagingMark h region) h
      ⟨0x0507, 16, false, [0, 1, 2], active, true⟩ s := ⟨_, id, rfl⟩

theorem asks_memoryStagingUnmark (h : Hdr) (region : U64) (s : State) :
    Asks (.memoryStagingUnmark h region) h
      ⟨0x0507, 16, false, [0, 1, 2], active, true⟩ s := ⟨_, id, rfl⟩

theorem asks_linkStatus (h : Hdr) (s : State) :
    Asks (.linkStatus h) h
      ⟨0x0600, 0, false, [0, 1, 2], served, true⟩ s := ⟨_, id, rfl⟩

theorem asks_linkWidthPolicy (h : Hdr) (mask : U64) (policy : U64) (s : State) :
    Asks (.linkWidthPolicy h mask policy) h
      ⟨0x0601, 16, false, [0, 1], active, true⟩ s := ⟨_, id, rfl⟩

theorem asks_meshAssign (h : Hdr) (group : U64) (s : State) :
    Asks (.meshAssign h group) h
      ⟨0x0700, 8, false, [0, 1], [.train, .ready], s.mesh.root⟩ s := ⟨_, id, rfl⟩

theorem asks_meshStatus (h : Hdr) (s : State) :
    Asks (.meshStatus h) h
      ⟨0x0701, 0, false, [0, 1, 2], served, true⟩ s := ⟨_, id, rfl⟩

theorem asks_meshRouteWrite (h : Hdr) (target : U16) (entries : List (Nat × U16)) (x : Ext) (s : State) :
    Asks (.meshRouteWrite h target entries x) h
      ⟨0x0702, 8 + 8 * entries.length, false, [0, 1], active, s.mesh.root⟩ s := ⟨_, id, rfl⟩

theorem asks_meshTimeRead (h : Hdr) (s : State) :
    Asks (.meshTimeRead h) h
      ⟨0x0703, 0, false, [0, 1, 2], served, true⟩ s := ⟨_, id, rfl⟩

theorem asks_windowOpen (h : Hdr) (r : Rec4) (key : BitVec 256) (x : Ext) (s : State) :
    Asks (.windowOpen h r key x) h
      ⟨0x0704, 64, false, [2], active, true⟩ s := ⟨_, id, rfl⟩

theorem asks_windowClose (h : Hdr) (window : U64) (s : State) :
    Asks (.windowClose h window) h
      ⟨0x0705, 8, false, [2], active, true⟩ s := ⟨_, id, rfl⟩

theorem asks_windowFree (h : Hdr) (window : U64) (s : State) :
    Asks (.windowFree h window) h
      ⟨0x0705, 8, false, [2], active, true⟩ s := ⟨_, id, rfl⟩

theorem asks_windowList (h : Hdr) (start : U64) (s : State) :
    Asks (.windowList h start) h
      ⟨0x0706, 8, false, [2], active, true⟩ s := ⟨_, id, rfl⟩

theorem asks_testPackInstall (h : Hdr) (b : Bulk) (x : Ext) (s : State) :
    Asks (.testPackInstall h b x) h
      ⟨0x0800, 16, false, [0, 1], active, true⟩ s := ⟨_, id, rfl⟩

theorem asks_testCadenceSet (h : Hdr) (cadence : U64) (s : State) :
    Asks (.testCadenceSet h cadence) h
      ⟨0x0801, 8, false, [1], active, true⟩ s := ⟨_, id, rfl⟩

theorem asks_testStatus (h : Hdr) (s : State) :
    Asks (.testStatus h) h
      ⟨0x0802, 0, false, [0, 1], served, true⟩ s := ⟨_, id, rfl⟩

theorem asks_healthMargins (h : Hdr) (v : U64) (s : State) :
    Asks (.healthMargins h v) h
      ⟨0x0900, 8, false, [0, 1], active, true⟩ s := ⟨_, id, rfl⟩

theorem asks_healthLogRead (h : Hdr) (field : U64) (start : U64) (count : U64) (s : State) :
    Asks (.healthLogRead h field start count) h
      ⟨0x0901, 24, false, [0, 1], served, true⟩ s := ⟨_, id, rfl⟩

theorem asks_healthEventsRead (h : Hdr) (start : U64) (max : U64) (s : State) :
    Asks (.healthEventsRead h start max) h
      ⟨0x0902, 16, false, [0, 1, 2], .sealed :: served, true⟩ s := ⟨_, id, rfl⟩

theorem asks_healthSummaryRead (h : Hdr) (v : U64) (s : State) :
    Asks (.healthSummaryRead h v) h
      ⟨0x0903, 8, false, [0, 1], .sealed :: served, true⟩ s := ⟨_, id, rfl⟩

theorem asks_healthWarnings (h : Hdr) (s : State) :
    Asks (.healthWarnings h) h
      ⟨0x0904, 0, false, [0, 1], active, true⟩ s := ⟨_, id, rfl⟩

theorem asks_otpRead (h : Hdr) (v : U64) (s : State) :
    Asks (.otpRead h v) h
      ⟨0x0A00, 8, false, [0, 1], .sealed :: served, true⟩ s := ⟨_, id, rfl⟩

theorem asks_otpGenerationWrite (h : Hdr) (setting : U64) (value : U64) (x : Ext) (s : State) :
    Asks (.otpGenerationWrite h setting value x) h
      ⟨0x0A01, 16, false, [0], [.ready], true⟩ s := by
  show ∃ b a, Host.Outcome.next _ = .next (requestThen h _ b a s)
  split
  · unfold ownerKeyChange
    exact ⟨_, _, rfl⟩
  · exact ⟨_, id, rfl⟩

theorem asks_ownerKeyChange (h : Hdr) (value : U64) (x : Ext) (s : State) :
    Asks (.ownerKeyChange h value x) h
      ⟨0x0A01, 16, false, [0], [.ready], true⟩ s := by
  show ∃ b a, Host.Outcome.next (ownerKeyChange h value x s) = .next (requestThen h _ b a s)
  unfold ownerKeyChange
  exact ⟨_, _, rfl⟩

theorem asks_powerLimitSet (h : Hdr) (limit : U64) (s : State) :
    Asks (.powerLimitSet h limit) h
      ⟨0x0B00, 8, false, [0, 1], active, true⟩ s := ⟨_, id, rfl⟩

theorem asks_powerClockSet (h : Hdr) (mode : U64) (pin : U64) (s : State) :
    Asks (.powerClockSet h mode pin) h
      ⟨0x0B01, 16, false, [0, 1], active, true⟩ s := ⟨_, id, rfl⟩

theorem asks_powerStatus (h : Hdr) (s : State) :
    Asks (.powerStatus h) h
      ⟨0x0B02, 0, false, [0, 1, 2], served, true⟩ s := ⟨_, id, rfl⟩

theorem asks_debugQueueView (h : Hdr) (v : U64) (s : State) :
    Asks (.debugQueueView h v) h
      ⟨0x0C00, 8, false, [2], [.loaded, .running, .draining], true⟩ s := ⟨_, id, rfl⟩

theorem asks_debugCountersRead (h : Hdr) (v : U64) (s : State) :
    Asks (.debugCountersRead h v) h
      ⟨0x0C01, 8, false, [2, 1], active, counterReader h v s⟩ s := ⟨_, id, rfl⟩

theorem asks_debugUnlock (h : Hdr) (t : Token) (x : Ext) (s : State) :
    Asks (.debugUnlock h t x) h
      ⟨0x0C02, 120, false, [0], [.ready, .sealed], true⟩ s := ⟨_, id, rfl⟩

theorem asks_debugUartEnable (h : Hdr) (v : U64) (s : State) :
    Asks (.debugUartEnable h v) h
      ⟨0x0C03, 8, false, [0], active, true⟩ s := ⟨_, id, rfl⟩

/-- Every command of R323 but the two whose answer ends ALERT (R477) is a request with its row. -/
theorem asks_of_row {c : Instr} {h : Hdr} {row : Cmd} {s : State} (hc : commandRow c s = some (h, row))
    (h1 : ∀ k, c ≠ .moduleState k) (h2 : ∀ k, c ≠ .moduleWake k) : Asks c h row s := by
  cases c <;> simp only [commandRow, Option.some.injEq, Prod.mk.injEq, reduceCtorEq] at hc
  case moduleState k => exact absurd rfl (h1 k)
  case moduleWake k => exact absurd rfl (h2 k)
  case moduleIdentify => obtain ⟨rfl, rfl⟩ := hc; exact asks_moduleIdentify _ s
  case moduleShutdown => obtain ⟨rfl, rfl⟩ := hc; exact asks_moduleShutdown _ _ s
  case moduleShutdownTest => obtain ⟨rfl, rfl⟩ := hc; exact asks_moduleShutdownTest _ _ _ s
  case moduleRestart => obtain ⟨rfl, rfl⟩ := hc; exact asks_moduleRestart _ s
  case moduleFirmwareInstall => obtain ⟨rfl, rfl⟩ := hc; exact asks_moduleFirmwareInstall _ _ _ s
  case sessionOpenHello => obtain ⟨rfl, rfl⟩ := hc; exact asks_sessionOpenHello _ _ _ s
  case sessionOpenFinish => obtain ⟨rfl, rfl⟩ := hc; exact asks_sessionOpenFinish _ _ _ s
  case sessionClose => obtain ⟨rfl, rfl⟩ := hc; exact asks_sessionClose _ s
  case attestReport => obtain ⟨rfl, rfl⟩ := hc; exact asks_attestReport _ _ s
  case ownerClaim => obtain ⟨rfl, rfl⟩ := hc; exact asks_ownerClaim _ _ _ s
  case ownerViolationsRead => obtain ⟨rfl, rfl⟩ := hc; exact asks_ownerViolationsRead _ _ s
  case ownerSeal => obtain ⟨rfl, rfl⟩ := hc; exact asks_ownerSeal _ s
  case ownerUnseal => obtain ⟨rfl, rfl⟩ := hc; exact asks_ownerUnseal _ _ _ s
  case jobLoad => obtain ⟨rfl, rfl⟩ := hc; exact asks_jobLoad _ _ _ s
  case jobStart => obtain ⟨rfl, rfl⟩ := hc; exact asks_jobStart _ s
  case jobDrain => obtain ⟨rfl, rfl⟩ := hc; exact asks_jobDrain _ s
  case jobUnload => obtain ⟨rfl, rfl⟩ := hc; exact asks_jobUnload _ s
  case jobStatus => obtain ⟨rfl, rfl⟩ := hc; exact asks_jobStatus _ _ s
  case plotStatus => obtain ⟨rfl, rfl⟩ := hc; exact asks_plotStatus _ s
  case plotPolicySet => obtain ⟨rfl, rfl⟩ := hc; exact asks_plotPolicySet _ _ s
  case plotPin => obtain ⟨rfl, rfl⟩ := hc; exact asks_plotPin _ _ s
  case plotUnpin => obtain ⟨rfl, rfl⟩ := hc; exact asks_plotUnpin _ _ s
  case plotFence => obtain ⟨rfl, rfl⟩ := hc; exact asks_plotFence _ _ s
  case memoryRegionDefine => obtain ⟨rfl, rfl⟩ := hc; exact asks_memoryRegionDefine _ _ _ s
  case memoryRegionClear => obtain ⟨rfl, rfl⟩ := hc; exact asks_memoryRegionClear _ _ s
  case memoryRegionRelease => obtain ⟨rfl, rfl⟩ := hc; exact asks_memoryRegionRelease _ _ s
  case memoryRegionList => obtain ⟨rfl, rfl⟩ := hc; exact asks_memoryRegionList _ _ s
  case memoryRetirePage => obtain ⟨rfl, rfl⟩ := hc; exact asks_memoryRetirePage _ _ s
  case memoryRetireBank => obtain ⟨rfl, rfl⟩ := hc; exact asks_memoryRetireBank _ _ s
  case memoryRepairRequest => obtain ⟨rfl, rfl⟩ := hc; exact asks_memoryRepairRequest _ _ _ s
  case memoryScrubSet => obtain ⟨rfl, rfl⟩ := hc; exact asks_memoryScrubSet _ _ _ s
  case memoryStagingMark => obtain ⟨rfl, rfl⟩ := hc; exact asks_memoryStagingMark _ _ s
  case memoryStagingUnmark => obtain ⟨rfl, rfl⟩ := hc; exact asks_memoryStagingUnmark _ _ s
  case linkStatus => obtain ⟨rfl, rfl⟩ := hc; exact asks_linkStatus _ s
  case linkWidthPolicy => obtain ⟨rfl, rfl⟩ := hc; exact asks_linkWidthPolicy _ _ _ s
  case meshAssign => obtain ⟨rfl, rfl⟩ := hc; exact asks_meshAssign _ _ s
  case meshStatus => obtain ⟨rfl, rfl⟩ := hc; exact asks_meshStatus _ s
  case meshRouteWrite => obtain ⟨rfl, rfl⟩ := hc; exact asks_meshRouteWrite _ _ _ _ s
  case meshTimeRead => obtain ⟨rfl, rfl⟩ := hc; exact asks_meshTimeRead _ s
  case windowOpen => obtain ⟨rfl, rfl⟩ := hc; exact asks_windowOpen _ _ _ _ s
  case windowClose => obtain ⟨rfl, rfl⟩ := hc; exact asks_windowClose _ _ s
  case windowFree => obtain ⟨rfl, rfl⟩ := hc; exact asks_windowFree _ _ s
  case windowList => obtain ⟨rfl, rfl⟩ := hc; exact asks_windowList _ _ s
  case testPackInstall => obtain ⟨rfl, rfl⟩ := hc; exact asks_testPackInstall _ _ _ s
  case testCadenceSet => obtain ⟨rfl, rfl⟩ := hc; exact asks_testCadenceSet _ _ s
  case testStatus => obtain ⟨rfl, rfl⟩ := hc; exact asks_testStatus _ s
  case healthMargins => obtain ⟨rfl, rfl⟩ := hc; exact asks_healthMargins _ _ s
  case healthLogRead => obtain ⟨rfl, rfl⟩ := hc; exact asks_healthLogRead _ _ _ _ s
  case healthEventsRead => obtain ⟨rfl, rfl⟩ := hc; exact asks_healthEventsRead _ _ _ s
  case healthSummaryRead => obtain ⟨rfl, rfl⟩ := hc; exact asks_healthSummaryRead _ _ s
  case healthWarnings => obtain ⟨rfl, rfl⟩ := hc; exact asks_healthWarnings _ s
  case otpRead => obtain ⟨rfl, rfl⟩ := hc; exact asks_otpRead _ _ s
  case otpGenerationWrite => obtain ⟨rfl, rfl⟩ := hc; exact asks_otpGenerationWrite _ _ _ _ s
  case ownerKeyChange => obtain ⟨rfl, rfl⟩ := hc; exact asks_ownerKeyChange _ _ _ s
  case powerLimitSet => obtain ⟨rfl, rfl⟩ := hc; exact asks_powerLimitSet _ _ s
  case powerClockSet => obtain ⟨rfl, rfl⟩ := hc; exact asks_powerClockSet _ _ _ s
  case powerStatus => obtain ⟨rfl, rfl⟩ := hc; exact asks_powerStatus _ s
  case debugQueueView => obtain ⟨rfl, rfl⟩ := hc; exact asks_debugQueueView _ _ s
  case debugCountersRead => obtain ⟨rfl, rfl⟩ := hc; exact asks_debugCountersRead _ _ s
  case debugUnlock => obtain ⟨rfl, rfl⟩ := hc; exact asks_debugUnlock _ _ _ s
  case debugUartEnable => obtain ⟨rfl, rfl⟩ := hc; exact asks_debugUartEnable _ _ s

/-- The two commands whose answer on mailbox 0 ends ALERT (R477). -/
theorem asks_moduleState (h : Hdr) (s : State) :
    ∃ body after, exec (.moduleState h) s = .next (clearTrip h cmdModuleState s (requestThen h cmdModuleState body after s)) := ⟨_, id, rfl⟩

theorem asks_moduleWake (h : Hdr) (s : State) :
    ∃ body after, exec (.moduleWake h) s = .next (clearTrip h cmdModuleWake s (requestThen h cmdModuleWake body after s)) := ⟨_, _, rfl⟩

theorem clearTrip_refuse {h : Hdr} {c : Cmd} {s t : State} {r : Reply} (hj : judge h c s = .refuse r) :
    clearTrip h c s t = endTripAlert h.mailbox t := by
  unfold clearTrip endTripAlert; rw [hj]; by_cases hm : h.mailbox = 0 <;> simp [hm]

theorem clearTrip_go {h : Hdr} {c : Cmd} {s t : State} (hj : judge h c s = .go) : clearTrip h c s t = endTripAlert h.mailbox t := by
  unfold clearTrip endTripAlert; rw [hj]; by_cases hm : h.mailbox = 0 <;> simp [hm]

theorem clearTrip_unserved {h : Hdr} {c : Cmd} {s t : State} (hj : judge h c s = .unserved) : clearTrip h c s t = t := by
  unfold clearTrip; rw [hj]; simp

theorem clearTrip_discard {h : Hdr} {c : Cmd} {s t : State} (hj : judge h c s = .discard) : clearTrip h c s t = t := by
  unfold clearTrip; rw [hj]; simp

end Sys2Proof.Machine
end

