-- ==== Sys2Proof/Laws/Frames.lean ====
section
/-! SUPPORT. Frames of the shared operations: for each, the parts of the state that it leaves as they are, in the order in which the
operations build on each other. A proof about a command cites these and unfolds none of the operations that it calls. -/

namespace Sys2Proof.Machine

open Sys2Proof

/-! ## Repetition and choice -/

@[simp] theorem forEach_pending {α : Type} (l : List α) (f : α → State → State) (s : State) (h : ∀ a s, (f a s).pending = s.pending) :
    (forEach l f s).pending = s.pending := by
  induction l generalizing s with
  | nil => rfl
  | cons a r ih => rw [forEach, ih, h]

@[simp] theorem onlyIf_pending (b : Bool) (f : State → State) (s : State) (h : ∀ s, (f s).pending = s.pending) : (onlyIf b f s).pending = s.pending := by
  unfold onlyIf; split <;> simp [h]

@[simp] theorem forEach_pins {α : Type} (l : List α) (f : α → State → State) (s : State) (h : ∀ a s, (f a s).pins = s.pins) :
    (forEach l f s).pins = s.pins := by
  induction l generalizing s with
  | nil => rfl
  | cons a r ih => rw [forEach, ih, h]

@[simp] theorem onlyIf_pins (b : Bool) (f : State → State) (s : State) (h : ∀ s, (f s).pins = s.pins) : (onlyIf b f s).pins = s.pins := by
  unfold onlyIf; split <;> simp [h]

@[simp] theorem forEach_ctl {α : Type} (l : List α) (f : α → State → State) (s : State) (h : ∀ a s, (f a s).ctl = s.ctl) :
    (forEach l f s).ctl = s.ctl := by
  induction l generalizing s with
  | nil => rfl
  | cons a r ih => rw [forEach, ih, h]

@[simp] theorem onlyIf_ctl (b : Bool) (f : State → State) (s : State) (h : ∀ s, (f s).ctl = s.ctl) : (onlyIf b f s).ctl = s.ctl := by
  unfold onlyIf; split <;> simp [h]

@[simp] theorem forEach_pwr {α : Type} (l : List α) (f : α → State → State) (s : State) (h : ∀ a s, (f a s).pwr = s.pwr) :
    (forEach l f s).pwr = s.pwr := by
  induction l generalizing s with
  | nil => rfl
  | cons a r ih => rw [forEach, ih, h]

@[simp] theorem onlyIf_pwr (b : Bool) (f : State → State) (s : State) (h : ∀ s, (f s).pwr = s.pwr) : (onlyIf b f s).pwr = s.pwr := by
  unfold onlyIf; split <;> simp [h]

@[simp] theorem forEach_otp {α : Type} (l : List α) (f : α → State → State) (s : State) (h : ∀ a s, (f a s).otp = s.otp) :
    (forEach l f s).otp = s.otp := by
  induction l generalizing s with
  | nil => rfl
  | cons a r ih => rw [forEach, ih, h]

@[simp] theorem onlyIf_otp (b : Bool) (f : State → State) (s : State) (h : ∀ s, (f s).otp = s.otp) : (onlyIf b f s).otp = s.otp := by
  unfold onlyIf; split <;> simp [h]

@[simp] theorem forEach_flash {α : Type} (l : List α) (f : α → State → State) (s : State) (h : ∀ a s, (f a s).flash = s.flash) :
    (forEach l f s).flash = s.flash := by
  induction l generalizing s with
  | nil => rfl
  | cons a r ih => rw [forEach, ih, h]

@[simp] theorem onlyIf_flash (b : Bool) (f : State → State) (s : State) (h : ∀ s, (f s).flash = s.flash) : (onlyIf b f s).flash = s.flash := by
  unfold onlyIf; split <;> simp [h]

@[simp] theorem forEach_gateh {α : Type} (l : List α) (f : α → State → State) (s : State) (h : ∀ a s, (f a s).gateh = s.gateh) :
    (forEach l f s).gateh = s.gateh := by
  induction l generalizing s with
  | nil => rfl
  | cons a r ih => rw [forEach, ih, h]

@[simp] theorem onlyIf_gateh (b : Bool) (f : State → State) (s : State) (h : ∀ s, (f s).gateh = s.gateh) : (onlyIf b f s).gateh = s.gateh := by
  unfold onlyIf; split <;> simp [h]

@[simp] theorem forEach_mbx {α : Type} (l : List α) (f : α → State → State) (s : State) (h : ∀ a s, (f a s).mbx = s.mbx) :
    (forEach l f s).mbx = s.mbx := by
  induction l generalizing s with
  | nil => rfl
  | cons a r ih => rw [forEach, ih, h]

@[simp] theorem onlyIf_mbx (b : Bool) (f : State → State) (s : State) (h : ∀ s, (f s).mbx = s.mbx) : (onlyIf b f s).mbx = s.mbx := by
  unfold onlyIf; split <;> simp [h]

@[simp] theorem forEach_evt {α : Type} (l : List α) (f : α → State → State) (s : State) (h : ∀ a s, (f a s).evt = s.evt) :
    (forEach l f s).evt = s.evt := by
  induction l generalizing s with
  | nil => rfl
  | cons a r ih => rw [forEach, ih, h]

@[simp] theorem onlyIf_evt (b : Bool) (f : State → State) (s : State) (h : ∀ s, (f s).evt = s.evt) : (onlyIf b f s).evt = s.evt := by
  unfold onlyIf; split <;> simp [h]

@[simp] theorem forEach_job {α : Type} (l : List α) (f : α → State → State) (s : State) (h : ∀ a s, (f a s).job = s.job) :
    (forEach l f s).job = s.job := by
  induction l generalizing s with
  | nil => rfl
  | cons a r ih => rw [forEach, ih, h]

@[simp] theorem onlyIf_job (b : Bool) (f : State → State) (s : State) (h : ∀ s, (f s).job = s.job) : (onlyIf b f s).job = s.job := by
  unfold onlyIf; split <;> simp [h]

@[simp] theorem forEach_chans {α : Type} (l : List α) (f : α → State → State) (s : State) (h : ∀ a s, (f a s).chans = s.chans) :
    (forEach l f s).chans = s.chans := by
  induction l generalizing s with
  | nil => rfl
  | cons a r ih => rw [forEach, ih, h]

@[simp] theorem onlyIf_chans (b : Bool) (f : State → State) (s : State) (h : ∀ s, (f s).chans = s.chans) : (onlyIf b f s).chans = s.chans := by
  unfold onlyIf; split <;> simp [h]

@[simp] theorem forEach_plots {α : Type} (l : List α) (f : α → State → State) (s : State) (h : ∀ a s, (f a s).plots = s.plots) :
    (forEach l f s).plots = s.plots := by
  induction l generalizing s with
  | nil => rfl
  | cons a r ih => rw [forEach, ih, h]

@[simp] theorem onlyIf_plots (b : Bool) (f : State → State) (s : State) (h : ∀ s, (f s).plots = s.plots) : (onlyIf b f s).plots = s.plots := by
  unfold onlyIf; split <;> simp [h]

@[simp] theorem forEach_flds {α : Type} (l : List α) (f : α → State → State) (s : State) (h : ∀ a s, (f a s).flds = s.flds) :
    (forEach l f s).flds = s.flds := by
  induction l generalizing s with
  | nil => rfl
  | cons a r ih => rw [forEach, ih, h]

@[simp] theorem onlyIf_flds (b : Bool) (f : State → State) (s : State) (h : ∀ s, (f s).flds = s.flds) : (onlyIf b f s).flds = s.flds := by
  unfold onlyIf; split <;> simp [h]

@[simp] theorem forEach_grid {α : Type} (l : List α) (f : α → State → State) (s : State) (h : ∀ a s, (f a s).grid = s.grid) :
    (forEach l f s).grid = s.grid := by
  induction l generalizing s with
  | nil => rfl
  | cons a r ih => rw [forEach, ih, h]

@[simp] theorem onlyIf_grid (b : Bool) (f : State → State) (s : State) (h : ∀ s, (f s).grid = s.grid) : (onlyIf b f s).grid = s.grid := by
  unfold onlyIf; split <;> simp [h]

@[simp] theorem forEach_bridges {α : Type} (l : List α) (f : α → State → State) (s : State) (h : ∀ a s, (f a s).bridges = s.bridges) :
    (forEach l f s).bridges = s.bridges := by
  induction l generalizing s with
  | nil => rfl
  | cons a r ih => rw [forEach, ih, h]

@[simp] theorem onlyIf_bridges (b : Bool) (f : State → State) (s : State) (h : ∀ s, (f s).bridges = s.bridges) : (onlyIf b f s).bridges = s.bridges := by
  unfold onlyIf; split <;> simp [h]

@[simp] theorem forEach_hbm {α : Type} (l : List α) (f : α → State → State) (s : State) (h : ∀ a s, (f a s).hbm = s.hbm) :
    (forEach l f s).hbm = s.hbm := by
  induction l generalizing s with
  | nil => rfl
  | cons a r ih => rw [forEach, ih, h]

@[simp] theorem onlyIf_hbm (b : Bool) (f : State → State) (s : State) (h : ∀ s, (f s).hbm = s.hbm) : (onlyIf b f s).hbm = s.hbm := by
  unfold onlyIf; split <;> simp [h]

@[simp] theorem forEach_links {α : Type} (l : List α) (f : α → State → State) (s : State) (h : ∀ a s, (f a s).links = s.links) :
    (forEach l f s).links = s.links := by
  induction l generalizing s with
  | nil => rfl
  | cons a r ih => rw [forEach, ih, h]

@[simp] theorem onlyIf_links (b : Bool) (f : State → State) (s : State) (h : ∀ s, (f s).links = s.links) : (onlyIf b f s).links = s.links := by
  unfold onlyIf; split <;> simp [h]

@[simp] theorem forEach_mesh {α : Type} (l : List α) (f : α → State → State) (s : State) (h : ∀ a s, (f a s).mesh = s.mesh) :
    (forEach l f s).mesh = s.mesh := by
  induction l generalizing s with
  | nil => rfl
  | cons a r ih => rw [forEach, ih, h]

@[simp] theorem onlyIf_mesh (b : Bool) (f : State → State) (s : State) (h : ∀ s, (f s).mesh = s.mesh) : (onlyIf b f s).mesh = s.mesh := by
  unfold onlyIf; split <;> simp [h]

@[simp] theorem forEach_test {α : Type} (l : List α) (f : α → State → State) (s : State) (h : ∀ a s, (f a s).test = s.test) :
    (forEach l f s).test = s.test := by
  induction l generalizing s with
  | nil => rfl
  | cons a r ih => rw [forEach, ih, h]

@[simp] theorem onlyIf_test (b : Bool) (f : State → State) (s : State) (h : ∀ s, (f s).test = s.test) : (onlyIf b f s).test = s.test := by
  unfold onlyIf; split <;> simp [h]

@[simp] theorem forEach_health {α : Type} (l : List α) (f : α → State → State) (s : State) (h : ∀ a s, (f a s).health = s.health) :
    (forEach l f s).health = s.health := by
  induction l generalizing s with
  | nil => rfl
  | cons a r ih => rw [forEach, ih, h]

@[simp] theorem onlyIf_health (b : Bool) (f : State → State) (s : State) (h : ∀ s, (f s).health = s.health) : (onlyIf b f s).health = s.health := by
  unfold onlyIf; split <;> simp [h]

@[simp] theorem forEach_free {α : Type} (l : List α) (f : α → State → State) (s : State) (h : ∀ a s, (f a s).free = s.free) :
    (forEach l f s).free = s.free := by
  induction l generalizing s with
  | nil => rfl
  | cons a r ih => rw [forEach, ih, h]

@[simp] theorem onlyIf_free (b : Bool) (f : State → State) (s : State) (h : ∀ s, (f s).free = s.free) : (onlyIf b f s).free = s.free := by
  unfold onlyIf; split <;> simp [h]

/-! ## Ops -/

@[simp] theorem setPlot_keeps (p : Nat) (v : Plot) (s : State) : (setPlot p v s).pending = s.pending ∧ (setPlot p v s).pins = s.pins ∧ (setPlot p v
    s).ctl = s.ctl ∧ (setPlot p v s).pwr = s.pwr ∧ (setPlot p v s).otp = s.otp ∧ (setPlot p v s).flash = s.flash ∧ (setPlot p v s).gateh = s.gateh ∧
    (setPlot p v s).mbx = s.mbx ∧ (setPlot p v s).evt = s.evt ∧ (setPlot p v s).job = s.job ∧ (setPlot p v s).chans = s.chans ∧ (setPlot p v s).flds
    = s.flds ∧ (setPlot p v s).grid = s.grid ∧ (setPlot p v s).bridges = s.bridges ∧ (setPlot p v s).hbm = s.hbm ∧ (setPlot p v s).links = s.links ∧
    (setPlot p v s).mesh = s.mesh ∧ (setPlot p v s).test = s.test ∧ (setPlot p v s).health = s.health ∧ (setPlot p v s).free = s.free := by
  unfold setPlot
  simp

@[simp] theorem updPlot_keeps (p : Nat) (f : Plot → Plot) (s : State) : (updPlot p f s).pending = s.pending ∧ (updPlot p f s).pins = s.pins ∧
    (updPlot p f s).ctl = s.ctl ∧ (updPlot p f s).pwr = s.pwr ∧ (updPlot p f s).otp = s.otp ∧ (updPlot p f s).flash = s.flash ∧ (updPlot p f
    s).gateh = s.gateh ∧ (updPlot p f s).mbx = s.mbx ∧ (updPlot p f s).evt = s.evt ∧ (updPlot p f s).job = s.job ∧ (updPlot p f s).chans = s.chans ∧
    (updPlot p f s).flds = s.flds ∧ (updPlot p f s).grid = s.grid ∧ (updPlot p f s).bridges = s.bridges ∧ (updPlot p f s).hbm = s.hbm ∧ (updPlot p f
    s).links = s.links ∧ (updPlot p f s).mesh = s.mesh ∧ (updPlot p f s).test = s.test ∧ (updPlot p f s).health = s.health ∧ (updPlot p f s).free =
    s.free := by
  unfold updPlot
  simp

@[simp] theorem setSlice_keeps (p i : Nat) (v : Slice) (s : State) : (setSlice p i v s).pending = s.pending ∧ (setSlice p i v s).pins = s.pins ∧
    (setSlice p i v s).ctl = s.ctl ∧ (setSlice p i v s).pwr = s.pwr ∧ (setSlice p i v s).otp = s.otp ∧ (setSlice p i v s).flash = s.flash ∧
    (setSlice p i v s).gateh = s.gateh ∧ (setSlice p i v s).mbx = s.mbx ∧ (setSlice p i v s).evt = s.evt ∧ (setSlice p i v s).job = s.job ∧
    (setSlice p i v s).chans = s.chans ∧ (setSlice p i v s).flds = s.flds ∧ (setSlice p i v s).grid = s.grid ∧ (setSlice p i v s).bridges =
    s.bridges ∧ (setSlice p i v s).hbm = s.hbm ∧ (setSlice p i v s).links = s.links ∧ (setSlice p i v s).mesh = s.mesh ∧ (setSlice p i v s).test =
    s.test ∧ (setSlice p i v s).health = s.health ∧ (setSlice p i v s).free = s.free := by
  unfold setSlice
  simp

@[simp] theorem updSlice_keeps (p i : Nat) (f : Slice → Slice) (s : State) : (updSlice p i f s).pending = s.pending ∧ (updSlice p i f s).pins =
    s.pins ∧ (updSlice p i f s).ctl = s.ctl ∧ (updSlice p i f s).pwr = s.pwr ∧ (updSlice p i f s).otp = s.otp ∧ (updSlice p i f s).flash = s.flash ∧
    (updSlice p i f s).gateh = s.gateh ∧ (updSlice p i f s).mbx = s.mbx ∧ (updSlice p i f s).evt = s.evt ∧ (updSlice p i f s).job = s.job ∧
    (updSlice p i f s).chans = s.chans ∧ (updSlice p i f s).flds = s.flds ∧ (updSlice p i f s).grid = s.grid ∧ (updSlice p i f s).bridges =
    s.bridges ∧ (updSlice p i f s).hbm = s.hbm ∧ (updSlice p i f s).links = s.links ∧ (updSlice p i f s).mesh = s.mesh ∧ (updSlice p i f s).test =
    s.test ∧ (updSlice p i f s).health = s.health ∧ (updSlice p i f s).free = s.free := by
  unfold updSlice
  simp

@[simp] theorem updArr_keeps (p : Nat) (f : Arr → Arr) (s : State) : (updArr p f s).pending = s.pending ∧ (updArr p f s).pins = s.pins ∧ (updArr p f
    s).ctl = s.ctl ∧ (updArr p f s).pwr = s.pwr ∧ (updArr p f s).otp = s.otp ∧ (updArr p f s).flash = s.flash ∧ (updArr p f s).gateh = s.gateh ∧
    (updArr p f s).mbx = s.mbx ∧ (updArr p f s).evt = s.evt ∧ (updArr p f s).job = s.job ∧ (updArr p f s).chans = s.chans ∧ (updArr p f s).flds =
    s.flds ∧ (updArr p f s).grid = s.grid ∧ (updArr p f s).bridges = s.bridges ∧ (updArr p f s).hbm = s.hbm ∧ (updArr p f s).links = s.links ∧
    (updArr p f s).mesh = s.mesh ∧ (updArr p f s).test = s.test ∧ (updArr p f s).health = s.health ∧ (updArr p f s).free = s.free := by
  unfold updArr
  simp

@[simp] theorem setField_keeps (f : Nat) (v : Field) (s : State) : (setField f v s).pending = s.pending ∧ (setField f v s).pins = s.pins ∧ (setField
    f v s).ctl = s.ctl ∧ (setField f v s).pwr = s.pwr ∧ (setField f v s).otp = s.otp ∧ (setField f v s).flash = s.flash ∧ (setField f v s).gateh =
    s.gateh ∧ (setField f v s).mbx = s.mbx ∧ (setField f v s).evt = s.evt ∧ (setField f v s).job = s.job ∧ (setField f v s).chans = s.chans ∧
    (setField f v s).plots = s.plots ∧ (setField f v s).grid = s.grid ∧ (setField f v s).bridges = s.bridges ∧ (setField f v s).hbm = s.hbm ∧
    (setField f v s).links = s.links ∧ (setField f v s).mesh = s.mesh ∧ (setField f v s).test = s.test ∧ (setField f v s).health = s.health ∧
    (setField f v s).free = s.free := by
  unfold setField
  simp

@[simp] theorem updField_keeps (f : Nat) (g : Field → Field) (s : State) : (updField f g s).pending = s.pending ∧ (updField f g s).pins = s.pins ∧
    (updField f g s).ctl = s.ctl ∧ (updField f g s).pwr = s.pwr ∧ (updField f g s).otp = s.otp ∧ (updField f g s).flash = s.flash ∧ (updField f g
    s).gateh = s.gateh ∧ (updField f g s).mbx = s.mbx ∧ (updField f g s).evt = s.evt ∧ (updField f g s).job = s.job ∧ (updField f g s).chans =
    s.chans ∧ (updField f g s).plots = s.plots ∧ (updField f g s).grid = s.grid ∧ (updField f g s).bridges = s.bridges ∧ (updField f g s).hbm =
    s.hbm ∧ (updField f g s).links = s.links ∧ (updField f g s).mesh = s.mesh ∧ (updField f g s).test = s.test ∧ (updField f g s).health = s.health
    ∧ (updField f g s).free = s.free := by
  unfold updField
  simp

@[simp] theorem updTrellis_keeps (f : Nat) (g : Trellis → Trellis) (s : State) : (updTrellis f g s).pending = s.pending ∧ (updTrellis f g s).pins =
    s.pins ∧ (updTrellis f g s).ctl = s.ctl ∧ (updTrellis f g s).pwr = s.pwr ∧ (updTrellis f g s).otp = s.otp ∧ (updTrellis f g s).flash = s.flash ∧
    (updTrellis f g s).gateh = s.gateh ∧ (updTrellis f g s).mbx = s.mbx ∧ (updTrellis f g s).evt = s.evt ∧ (updTrellis f g s).job = s.job ∧
    (updTrellis f g s).chans = s.chans ∧ (updTrellis f g s).plots = s.plots ∧ (updTrellis f g s).flds = s.flds ∧ (updTrellis f g s).bridges =
    s.bridges ∧ (updTrellis f g s).hbm = s.hbm ∧ (updTrellis f g s).links = s.links ∧ (updTrellis f g s).mesh = s.mesh ∧ (updTrellis f g s).test =
    s.test ∧ (updTrellis f g s).health = s.health ∧ (updTrellis f g s).free = s.free := by
  unfold updTrellis
  simp

@[simp] theorem updStack_keeps (k : Nat) (g : Stack → Stack) (s : State) : (updStack k g s).pending = s.pending ∧ (updStack k g s).pins = s.pins ∧
    (updStack k g s).ctl = s.ctl ∧ (updStack k g s).pwr = s.pwr ∧ (updStack k g s).otp = s.otp ∧ (updStack k g s).flash = s.flash ∧ (updStack k g
    s).gateh = s.gateh ∧ (updStack k g s).mbx = s.mbx ∧ (updStack k g s).evt = s.evt ∧ (updStack k g s).job = s.job ∧ (updStack k g s).chans =
    s.chans ∧ (updStack k g s).plots = s.plots ∧ (updStack k g s).flds = s.flds ∧ (updStack k g s).grid = s.grid ∧ (updStack k g s).bridges =
    s.bridges ∧ (updStack k g s).links = s.links ∧ (updStack k g s).mesh = s.mesh ∧ (updStack k g s).test = s.test ∧ (updStack k g s).health =
    s.health ∧ (updStack k g s).free = s.free := by
  unfold updStack
  simp

@[simp] theorem setPort_keeps (p : Nat) (v : Port) (s : State) : (setPort p v s).pending = s.pending ∧ (setPort p v s).pins = s.pins ∧ (setPort p v
    s).ctl = s.ctl ∧ (setPort p v s).pwr = s.pwr ∧ (setPort p v s).otp = s.otp ∧ (setPort p v s).flash = s.flash ∧ (setPort p v s).gateh = s.gateh ∧
    (setPort p v s).mbx = s.mbx ∧ (setPort p v s).evt = s.evt ∧ (setPort p v s).job = s.job ∧ (setPort p v s).chans = s.chans ∧ (setPort p v
    s).plots = s.plots ∧ (setPort p v s).flds = s.flds ∧ (setPort p v s).grid = s.grid ∧ (setPort p v s).bridges = s.bridges ∧ (setPort p v s).hbm =
    s.hbm ∧ (setPort p v s).mesh = s.mesh ∧ (setPort p v s).test = s.test ∧ (setPort p v s).health = s.health ∧ (setPort p v s).free = s.free := by
  unfold setPort
  simp

@[simp] theorem updPort_keeps (p : Nat) (g : Port → Port) (s : State) : (updPort p g s).pending = s.pending ∧ (updPort p g s).pins = s.pins ∧
    (updPort p g s).ctl = s.ctl ∧ (updPort p g s).pwr = s.pwr ∧ (updPort p g s).otp = s.otp ∧ (updPort p g s).flash = s.flash ∧ (updPort p g
    s).gateh = s.gateh ∧ (updPort p g s).mbx = s.mbx ∧ (updPort p g s).evt = s.evt ∧ (updPort p g s).job = s.job ∧ (updPort p g s).chans = s.chans ∧
    (updPort p g s).plots = s.plots ∧ (updPort p g s).flds = s.flds ∧ (updPort p g s).grid = s.grid ∧ (updPort p g s).bridges = s.bridges ∧ (updPort
    p g s).hbm = s.hbm ∧ (updPort p g s).mesh = s.mesh ∧ (updPort p g s).test = s.test ∧ (updPort p g s).health = s.health ∧ (updPort p g s).free =
    s.free := by
  unfold updPort
  simp

@[simp] theorem updBox_keeps (m : Nat) (g : Mailbox → Mailbox) (s : State) : (updBox m g s).pending = s.pending ∧ (updBox m g s).pins = s.pins ∧
    (updBox m g s).ctl = s.ctl ∧ (updBox m g s).pwr = s.pwr ∧ (updBox m g s).otp = s.otp ∧ (updBox m g s).flash = s.flash ∧ (updBox m g s).gateh =
    s.gateh ∧ (updBox m g s).evt = s.evt ∧ (updBox m g s).job = s.job ∧ (updBox m g s).chans = s.chans ∧ (updBox m g s).plots = s.plots ∧ (updBox m
    g s).flds = s.flds ∧ (updBox m g s).grid = s.grid ∧ (updBox m g s).bridges = s.bridges ∧ (updBox m g s).hbm = s.hbm ∧ (updBox m g s).links =
    s.links ∧ (updBox m g s).mesh = s.mesh ∧ (updBox m g s).test = s.test ∧ (updBox m g s).health = s.health ∧ (updBox m g s).free = s.free := by
  unfold updBox
  simp

@[simp] theorem updChan_keeps (c : Nat) (g : ChanState → ChanState) (s : State) : (updChan c g s).pending = s.pending ∧ (updChan c g s).pins =
    s.pins ∧ (updChan c g s).ctl = s.ctl ∧ (updChan c g s).pwr = s.pwr ∧ (updChan c g s).otp = s.otp ∧ (updChan c g s).flash = s.flash ∧ (updChan c
    g s).gateh = s.gateh ∧ (updChan c g s).mbx = s.mbx ∧ (updChan c g s).evt = s.evt ∧ (updChan c g s).job = s.job ∧ (updChan c g s).plots = s.plots
    ∧ (updChan c g s).flds = s.flds ∧ (updChan c g s).grid = s.grid ∧ (updChan c g s).bridges = s.bridges ∧ (updChan c g s).hbm = s.hbm ∧ (updChan c
    g s).links = s.links ∧ (updChan c g s).mesh = s.mesh ∧ (updChan c g s).test = s.test ∧ (updChan c g s).health = s.health ∧ (updChan c g s).free
    = s.free := by
  unfold updChan
  simp

@[simp] theorem updClock_keeps (f : Nat) (g : FieldClock → FieldClock) (s : State) : (updClock f g s).pending = s.pending ∧ (updClock f g s).pins =
    s.pins ∧ (updClock f g s).ctl = s.ctl ∧ (updClock f g s).otp = s.otp ∧ (updClock f g s).flash = s.flash ∧ (updClock f g s).gateh = s.gateh ∧
    (updClock f g s).mbx = s.mbx ∧ (updClock f g s).evt = s.evt ∧ (updClock f g s).job = s.job ∧ (updClock f g s).chans = s.chans ∧ (updClock f g
    s).plots = s.plots ∧ (updClock f g s).flds = s.flds ∧ (updClock f g s).grid = s.grid ∧ (updClock f g s).bridges = s.bridges ∧ (updClock f g
    s).hbm = s.hbm ∧ (updClock f g s).links = s.links ∧ (updClock f g s).mesh = s.mesh ∧ (updClock f g s).test = s.test ∧ (updClock f g s).health =
    s.health ∧ (updClock f g s).free = s.free := by
  unfold updClock
  simp

@[simp] theorem recordOne_keeps (e : EventRec) (s : State) : (recordOne e s).pending = s.pending ∧ (recordOne e s).pins = s.pins ∧ (recordOne e
    s).ctl = s.ctl ∧ (recordOne e s).pwr = s.pwr ∧ (recordOne e s).otp = s.otp ∧ (recordOne e s).gateh = s.gateh ∧ (recordOne e s).mbx = s.mbx ∧
    (recordOne e s).job = s.job ∧ (recordOne e s).chans = s.chans ∧ (recordOne e s).plots = s.plots ∧ (recordOne e s).flds = s.flds ∧ (recordOne e
    s).grid = s.grid ∧ (recordOne e s).bridges = s.bridges ∧ (recordOne e s).hbm = s.hbm ∧ (recordOne e s).links = s.links ∧ (recordOne e s).mesh =
    s.mesh ∧ (recordOne e s).test = s.test ∧ (recordOne e s).health = s.health ∧ (recordOne e s).free = s.free := by
  unfold recordOne
  dsimp only
  (repeat' split) <;> simp

@[simp] theorem recordLong_keeps (e : EventRec) (more : List (List (Nat × Nat))) (s : State) : (recordLong e more s).pending = s.pending ∧
    (recordLong e more s).pins = s.pins ∧ (recordLong e more s).ctl = s.ctl ∧ (recordLong e more s).pwr = s.pwr ∧ (recordLong e more s).otp = s.otp
    ∧ (recordLong e more s).gateh = s.gateh ∧ (recordLong e more s).mbx = s.mbx ∧ (recordLong e more s).job = s.job ∧ (recordLong e more s).chans =
    s.chans ∧ (recordLong e more s).plots = s.plots ∧ (recordLong e more s).flds = s.flds ∧ (recordLong e more s).grid = s.grid ∧ (recordLong e more
    s).bridges = s.bridges ∧ (recordLong e more s).hbm = s.hbm ∧ (recordLong e more s).links = s.links ∧ (recordLong e more s).mesh = s.mesh ∧
    (recordLong e more s).test = s.test ∧ (recordLong e more s).health = s.health ∧ (recordLong e more s).free = s.free := by
  unfold recordLong
  simp

@[simp] theorem setMode_keeps (m : ModState) (cause : Nat) (s : State) : (setMode m cause s).pending = s.pending ∧ (setMode m cause s).pins = s.pins
    ∧ (setMode m cause s).pwr = s.pwr ∧ (setMode m cause s).otp = s.otp ∧ (setMode m cause s).gateh = s.gateh ∧ (setMode m cause s).mbx = s.mbx ∧
    (setMode m cause s).job = s.job ∧ (setMode m cause s).chans = s.chans ∧ (setMode m cause s).plots = s.plots ∧ (setMode m cause s).flds = s.flds
    ∧ (setMode m cause s).grid = s.grid ∧ (setMode m cause s).bridges = s.bridges ∧ (setMode m cause s).hbm = s.hbm ∧ (setMode m cause s).links =
    s.links ∧ (setMode m cause s).mesh = s.mesh ∧ (setMode m cause s).test = s.test ∧ (setMode m cause s).health = s.health ∧ (setMode m cause
    s).free = s.free := by
  unfold setMode
  simp

@[simp] theorem violation_keeps (cause : Nat) (scope : VScope) (src : U32) (s : State) : (violation cause scope src s).pending = s.pending ∧
    (violation cause scope src s).pins = s.pins ∧ (violation cause scope src s).ctl = s.ctl ∧ (violation cause scope src s).pwr = s.pwr ∧ (violation
    cause scope src s).otp = s.otp ∧ (violation cause scope src s).flash = s.flash ∧ (violation cause scope src s).mbx = s.mbx ∧ (violation cause
    scope src s).evt = s.evt ∧ (violation cause scope src s).job = s.job ∧ (violation cause scope src s).chans = s.chans ∧ (violation cause scope
    src s).plots = s.plots ∧ (violation cause scope src s).flds = s.flds ∧ (violation cause scope src s).grid = s.grid ∧ (violation cause scope src
    s).bridges = s.bridges ∧ (violation cause scope src s).hbm = s.hbm ∧ (violation cause scope src s).links = s.links ∧ (violation cause scope src
    s).mesh = s.mesh ∧ (violation cause scope src s).test = s.test ∧ (violation cause scope src s).health = s.health ∧ (violation cause scope src
    s).free = s.free := by
  unfold violation
  simp

@[simp] theorem idle_keeps (s : State) : (idle s).pending = s.pending ∧ (idle s).pins = s.pins ∧ (idle s).pwr = s.pwr ∧ (idle s).otp = s.otp ∧ (idle
    s).flash = s.flash ∧ (idle s).gateh = s.gateh ∧ (idle s).mbx = s.mbx ∧ (idle s).evt = s.evt ∧ (idle s).job = s.job ∧ (idle s).chans = s.chans ∧
    (idle s).plots = s.plots ∧ (idle s).flds = s.flds ∧ (idle s).grid = s.grid ∧ (idle s).bridges = s.bridges ∧ (idle s).hbm = s.hbm ∧ (idle
    s).links = s.links ∧ (idle s).mesh = s.mesh ∧ (idle s).test = s.test ∧ (idle s).health = s.health ∧ (idle s).free = s.free := by
  unfold idle
  (repeat' split) <;> simp

/-! ## Flags -/

@[simp] theorem noteDegraded_keeps (old : Nat) (s : State) : (noteDegraded old s).pending = s.pending ∧ (noteDegraded old s).pins = s.pins ∧
    (noteDegraded old s).ctl = s.ctl ∧ (noteDegraded old s).pwr = s.pwr ∧ (noteDegraded old s).otp = s.otp ∧ (noteDegraded old s).gateh = s.gateh ∧
    (noteDegraded old s).mbx = s.mbx ∧ (noteDegraded old s).job = s.job ∧ (noteDegraded old s).chans = s.chans ∧ (noteDegraded old s).plots =
    s.plots ∧ (noteDegraded old s).flds = s.flds ∧ (noteDegraded old s).grid = s.grid ∧ (noteDegraded old s).bridges = s.bridges ∧ (noteDegraded old
    s).hbm = s.hbm ∧ (noteDegraded old s).links = s.links ∧ (noteDegraded old s).mesh = s.mesh ∧ (noteDegraded old s).test = s.test ∧ (noteDegraded
    old s).health = s.health ∧ (noteDegraded old s).free = s.free := by
  unfold noteDegraded
  dsimp only
  (repeat' split) <;> simp

@[simp] theorem watchDegraded_pending (f : State → State) (s : State) (h1 : ∀ t, (f t).pending = t.pending) : (watchDegraded f s).pending =
    s.pending := by
  unfold watchDegraded
  simp [h1]

@[simp] theorem watchDegraded_pins (f : State → State) (s : State) (h1 : ∀ t, (f t).pins = t.pins) : (watchDegraded f s).pins = s.pins := by
  unfold watchDegraded
  simp [h1]

@[simp] theorem watchDegraded_ctl (f : State → State) (s : State) (h1 : ∀ t, (f t).ctl = t.ctl) : (watchDegraded f s).ctl = s.ctl := by
  unfold watchDegraded
  simp [h1]

@[simp] theorem watchDegraded_pwr (f : State → State) (s : State) (h1 : ∀ t, (f t).pwr = t.pwr) : (watchDegraded f s).pwr = s.pwr := by
  unfold watchDegraded
  simp [h1]

@[simp] theorem watchDegraded_otp (f : State → State) (s : State) (h1 : ∀ t, (f t).otp = t.otp) : (watchDegraded f s).otp = s.otp := by
  unfold watchDegraded
  simp [h1]

@[simp] theorem watchDegraded_gateh (f : State → State) (s : State) (h1 : ∀ t, (f t).gateh = t.gateh) : (watchDegraded f s).gateh = s.gateh := by
  unfold watchDegraded
  simp [h1]

@[simp] theorem watchDegraded_mbx (f : State → State) (s : State) (h1 : ∀ t, (f t).mbx = t.mbx) : (watchDegraded f s).mbx = s.mbx := by
  unfold watchDegraded
  simp [h1]

@[simp] theorem watchDegraded_job (f : State → State) (s : State) (h1 : ∀ t, (f t).job = t.job) : (watchDegraded f s).job = s.job := by
  unfold watchDegraded
  simp [h1]

@[simp] theorem watchDegraded_chans (f : State → State) (s : State) (h1 : ∀ t, (f t).chans = t.chans) : (watchDegraded f s).chans = s.chans := by
  unfold watchDegraded
  simp [h1]

@[simp] theorem watchDegraded_plots (f : State → State) (s : State) (h1 : ∀ t, (f t).plots = t.plots) : (watchDegraded f s).plots = s.plots := by
  unfold watchDegraded
  simp [h1]

@[simp] theorem watchDegraded_flds (f : State → State) (s : State) (h1 : ∀ t, (f t).flds = t.flds) : (watchDegraded f s).flds = s.flds := by
  unfold watchDegraded
  simp [h1]

@[simp] theorem watchDegraded_grid (f : State → State) (s : State) (h1 : ∀ t, (f t).grid = t.grid) : (watchDegraded f s).grid = s.grid := by
  unfold watchDegraded
  simp [h1]

@[simp] theorem watchDegraded_bridges (f : State → State) (s : State) (h1 : ∀ t, (f t).bridges = t.bridges) : (watchDegraded f s).bridges =
    s.bridges := by
  unfold watchDegraded
  simp [h1]

@[simp] theorem watchDegraded_hbm (f : State → State) (s : State) (h1 : ∀ t, (f t).hbm = t.hbm) : (watchDegraded f s).hbm = s.hbm := by
  unfold watchDegraded
  simp [h1]

@[simp] theorem watchDegraded_links (f : State → State) (s : State) (h1 : ∀ t, (f t).links = t.links) : (watchDegraded f s).links = s.links := by
  unfold watchDegraded
  simp [h1]

@[simp] theorem watchDegraded_mesh (f : State → State) (s : State) (h1 : ∀ t, (f t).mesh = t.mesh) : (watchDegraded f s).mesh = s.mesh := by
  unfold watchDegraded
  simp [h1]

@[simp] theorem watchDegraded_test (f : State → State) (s : State) (h1 : ∀ t, (f t).test = t.test) : (watchDegraded f s).test = s.test := by
  unfold watchDegraded
  simp [h1]

@[simp] theorem watchDegraded_health (f : State → State) (s : State) (h1 : ∀ t, (f t).health = t.health) : (watchDegraded f s).health = s.health :=
    by
  unfold watchDegraded
  simp [h1]

@[simp] theorem watchDegraded_free (f : State → State) (s : State) (h1 : ∀ t, (f t).free = t.free) : (watchDegraded f s).free = s.free := by
  unfold watchDegraded
  simp [h1]

/-! ## Persist -/

@[simp] theorem burn_keeps (k v : Nat) (good : Bool) (s : State) : (burn k v good s).pending = s.pending ∧ (burn k v good s).pins = s.pins ∧ (burn k
    v good s).ctl = s.ctl ∧ (burn k v good s).pwr = s.pwr ∧ (burn k v good s).flash = s.flash ∧ (burn k v good s).gateh = s.gateh ∧ (burn k v good
    s).mbx = s.mbx ∧ (burn k v good s).evt = s.evt ∧ (burn k v good s).job = s.job ∧ (burn k v good s).chans = s.chans ∧ (burn k v good s).plots =
    s.plots ∧ (burn k v good s).flds = s.flds ∧ (burn k v good s).grid = s.grid ∧ (burn k v good s).bridges = s.bridges ∧ (burn k v good s).hbm =
    s.hbm ∧ (burn k v good s).links = s.links ∧ (burn k v good s).mesh = s.mesh ∧ (burn k v good s).test = s.test ∧ (burn k v good s).health =
    s.health ∧ (burn k v good s).free = s.free := by
  unfold burn
  simp

/-! ## Scratch -/

@[simp] theorem wakePlot_keeps (p : Nat) (s : State) : (wakePlot p s).pending = s.pending ∧ (wakePlot p s).pins = s.pins ∧ (wakePlot p s).ctl =
    s.ctl ∧ (wakePlot p s).pwr = s.pwr ∧ (wakePlot p s).otp = s.otp ∧ (wakePlot p s).flash = s.flash ∧ (wakePlot p s).gateh = s.gateh ∧ (wakePlot p
    s).mbx = s.mbx ∧ (wakePlot p s).evt = s.evt ∧ (wakePlot p s).job = s.job ∧ (wakePlot p s).chans = s.chans ∧ (wakePlot p s).flds = s.flds ∧
    (wakePlot p s).grid = s.grid ∧ (wakePlot p s).bridges = s.bridges ∧ (wakePlot p s).hbm = s.hbm ∧ (wakePlot p s).links = s.links ∧ (wakePlot p
    s).mesh = s.mesh ∧ (wakePlot p s).test = s.test ∧ (wakePlot p s).health = s.health ∧ (wakePlot p s).free = s.free := by
  unfold wakePlot
  (repeat' split) <;> simp

@[simp] theorem spadLoad_keeps (p i off n agent : Nat) (src : U32) (s : State) : (spadLoad p i off n agent src s).1.pending = s.pending ∧ (spadLoad
    p i off n agent src s).1.pins = s.pins ∧ (spadLoad p i off n agent src s).1.ctl = s.ctl ∧ (spadLoad p i off n agent src s).1.pwr = s.pwr ∧
    (spadLoad p i off n agent src s).1.otp = s.otp ∧ (spadLoad p i off n agent src s).1.mbx = s.mbx ∧ (spadLoad p i off n agent src s).1.job = s.job
    ∧ (spadLoad p i off n agent src s).1.chans = s.chans ∧ (spadLoad p i off n agent src s).1.flds = s.flds ∧ (spadLoad p i off n agent src
    s).1.grid = s.grid ∧ (spadLoad p i off n agent src s).1.bridges = s.bridges ∧ (spadLoad p i off n agent src s).1.hbm = s.hbm ∧ (spadLoad p i off
    n agent src s).1.links = s.links ∧ (spadLoad p i off n agent src s).1.mesh = s.mesh ∧ (spadLoad p i off n agent src s).1.test = s.test ∧
    (spadLoad p i off n agent src s).1.health = s.health ∧ (spadLoad p i off n agent src s).1.free = s.free := by
  unfold spadLoad
  (repeat' split) <;> simp

@[simp] theorem spadStore_keeps (p i off : Nat) (bs : List Byte) (agent : Nat) (src : U32) (s : State) : (spadStore p i off bs agent src
    s).1.pending = s.pending ∧ (spadStore p i off bs agent src s).1.pins = s.pins ∧ (spadStore p i off bs agent src s).1.ctl = s.ctl ∧ (spadStore p
    i off bs agent src s).1.pwr = s.pwr ∧ (spadStore p i off bs agent src s).1.otp = s.otp ∧ (spadStore p i off bs agent src s).1.mbx = s.mbx ∧
    (spadStore p i off bs agent src s).1.job = s.job ∧ (spadStore p i off bs agent src s).1.chans = s.chans ∧ (spadStore p i off bs agent src
    s).1.flds = s.flds ∧ (spadStore p i off bs agent src s).1.grid = s.grid ∧ (spadStore p i off bs agent src s).1.bridges = s.bridges ∧ (spadStore
    p i off bs agent src s).1.hbm = s.hbm ∧ (spadStore p i off bs agent src s).1.links = s.links ∧ (spadStore p i off bs agent src s).1.mesh =
    s.mesh ∧ (spadStore p i off bs agent src s).1.test = s.test ∧ (spadStore p i off bs agent src s).1.health = s.health ∧ (spadStore p i off bs
    agent src s).1.free = s.free := by
  unfold spadStore
  dsimp only
  (repeat' split) <;> simp

@[simp] theorem spadCorrect_keeps (p i off n : Nat) (s : State) : (spadCorrect p i off n s).pending = s.pending ∧ (spadCorrect p i off n s).pins =
    s.pins ∧ (spadCorrect p i off n s).ctl = s.ctl ∧ (spadCorrect p i off n s).pwr = s.pwr ∧ (spadCorrect p i off n s).otp = s.otp ∧ (spadCorrect p
    i off n s).gateh = s.gateh ∧ (spadCorrect p i off n s).mbx = s.mbx ∧ (spadCorrect p i off n s).job = s.job ∧ (spadCorrect p i off n s).chans =
    s.chans ∧ (spadCorrect p i off n s).flds = s.flds ∧ (spadCorrect p i off n s).grid = s.grid ∧ (spadCorrect p i off n s).bridges = s.bridges ∧
    (spadCorrect p i off n s).hbm = s.hbm ∧ (spadCorrect p i off n s).links = s.links ∧ (spadCorrect p i off n s).mesh = s.mesh ∧ (spadCorrect p i
    off n s).test = s.test ∧ (spadCorrect p i off n s).health = s.health ∧ (spadCorrect p i off n s).free = s.free := by
  unfold spadCorrect
  simp

@[simp] theorem spadScan_keeps (p i : Nat) (words : List Nat) (s : State) : (spadScan p i words s).pending = s.pending ∧ (spadScan p i words s).pins
    = s.pins ∧ (spadScan p i words s).ctl = s.ctl ∧ (spadScan p i words s).pwr = s.pwr ∧ (spadScan p i words s).otp = s.otp ∧ (spadScan p i words
    s).gateh = s.gateh ∧ (spadScan p i words s).mbx = s.mbx ∧ (spadScan p i words s).job = s.job ∧ (spadScan p i words s).chans = s.chans ∧
    (spadScan p i words s).flds = s.flds ∧ (spadScan p i words s).grid = s.grid ∧ (spadScan p i words s).bridges = s.bridges ∧ (spadScan p i words
    s).hbm = s.hbm ∧ (spadScan p i words s).links = s.links ∧ (spadScan p i words s).mesh = s.mesh ∧ (spadScan p i words s).test = s.test ∧
    (spadScan p i words s).health = s.health ∧ (spadScan p i words s).free = s.free := by
  unfold spadScan
  simp

@[simp] theorem spadPoison_keeps (p i off n : Nat) (s : State) : (spadPoison p i off n s).pending = s.pending ∧ (spadPoison p i off n s).pins =
    s.pins ∧ (spadPoison p i off n s).ctl = s.ctl ∧ (spadPoison p i off n s).pwr = s.pwr ∧ (spadPoison p i off n s).otp = s.otp ∧ (spadPoison p i
    off n s).flash = s.flash ∧ (spadPoison p i off n s).gateh = s.gateh ∧ (spadPoison p i off n s).mbx = s.mbx ∧ (spadPoison p i off n s).evt =
    s.evt ∧ (spadPoison p i off n s).job = s.job ∧ (spadPoison p i off n s).chans = s.chans ∧ (spadPoison p i off n s).flds = s.flds ∧ (spadPoison p
    i off n s).grid = s.grid ∧ (spadPoison p i off n s).bridges = s.bridges ∧ (spadPoison p i off n s).hbm = s.hbm ∧ (spadPoison p i off n s).links
    = s.links ∧ (spadPoison p i off n s).mesh = s.mesh ∧ (spadPoison p i off n s).test = s.test ∧ (spadPoison p i off n s).health = s.health ∧
    (spadPoison p i off n s).free = s.free := by
  unfold spadPoison
  (repeat' split) <;> simp

@[simp] theorem stallSlice_keeps (p i slot part : Nat) (producer : Bool) (agent : Nat) (s : State) : (stallSlice p i slot part producer agent
    s).pending = s.pending ∧ (stallSlice p i slot part producer agent s).pins = s.pins ∧ (stallSlice p i slot part producer agent s).ctl = s.ctl ∧
    (stallSlice p i slot part producer agent s).pwr = s.pwr ∧ (stallSlice p i slot part producer agent s).otp = s.otp ∧ (stallSlice p i slot part
    producer agent s).flash = s.flash ∧ (stallSlice p i slot part producer agent s).gateh = s.gateh ∧ (stallSlice p i slot part producer agent
    s).mbx = s.mbx ∧ (stallSlice p i slot part producer agent s).evt = s.evt ∧ (stallSlice p i slot part producer agent s).job = s.job ∧ (stallSlice
    p i slot part producer agent s).chans = s.chans ∧ (stallSlice p i slot part producer agent s).flds = s.flds ∧ (stallSlice p i slot part producer
    agent s).grid = s.grid ∧ (stallSlice p i slot part producer agent s).bridges = s.bridges ∧ (stallSlice p i slot part producer agent s).hbm =
    s.hbm ∧ (stallSlice p i slot part producer agent s).links = s.links ∧ (stallSlice p i slot part producer agent s).mesh = s.mesh ∧ (stallSlice p
    i slot part producer agent s).test = s.test ∧ (stallSlice p i slot part producer agent s).health = s.health ∧ (stallSlice p i slot part producer
    agent s).free = s.free := by
  unfold stallSlice
  simp

/-! ## Maps -/

@[simp] theorem fencePosition_keeps (f pos : Nat) (s : State) : (fencePosition f pos s).pending = s.pending ∧ (fencePosition f pos s).pins = s.pins
    ∧ (fencePosition f pos s).ctl = s.ctl ∧ (fencePosition f pos s).pwr = s.pwr ∧ (fencePosition f pos s).otp = s.otp ∧ (fencePosition f pos
    s).flash = s.flash ∧ (fencePosition f pos s).gateh = s.gateh ∧ (fencePosition f pos s).mbx = s.mbx ∧ (fencePosition f pos s).evt = s.evt ∧
    (fencePosition f pos s).job = s.job ∧ (fencePosition f pos s).chans = s.chans ∧ (fencePosition f pos s).plots = s.plots ∧ (fencePosition f pos
    s).grid = s.grid ∧ (fencePosition f pos s).bridges = s.bridges ∧ (fencePosition f pos s).hbm = s.hbm ∧ (fencePosition f pos s).links = s.links ∧
    (fencePosition f pos s).mesh = s.mesh ∧ (fencePosition f pos s).test = s.test ∧ (fencePosition f pos s).health = s.health ∧ (fencePosition f pos
    s).free = s.free := by
  unfold fencePosition
  dsimp only
  (repeat' split) <;> simp

@[simp] theorem writeFieldRoutes_keeps (s : State) : (writeFieldRoutes s).pending = s.pending ∧ (writeFieldRoutes s).pins = s.pins ∧
    (writeFieldRoutes s).ctl = s.ctl ∧ (writeFieldRoutes s).pwr = s.pwr ∧ (writeFieldRoutes s).otp = s.otp ∧ (writeFieldRoutes s).flash = s.flash ∧
    (writeFieldRoutes s).gateh = s.gateh ∧ (writeFieldRoutes s).mbx = s.mbx ∧ (writeFieldRoutes s).evt = s.evt ∧ (writeFieldRoutes s).job = s.job ∧
    (writeFieldRoutes s).chans = s.chans ∧ (writeFieldRoutes s).plots = s.plots ∧ (writeFieldRoutes s).grid = s.grid ∧ (writeFieldRoutes s).bridges
    = s.bridges ∧ (writeFieldRoutes s).hbm = s.hbm ∧ (writeFieldRoutes s).links = s.links ∧ (writeFieldRoutes s).mesh = s.mesh ∧ (writeFieldRoutes
    s).test = s.test ∧ (writeFieldRoutes s).health = s.health ∧ (writeFieldRoutes s).free = s.free := by
  unfold writeFieldRoutes
  simp

@[simp] theorem updCore_keeps (f col row : Nat) (g : CoreTest → CoreTest) (s : State) : (updCore f col row g s).pending = s.pending ∧ (updCore f col
    row g s).pins = s.pins ∧ (updCore f col row g s).ctl = s.ctl ∧ (updCore f col row g s).pwr = s.pwr ∧ (updCore f col row g s).otp = s.otp ∧
    (updCore f col row g s).flash = s.flash ∧ (updCore f col row g s).gateh = s.gateh ∧ (updCore f col row g s).mbx = s.mbx ∧ (updCore f col row g
    s).evt = s.evt ∧ (updCore f col row g s).job = s.job ∧ (updCore f col row g s).chans = s.chans ∧ (updCore f col row g s).plots = s.plots ∧
    (updCore f col row g s).grid = s.grid ∧ (updCore f col row g s).bridges = s.bridges ∧ (updCore f col row g s).hbm = s.hbm ∧ (updCore f col row g
    s).links = s.links ∧ (updCore f col row g s).mesh = s.mesh ∧ (updCore f col row g s).test = s.test ∧ (updCore f col row g s).health = s.health ∧
    (updCore f col row g s).free = s.free := by
  unfold updCore
  simp

@[simp] theorem warn_keeps (kind srcKind object : Nat) (value threshold : Int) (e : EventRec) (s : State) : (warn kind srcKind object value
    threshold e s).pending = s.pending ∧ (warn kind srcKind object value threshold e s).pins = s.pins ∧ (warn kind srcKind object value threshold e
    s).ctl = s.ctl ∧ (warn kind srcKind object value threshold e s).pwr = s.pwr ∧ (warn kind srcKind object value threshold e s).otp = s.otp ∧ (warn
    kind srcKind object value threshold e s).gateh = s.gateh ∧ (warn kind srcKind object value threshold e s).mbx = s.mbx ∧ (warn kind srcKind
    object value threshold e s).job = s.job ∧ (warn kind srcKind object value threshold e s).chans = s.chans ∧ (warn kind srcKind object value
    threshold e s).plots = s.plots ∧ (warn kind srcKind object value threshold e s).flds = s.flds ∧ (warn kind srcKind object value threshold e
    s).grid = s.grid ∧ (warn kind srcKind object value threshold e s).bridges = s.bridges ∧ (warn kind srcKind object value threshold e s).hbm =
    s.hbm ∧ (warn kind srcKind object value threshold e s).links = s.links ∧ (warn kind srcKind object value threshold e s).mesh = s.mesh ∧ (warn
    kind srcKind object value threshold e s).test = s.test ∧ (warn kind srcKind object value threshold e s).free = s.free := by
  unfold warn
  (repeat' split) <;> simp

@[simp] theorem spareWarning_keeps (f : Nat) (s : State) : (spareWarning f s).pending = s.pending ∧ (spareWarning f s).pins = s.pins ∧ (spareWarning
    f s).ctl = s.ctl ∧ (spareWarning f s).pwr = s.pwr ∧ (spareWarning f s).otp = s.otp ∧ (spareWarning f s).gateh = s.gateh ∧ (spareWarning f s).mbx
    = s.mbx ∧ (spareWarning f s).job = s.job ∧ (spareWarning f s).chans = s.chans ∧ (spareWarning f s).plots = s.plots ∧ (spareWarning f s).flds =
    s.flds ∧ (spareWarning f s).grid = s.grid ∧ (spareWarning f s).bridges = s.bridges ∧ (spareWarning f s).hbm = s.hbm ∧ (spareWarning f s).links =
    s.links ∧ (spareWarning f s).mesh = s.mesh ∧ (spareWarning f s).test = s.test ∧ (spareWarning f s).free = s.free := by
  unfold spareWarning
  (repeat' split) <;> simp

@[simp] theorem generationWarning_keeps (f : Nat) (s : State) : (generationWarning f s).pending = s.pending ∧ (generationWarning f s).pins = s.pins
    ∧ (generationWarning f s).ctl = s.ctl ∧ (generationWarning f s).pwr = s.pwr ∧ (generationWarning f s).otp = s.otp ∧ (generationWarning f
    s).gateh = s.gateh ∧ (generationWarning f s).mbx = s.mbx ∧ (generationWarning f s).job = s.job ∧ (generationWarning f s).chans = s.chans ∧
    (generationWarning f s).plots = s.plots ∧ (generationWarning f s).flds = s.flds ∧ (generationWarning f s).grid = s.grid ∧ (generationWarning f
    s).bridges = s.bridges ∧ (generationWarning f s).hbm = s.hbm ∧ (generationWarning f s).links = s.links ∧ (generationWarning f s).mesh = s.mesh ∧
    (generationWarning f s).test = s.test ∧ (generationWarning f s).free = s.free := by
  unfold generationWarning
  (repeat' split) <;> simp

@[simp] theorem recoveredWarning_keeps (f : Nat) (s : State) : (recoveredWarning f s).pending = s.pending ∧ (recoveredWarning f s).pins = s.pins ∧
    (recoveredWarning f s).ctl = s.ctl ∧ (recoveredWarning f s).pwr = s.pwr ∧ (recoveredWarning f s).otp = s.otp ∧ (recoveredWarning f s).gateh =
    s.gateh ∧ (recoveredWarning f s).mbx = s.mbx ∧ (recoveredWarning f s).job = s.job ∧ (recoveredWarning f s).chans = s.chans ∧ (recoveredWarning f
    s).plots = s.plots ∧ (recoveredWarning f s).flds = s.flds ∧ (recoveredWarning f s).grid = s.grid ∧ (recoveredWarning f s).bridges = s.bridges ∧
    (recoveredWarning f s).hbm = s.hbm ∧ (recoveredWarning f s).links = s.links ∧ (recoveredWarning f s).mesh = s.mesh ∧ (recoveredWarning f s).test
    = s.test ∧ (recoveredWarning f s).free = s.free := by
  unfold recoveredWarning
  (repeat' split) <;> simp

/-! ## Trellis -/

@[simp] theorem grantHops_keeps (cls : Nat) (l : List Hop) (s : State) : (grantHops cls l s).pending = s.pending ∧ (grantHops cls l s).pins = s.pins
    ∧ (grantHops cls l s).ctl = s.ctl ∧ (grantHops cls l s).pwr = s.pwr ∧ (grantHops cls l s).otp = s.otp ∧ (grantHops cls l s).flash = s.flash ∧
    (grantHops cls l s).gateh = s.gateh ∧ (grantHops cls l s).mbx = s.mbx ∧ (grantHops cls l s).evt = s.evt ∧ (grantHops cls l s).job = s.job ∧
    (grantHops cls l s).chans = s.chans ∧ (grantHops cls l s).plots = s.plots ∧ (grantHops cls l s).flds = s.flds ∧ (grantHops cls l s).bridges =
    s.bridges ∧ (grantHops cls l s).hbm = s.hbm ∧ (grantHops cls l s).links = s.links ∧ (grantHops cls l s).mesh = s.mesh ∧ (grantHops cls l s).test
    = s.test ∧ (grantHops cls l s).health = s.health ∧ (grantHops cls l s).free = s.free := by
  unfold grantHops
  simp

@[simp] theorem grantUnion_keeps (cls : Nat) (ways : List (List Hop)) (s : State) : (grantUnion cls ways s).pending = s.pending ∧ (grantUnion cls
    ways s).pins = s.pins ∧ (grantUnion cls ways s).ctl = s.ctl ∧ (grantUnion cls ways s).pwr = s.pwr ∧ (grantUnion cls ways s).otp = s.otp ∧
    (grantUnion cls ways s).flash = s.flash ∧ (grantUnion cls ways s).gateh = s.gateh ∧ (grantUnion cls ways s).mbx = s.mbx ∧ (grantUnion cls ways
    s).evt = s.evt ∧ (grantUnion cls ways s).job = s.job ∧ (grantUnion cls ways s).chans = s.chans ∧ (grantUnion cls ways s).plots = s.plots ∧
    (grantUnion cls ways s).flds = s.flds ∧ (grantUnion cls ways s).bridges = s.bridges ∧ (grantUnion cls ways s).hbm = s.hbm ∧ (grantUnion cls ways
    s).links = s.links ∧ (grantUnion cls ways s).mesh = s.mesh ∧ (grantUnion cls ways s).test = s.test ∧ (grantUnion cls ways s).health = s.health ∧
    (grantUnion cls ways s).free = s.free := by
  unfold grantUnion
  simp

@[simp] theorem park_keeps (v : Parcel) (s : State) : (park v s).pending = s.pending ∧ (park v s).pins = s.pins ∧ (park v s).ctl = s.ctl ∧ (park v
    s).pwr = s.pwr ∧ (park v s).otp = s.otp ∧ (park v s).flash = s.flash ∧ (park v s).gateh = s.gateh ∧ (park v s).mbx = s.mbx ∧ (park v s).evt =
    s.evt ∧ (park v s).job = s.job ∧ (park v s).chans = s.chans ∧ (park v s).plots = s.plots ∧ (park v s).flds = s.flds ∧ (park v s).bridges =
    s.bridges ∧ (park v s).hbm = s.hbm ∧ (park v s).links = s.links ∧ (park v s).mesh = s.mesh ∧ (park v s).test = s.test ∧ (park v s).health =
    s.health ∧ (park v s).free = s.free := by
  unfold park
  simp

@[simp] theorem arrive_pending (legs : List Leg) (cls : Nat) (goal : Goal) (cargo : Cargo) (kept deliver : State → State) (s : State) (h1 : ∀ t,
    (kept t).pending = t.pending) (h2 : ∀ t, (deliver t).pending = t.pending) : (arrive legs cls goal cargo kept deliver s).pending = s.pending :=
    by
  unfold arrive
  (repeat' split) <;> simp [h1, h2]

@[simp] theorem arrive_pins (legs : List Leg) (cls : Nat) (goal : Goal) (cargo : Cargo) (kept deliver : State → State) (s : State) (h1 : ∀ t, (kept
    t).pins = t.pins) (h2 : ∀ t, (deliver t).pins = t.pins) : (arrive legs cls goal cargo kept deliver s).pins = s.pins := by
  unfold arrive
  (repeat' split) <;> simp [h1, h2]

@[simp] theorem arrive_ctl (legs : List Leg) (cls : Nat) (goal : Goal) (cargo : Cargo) (kept deliver : State → State) (s : State) (h1 : ∀ t, (kept
    t).ctl = t.ctl) (h2 : ∀ t, (deliver t).ctl = t.ctl) : (arrive legs cls goal cargo kept deliver s).ctl = s.ctl := by
  unfold arrive
  (repeat' split) <;> simp [h1, h2]

@[simp] theorem arrive_pwr (legs : List Leg) (cls : Nat) (goal : Goal) (cargo : Cargo) (kept deliver : State → State) (s : State) (h1 : ∀ t, (kept
    t).pwr = t.pwr) (h2 : ∀ t, (deliver t).pwr = t.pwr) : (arrive legs cls goal cargo kept deliver s).pwr = s.pwr := by
  unfold arrive
  (repeat' split) <;> simp [h1, h2]

@[simp] theorem arrive_otp (legs : List Leg) (cls : Nat) (goal : Goal) (cargo : Cargo) (kept deliver : State → State) (s : State) (h1 : ∀ t, (kept
    t).otp = t.otp) (h2 : ∀ t, (deliver t).otp = t.otp) : (arrive legs cls goal cargo kept deliver s).otp = s.otp := by
  unfold arrive
  (repeat' split) <;> simp [h1, h2]

@[simp] theorem arrive_flash (legs : List Leg) (cls : Nat) (goal : Goal) (cargo : Cargo) (kept deliver : State → State) (s : State) (h1 : ∀ t, (kept
    t).flash = t.flash) (h2 : ∀ t, (deliver t).flash = t.flash) : (arrive legs cls goal cargo kept deliver s).flash = s.flash := by
  unfold arrive
  (repeat' split) <;> simp [h1, h2]

@[simp] theorem arrive_gateh (legs : List Leg) (cls : Nat) (goal : Goal) (cargo : Cargo) (kept deliver : State → State) (s : State) (h1 : ∀ t, (kept
    t).gateh = t.gateh) (h2 : ∀ t, (deliver t).gateh = t.gateh) : (arrive legs cls goal cargo kept deliver s).gateh = s.gateh := by
  unfold arrive
  (repeat' split) <;> simp [h1, h2]

@[simp] theorem arrive_mbx (legs : List Leg) (cls : Nat) (goal : Goal) (cargo : Cargo) (kept deliver : State → State) (s : State) (h1 : ∀ t, (kept
    t).mbx = t.mbx) (h2 : ∀ t, (deliver t).mbx = t.mbx) : (arrive legs cls goal cargo kept deliver s).mbx = s.mbx := by
  unfold arrive
  (repeat' split) <;> simp [h1, h2]

@[simp] theorem arrive_evt (legs : List Leg) (cls : Nat) (goal : Goal) (cargo : Cargo) (kept deliver : State → State) (s : State) (h1 : ∀ t, (kept
    t).evt = t.evt) (h2 : ∀ t, (deliver t).evt = t.evt) : (arrive legs cls goal cargo kept deliver s).evt = s.evt := by
  unfold arrive
  (repeat' split) <;> simp [h1, h2]

@[simp] theorem arrive_job (legs : List Leg) (cls : Nat) (goal : Goal) (cargo : Cargo) (kept deliver : State → State) (s : State) (h1 : ∀ t, (kept
    t).job = t.job) (h2 : ∀ t, (deliver t).job = t.job) : (arrive legs cls goal cargo kept deliver s).job = s.job := by
  unfold arrive
  (repeat' split) <;> simp [h1, h2]

@[simp] theorem arrive_chans (legs : List Leg) (cls : Nat) (goal : Goal) (cargo : Cargo) (kept deliver : State → State) (s : State) (h1 : ∀ t, (kept
    t).chans = t.chans) (h2 : ∀ t, (deliver t).chans = t.chans) : (arrive legs cls goal cargo kept deliver s).chans = s.chans := by
  unfold arrive
  (repeat' split) <;> simp [h1, h2]

@[simp] theorem arrive_plots (legs : List Leg) (cls : Nat) (goal : Goal) (cargo : Cargo) (kept deliver : State → State) (s : State) (h1 : ∀ t, (kept
    t).plots = t.plots) (h2 : ∀ t, (deliver t).plots = t.plots) : (arrive legs cls goal cargo kept deliver s).plots = s.plots := by
  unfold arrive
  (repeat' split) <;> simp [h1, h2]

@[simp] theorem arrive_flds (legs : List Leg) (cls : Nat) (goal : Goal) (cargo : Cargo) (kept deliver : State → State) (s : State) (h1 : ∀ t, (kept
    t).flds = t.flds) (h2 : ∀ t, (deliver t).flds = t.flds) : (arrive legs cls goal cargo kept deliver s).flds = s.flds := by
  unfold arrive
  (repeat' split) <;> simp [h1, h2]

@[simp] theorem arrive_bridges (legs : List Leg) (cls : Nat) (goal : Goal) (cargo : Cargo) (kept deliver : State → State) (s : State) (h1 : ∀ t,
    (kept t).bridges = t.bridges) (h2 : ∀ t, (deliver t).bridges = t.bridges) : (arrive legs cls goal cargo kept deliver s).bridges = s.bridges :=
    by
  unfold arrive
  (repeat' split) <;> simp [h1, h2]

@[simp] theorem arrive_hbm (legs : List Leg) (cls : Nat) (goal : Goal) (cargo : Cargo) (kept deliver : State → State) (s : State) (h1 : ∀ t, (kept
    t).hbm = t.hbm) (h2 : ∀ t, (deliver t).hbm = t.hbm) : (arrive legs cls goal cargo kept deliver s).hbm = s.hbm := by
  unfold arrive
  (repeat' split) <;> simp [h1, h2]

@[simp] theorem arrive_links (legs : List Leg) (cls : Nat) (goal : Goal) (cargo : Cargo) (kept deliver : State → State) (s : State) (h1 : ∀ t, (kept
    t).links = t.links) (h2 : ∀ t, (deliver t).links = t.links) : (arrive legs cls goal cargo kept deliver s).links = s.links := by
  unfold arrive
  (repeat' split) <;> simp [h1, h2]

@[simp] theorem arrive_mesh (legs : List Leg) (cls : Nat) (goal : Goal) (cargo : Cargo) (kept deliver : State → State) (s : State) (h1 : ∀ t, (kept
    t).mesh = t.mesh) (h2 : ∀ t, (deliver t).mesh = t.mesh) : (arrive legs cls goal cargo kept deliver s).mesh = s.mesh := by
  unfold arrive
  (repeat' split) <;> simp [h1, h2]

@[simp] theorem arrive_test (legs : List Leg) (cls : Nat) (goal : Goal) (cargo : Cargo) (kept deliver : State → State) (s : State) (h1 : ∀ t, (kept
    t).test = t.test) (h2 : ∀ t, (deliver t).test = t.test) : (arrive legs cls goal cargo kept deliver s).test = s.test := by
  unfold arrive
  (repeat' split) <;> simp [h1, h2]

@[simp] theorem arrive_health (legs : List Leg) (cls : Nat) (goal : Goal) (cargo : Cargo) (kept deliver : State → State) (s : State) (h1 : ∀ t,
    (kept t).health = t.health) (h2 : ∀ t, (deliver t).health = t.health) : (arrive legs cls goal cargo kept deliver s).health = s.health := by
  unfold arrive
  (repeat' split) <;> simp [h1, h2]

@[simp] theorem arrive_free (legs : List Leg) (cls : Nat) (goal : Goal) (cargo : Cargo) (kept deliver : State → State) (s : State) (h1 : ∀ t, (kept
    t).free = t.free) (h2 : ∀ t, (deliver t).free = t.free) : (arrive legs cls goal cargo kept deliver s).free = s.free := by
  unfold arrive
  (repeat' split) <;> simp [h1, h2]

@[simp] theorem carryLegs_pending (legs : List Leg) (cls : Nat) (goal : Goal) (cargo : Cargo) (kept deliver : State → State) (s : State) (h1 : ∀ t,
    (kept t).pending = t.pending) (h2 : ∀ t, (deliver t).pending = t.pending) : (carryLegs legs cls goal cargo kept deliver s).pending = s.pending
    := by
  unfold carryLegs
  simp [h1, h2]

@[simp] theorem carryLegs_pins (legs : List Leg) (cls : Nat) (goal : Goal) (cargo : Cargo) (kept deliver : State → State) (s : State) (h1 : ∀ t,
    (kept t).pins = t.pins) (h2 : ∀ t, (deliver t).pins = t.pins) : (carryLegs legs cls goal cargo kept deliver s).pins = s.pins := by
  unfold carryLegs
  simp [h1, h2]

@[simp] theorem carryLegs_ctl (legs : List Leg) (cls : Nat) (goal : Goal) (cargo : Cargo) (kept deliver : State → State) (s : State) (h1 : ∀ t,
    (kept t).ctl = t.ctl) (h2 : ∀ t, (deliver t).ctl = t.ctl) : (carryLegs legs cls goal cargo kept deliver s).ctl = s.ctl := by
  unfold carryLegs
  simp [h1, h2]

@[simp] theorem carryLegs_pwr (legs : List Leg) (cls : Nat) (goal : Goal) (cargo : Cargo) (kept deliver : State → State) (s : State) (h1 : ∀ t,
    (kept t).pwr = t.pwr) (h2 : ∀ t, (deliver t).pwr = t.pwr) : (carryLegs legs cls goal cargo kept deliver s).pwr = s.pwr := by
  unfold carryLegs
  simp [h1, h2]

@[simp] theorem carryLegs_otp (legs : List Leg) (cls : Nat) (goal : Goal) (cargo : Cargo) (kept deliver : State → State) (s : State) (h1 : ∀ t,
    (kept t).otp = t.otp) (h2 : ∀ t, (deliver t).otp = t.otp) : (carryLegs legs cls goal cargo kept deliver s).otp = s.otp := by
  unfold carryLegs
  simp [h1, h2]

@[simp] theorem carryLegs_flash (legs : List Leg) (cls : Nat) (goal : Goal) (cargo : Cargo) (kept deliver : State → State) (s : State) (h1 : ∀ t,
    (kept t).flash = t.flash) (h2 : ∀ t, (deliver t).flash = t.flash) : (carryLegs legs cls goal cargo kept deliver s).flash = s.flash := by
  unfold carryLegs
  simp [h1, h2]

@[simp] theorem carryLegs_gateh (legs : List Leg) (cls : Nat) (goal : Goal) (cargo : Cargo) (kept deliver : State → State) (s : State) (h1 : ∀ t,
    (kept t).gateh = t.gateh) (h2 : ∀ t, (deliver t).gateh = t.gateh) : (carryLegs legs cls goal cargo kept deliver s).gateh = s.gateh := by
  unfold carryLegs
  simp [h1, h2]

@[simp] theorem carryLegs_mbx (legs : List Leg) (cls : Nat) (goal : Goal) (cargo : Cargo) (kept deliver : State → State) (s : State) (h1 : ∀ t,
    (kept t).mbx = t.mbx) (h2 : ∀ t, (deliver t).mbx = t.mbx) : (carryLegs legs cls goal cargo kept deliver s).mbx = s.mbx := by
  unfold carryLegs
  simp [h1, h2]

@[simp] theorem carryLegs_evt (legs : List Leg) (cls : Nat) (goal : Goal) (cargo : Cargo) (kept deliver : State → State) (s : State) (h1 : ∀ t,
    (kept t).evt = t.evt) (h2 : ∀ t, (deliver t).evt = t.evt) : (carryLegs legs cls goal cargo kept deliver s).evt = s.evt := by
  unfold carryLegs
  simp [h1, h2]

@[simp] theorem carryLegs_job (legs : List Leg) (cls : Nat) (goal : Goal) (cargo : Cargo) (kept deliver : State → State) (s : State) (h1 : ∀ t,
    (kept t).job = t.job) (h2 : ∀ t, (deliver t).job = t.job) : (carryLegs legs cls goal cargo kept deliver s).job = s.job := by
  unfold carryLegs
  simp [h1, h2]

@[simp] theorem carryLegs_chans (legs : List Leg) (cls : Nat) (goal : Goal) (cargo : Cargo) (kept deliver : State → State) (s : State) (h1 : ∀ t,
    (kept t).chans = t.chans) (h2 : ∀ t, (deliver t).chans = t.chans) : (carryLegs legs cls goal cargo kept deliver s).chans = s.chans := by
  unfold carryLegs
  simp [h1, h2]

@[simp] theorem carryLegs_plots (legs : List Leg) (cls : Nat) (goal : Goal) (cargo : Cargo) (kept deliver : State → State) (s : State) (h1 : ∀ t,
    (kept t).plots = t.plots) (h2 : ∀ t, (deliver t).plots = t.plots) : (carryLegs legs cls goal cargo kept deliver s).plots = s.plots := by
  unfold carryLegs
  simp [h1, h2]

@[simp] theorem carryLegs_flds (legs : List Leg) (cls : Nat) (goal : Goal) (cargo : Cargo) (kept deliver : State → State) (s : State) (h1 : ∀ t,
    (kept t).flds = t.flds) (h2 : ∀ t, (deliver t).flds = t.flds) : (carryLegs legs cls goal cargo kept deliver s).flds = s.flds := by
  unfold carryLegs
  simp [h1, h2]

@[simp] theorem carryLegs_bridges (legs : List Leg) (cls : Nat) (goal : Goal) (cargo : Cargo) (kept deliver : State → State) (s : State) (h1 : ∀ t,
    (kept t).bridges = t.bridges) (h2 : ∀ t, (deliver t).bridges = t.bridges) : (carryLegs legs cls goal cargo kept deliver s).bridges = s.bridges
    := by
  unfold carryLegs
  simp [h1, h2]

@[simp] theorem carryLegs_hbm (legs : List Leg) (cls : Nat) (goal : Goal) (cargo : Cargo) (kept deliver : State → State) (s : State) (h1 : ∀ t,
    (kept t).hbm = t.hbm) (h2 : ∀ t, (deliver t).hbm = t.hbm) : (carryLegs legs cls goal cargo kept deliver s).hbm = s.hbm := by
  unfold carryLegs
  simp [h1, h2]

@[simp] theorem carryLegs_links (legs : List Leg) (cls : Nat) (goal : Goal) (cargo : Cargo) (kept deliver : State → State) (s : State) (h1 : ∀ t,
    (kept t).links = t.links) (h2 : ∀ t, (deliver t).links = t.links) : (carryLegs legs cls goal cargo kept deliver s).links = s.links := by
  unfold carryLegs
  simp [h1, h2]

@[simp] theorem carryLegs_mesh (legs : List Leg) (cls : Nat) (goal : Goal) (cargo : Cargo) (kept deliver : State → State) (s : State) (h1 : ∀ t,
    (kept t).mesh = t.mesh) (h2 : ∀ t, (deliver t).mesh = t.mesh) : (carryLegs legs cls goal cargo kept deliver s).mesh = s.mesh := by
  unfold carryLegs
  simp [h1, h2]

@[simp] theorem carryLegs_test (legs : List Leg) (cls : Nat) (goal : Goal) (cargo : Cargo) (kept deliver : State → State) (s : State) (h1 : ∀ t,
    (kept t).test = t.test) (h2 : ∀ t, (deliver t).test = t.test) : (carryLegs legs cls goal cargo kept deliver s).test = s.test := by
  unfold carryLegs
  simp [h1, h2]

@[simp] theorem carryLegs_health (legs : List Leg) (cls : Nat) (goal : Goal) (cargo : Cargo) (kept deliver : State → State) (s : State) (h1 : ∀ t,
    (kept t).health = t.health) (h2 : ∀ t, (deliver t).health = t.health) : (carryLegs legs cls goal cargo kept deliver s).health = s.health := by
  unfold carryLegs
  simp [h1, h2]

@[simp] theorem carryLegs_free (legs : List Leg) (cls : Nat) (goal : Goal) (cargo : Cargo) (kept deliver : State → State) (s : State) (h1 : ∀ t,
    (kept t).free = t.free) (h2 : ∀ t, (deliver t).free = t.free) : (carryLegs legs cls goal cargo kept deliver s).free = s.free := by
  unfold carryLegs
  simp [h1, h2]

@[simp] theorem carry_pending (f : Nat) (site : Site) (cls : Nat) (goal : Goal) (cargo : Cargo) (kept deliver : State → State) (s : State) (h1 : ∀
    t, (kept t).pending = t.pending) (h2 : ∀ t, (deliver t).pending = t.pending) : (carry f site cls goal cargo kept deliver s).pending = s.pending
    := by
  unfold carry
  simp [h1, h2]

@[simp] theorem carry_pins (f : Nat) (site : Site) (cls : Nat) (goal : Goal) (cargo : Cargo) (kept deliver : State → State) (s : State) (h1 : ∀ t,
    (kept t).pins = t.pins) (h2 : ∀ t, (deliver t).pins = t.pins) : (carry f site cls goal cargo kept deliver s).pins = s.pins := by
  unfold carry
  simp [h1, h2]

@[simp] theorem carry_ctl (f : Nat) (site : Site) (cls : Nat) (goal : Goal) (cargo : Cargo) (kept deliver : State → State) (s : State) (h1 : ∀ t,
    (kept t).ctl = t.ctl) (h2 : ∀ t, (deliver t).ctl = t.ctl) : (carry f site cls goal cargo kept deliver s).ctl = s.ctl := by
  unfold carry
  simp [h1, h2]

@[simp] theorem carry_pwr (f : Nat) (site : Site) (cls : Nat) (goal : Goal) (cargo : Cargo) (kept deliver : State → State) (s : State) (h1 : ∀ t,
    (kept t).pwr = t.pwr) (h2 : ∀ t, (deliver t).pwr = t.pwr) : (carry f site cls goal cargo kept deliver s).pwr = s.pwr := by
  unfold carry
  simp [h1, h2]

@[simp] theorem carry_otp (f : Nat) (site : Site) (cls : Nat) (goal : Goal) (cargo : Cargo) (kept deliver : State → State) (s : State) (h1 : ∀ t,
    (kept t).otp = t.otp) (h2 : ∀ t, (deliver t).otp = t.otp) : (carry f site cls goal cargo kept deliver s).otp = s.otp := by
  unfold carry
  simp [h1, h2]

@[simp] theorem carry_flash (f : Nat) (site : Site) (cls : Nat) (goal : Goal) (cargo : Cargo) (kept deliver : State → State) (s : State) (h1 : ∀ t,
    (kept t).flash = t.flash) (h2 : ∀ t, (deliver t).flash = t.flash) : (carry f site cls goal cargo kept deliver s).flash = s.flash := by
  unfold carry
  simp [h1, h2]

@[simp] theorem carry_gateh (f : Nat) (site : Site) (cls : Nat) (goal : Goal) (cargo : Cargo) (kept deliver : State → State) (s : State) (h1 : ∀ t,
    (kept t).gateh = t.gateh) (h2 : ∀ t, (deliver t).gateh = t.gateh) : (carry f site cls goal cargo kept deliver s).gateh = s.gateh := by
  unfold carry
  simp [h1, h2]

@[simp] theorem carry_mbx (f : Nat) (site : Site) (cls : Nat) (goal : Goal) (cargo : Cargo) (kept deliver : State → State) (s : State) (h1 : ∀ t,
    (kept t).mbx = t.mbx) (h2 : ∀ t, (deliver t).mbx = t.mbx) : (carry f site cls goal cargo kept deliver s).mbx = s.mbx := by
  unfold carry
  simp [h1, h2]

@[simp] theorem carry_evt (f : Nat) (site : Site) (cls : Nat) (goal : Goal) (cargo : Cargo) (kept deliver : State → State) (s : State) (h1 : ∀ t,
    (kept t).evt = t.evt) (h2 : ∀ t, (deliver t).evt = t.evt) : (carry f site cls goal cargo kept deliver s).evt = s.evt := by
  unfold carry
  simp [h1, h2]

@[simp] theorem carry_job (f : Nat) (site : Site) (cls : Nat) (goal : Goal) (cargo : Cargo) (kept deliver : State → State) (s : State) (h1 : ∀ t,
    (kept t).job = t.job) (h2 : ∀ t, (deliver t).job = t.job) : (carry f site cls goal cargo kept deliver s).job = s.job := by
  unfold carry
  simp [h1, h2]

@[simp] theorem carry_chans (f : Nat) (site : Site) (cls : Nat) (goal : Goal) (cargo : Cargo) (kept deliver : State → State) (s : State) (h1 : ∀ t,
    (kept t).chans = t.chans) (h2 : ∀ t, (deliver t).chans = t.chans) : (carry f site cls goal cargo kept deliver s).chans = s.chans := by
  unfold carry
  simp [h1, h2]

@[simp] theorem carry_plots (f : Nat) (site : Site) (cls : Nat) (goal : Goal) (cargo : Cargo) (kept deliver : State → State) (s : State) (h1 : ∀ t,
    (kept t).plots = t.plots) (h2 : ∀ t, (deliver t).plots = t.plots) : (carry f site cls goal cargo kept deliver s).plots = s.plots := by
  unfold carry
  simp [h1, h2]

@[simp] theorem carry_flds (f : Nat) (site : Site) (cls : Nat) (goal : Goal) (cargo : Cargo) (kept deliver : State → State) (s : State) (h1 : ∀ t,
    (kept t).flds = t.flds) (h2 : ∀ t, (deliver t).flds = t.flds) : (carry f site cls goal cargo kept deliver s).flds = s.flds := by
  unfold carry
  simp [h1, h2]

@[simp] theorem carry_bridges (f : Nat) (site : Site) (cls : Nat) (goal : Goal) (cargo : Cargo) (kept deliver : State → State) (s : State) (h1 : ∀
    t, (kept t).bridges = t.bridges) (h2 : ∀ t, (deliver t).bridges = t.bridges) : (carry f site cls goal cargo kept deliver s).bridges = s.bridges
    := by
  unfold carry
  simp [h1, h2]

@[simp] theorem carry_hbm (f : Nat) (site : Site) (cls : Nat) (goal : Goal) (cargo : Cargo) (kept deliver : State → State) (s : State) (h1 : ∀ t,
    (kept t).hbm = t.hbm) (h2 : ∀ t, (deliver t).hbm = t.hbm) : (carry f site cls goal cargo kept deliver s).hbm = s.hbm := by
  unfold carry
  simp [h1, h2]

@[simp] theorem carry_links (f : Nat) (site : Site) (cls : Nat) (goal : Goal) (cargo : Cargo) (kept deliver : State → State) (s : State) (h1 : ∀ t,
    (kept t).links = t.links) (h2 : ∀ t, (deliver t).links = t.links) : (carry f site cls goal cargo kept deliver s).links = s.links := by
  unfold carry
  simp [h1, h2]

@[simp] theorem carry_mesh (f : Nat) (site : Site) (cls : Nat) (goal : Goal) (cargo : Cargo) (kept deliver : State → State) (s : State) (h1 : ∀ t,
    (kept t).mesh = t.mesh) (h2 : ∀ t, (deliver t).mesh = t.mesh) : (carry f site cls goal cargo kept deliver s).mesh = s.mesh := by
  unfold carry
  simp [h1, h2]

@[simp] theorem carry_test (f : Nat) (site : Site) (cls : Nat) (goal : Goal) (cargo : Cargo) (kept deliver : State → State) (s : State) (h1 : ∀ t,
    (kept t).test = t.test) (h2 : ∀ t, (deliver t).test = t.test) : (carry f site cls goal cargo kept deliver s).test = s.test := by
  unfold carry
  simp [h1, h2]

@[simp] theorem carry_health (f : Nat) (site : Site) (cls : Nat) (goal : Goal) (cargo : Cargo) (kept deliver : State → State) (s : State) (h1 : ∀ t,
    (kept t).health = t.health) (h2 : ∀ t, (deliver t).health = t.health) : (carry f site cls goal cargo kept deliver s).health = s.health := by
  unfold carry
  simp [h1, h2]

@[simp] theorem carry_free (f : Nat) (site : Site) (cls : Nat) (goal : Goal) (cargo : Cargo) (kept deliver : State → State) (s : State) (h1 : ∀ t,
    (kept t).free = t.free) (h2 : ∀ t, (deliver t).free = t.free) : (carry f site cls goal cargo kept deliver s).free = s.free := by
  unfold carry
  simp [h1, h2]

@[simp] theorem setHold_keeps (f : Nat) (l : List Nat) (s : State) : (setHold f l s).pending = s.pending ∧ (setHold f l s).pins = s.pins ∧ (setHold
    f l s).ctl = s.ctl ∧ (setHold f l s).pwr = s.pwr ∧ (setHold f l s).otp = s.otp ∧ (setHold f l s).flash = s.flash ∧ (setHold f l s).gateh =
    s.gateh ∧ (setHold f l s).mbx = s.mbx ∧ (setHold f l s).evt = s.evt ∧ (setHold f l s).job = s.job ∧ (setHold f l s).chans = s.chans ∧ (setHold f
    l s).plots = s.plots ∧ (setHold f l s).flds = s.flds ∧ (setHold f l s).bridges = s.bridges ∧ (setHold f l s).hbm = s.hbm ∧ (setHold f l s).links
    = s.links ∧ (setHold f l s).mesh = s.mesh ∧ (setHold f l s).test = s.test ∧ (setHold f l s).health = s.health ∧ (setHold f l s).free = s.free :=
    by
  unfold setHold
  simp

/-! ## Track -/

@[simp] theorem updTransfer_keeps (f t : Nat) (g : Transfer → Transfer) (s : State) : (updTransfer f t g s).pending = s.pending ∧ (updTransfer f t g
    s).pins = s.pins ∧ (updTransfer f t g s).ctl = s.ctl ∧ (updTransfer f t g s).pwr = s.pwr ∧ (updTransfer f t g s).otp = s.otp ∧ (updTransfer f t
    g s).flash = s.flash ∧ (updTransfer f t g s).gateh = s.gateh ∧ (updTransfer f t g s).mbx = s.mbx ∧ (updTransfer f t g s).evt = s.evt ∧
    (updTransfer f t g s).job = s.job ∧ (updTransfer f t g s).chans = s.chans ∧ (updTransfer f t g s).plots = s.plots ∧ (updTransfer f t g s).grid =
    s.grid ∧ (updTransfer f t g s).bridges = s.bridges ∧ (updTransfer f t g s).hbm = s.hbm ∧ (updTransfer f t g s).links = s.links ∧ (updTransfer f
    t g s).mesh = s.mesh ∧ (updTransfer f t g s).test = s.test ∧ (updTransfer f t g s).health = s.health ∧ (updTransfer f t g s).free = s.free := by
  unfold updTransfer
  simp

@[simp] theorem updCommit_keeps (f c : Nat) (g : Commit → Commit) (s : State) : (updCommit f c g s).pending = s.pending ∧ (updCommit f c g s).pins =
    s.pins ∧ (updCommit f c g s).ctl = s.ctl ∧ (updCommit f c g s).pwr = s.pwr ∧ (updCommit f c g s).otp = s.otp ∧ (updCommit f c g s).flash =
    s.flash ∧ (updCommit f c g s).gateh = s.gateh ∧ (updCommit f c g s).mbx = s.mbx ∧ (updCommit f c g s).evt = s.evt ∧ (updCommit f c g s).job =
    s.job ∧ (updCommit f c g s).chans = s.chans ∧ (updCommit f c g s).plots = s.plots ∧ (updCommit f c g s).grid = s.grid ∧ (updCommit f c g
    s).bridges = s.bridges ∧ (updCommit f c g s).hbm = s.hbm ∧ (updCommit f c g s).links = s.links ∧ (updCommit f c g s).mesh = s.mesh ∧ (updCommit
    f c g s).test = s.test ∧ (updCommit f c g s).health = s.health ∧ (updCommit f c g s).free = s.free := by
  unfold updCommit
  simp

@[simp] theorem updRequest_keeps (f r : Nat) (g : MemReq → MemReq) (s : State) : (updRequest f r g s).pending = s.pending ∧ (updRequest f r g
    s).pins = s.pins ∧ (updRequest f r g s).ctl = s.ctl ∧ (updRequest f r g s).pwr = s.pwr ∧ (updRequest f r g s).otp = s.otp ∧ (updRequest f r g
    s).flash = s.flash ∧ (updRequest f r g s).gateh = s.gateh ∧ (updRequest f r g s).mbx = s.mbx ∧ (updRequest f r g s).evt = s.evt ∧ (updRequest f
    r g s).job = s.job ∧ (updRequest f r g s).chans = s.chans ∧ (updRequest f r g s).plots = s.plots ∧ (updRequest f r g s).grid = s.grid ∧
    (updRequest f r g s).bridges = s.bridges ∧ (updRequest f r g s).hbm = s.hbm ∧ (updRequest f r g s).links = s.links ∧ (updRequest f r g s).mesh =
    s.mesh ∧ (updRequest f r g s).test = s.test ∧ (updRequest f r g s).health = s.health ∧ (updRequest f r g s).free = s.free := by
  unfold updRequest
  simp

@[simp] theorem addRequest_keeps (f : Nat) (r : MemReq) (s : State) : (addRequest f r s).pending = s.pending ∧ (addRequest f r s).pins = s.pins ∧
    (addRequest f r s).ctl = s.ctl ∧ (addRequest f r s).pwr = s.pwr ∧ (addRequest f r s).otp = s.otp ∧ (addRequest f r s).flash = s.flash ∧
    (addRequest f r s).gateh = s.gateh ∧ (addRequest f r s).mbx = s.mbx ∧ (addRequest f r s).evt = s.evt ∧ (addRequest f r s).job = s.job ∧
    (addRequest f r s).chans = s.chans ∧ (addRequest f r s).plots = s.plots ∧ (addRequest f r s).grid = s.grid ∧ (addRequest f r s).bridges =
    s.bridges ∧ (addRequest f r s).hbm = s.hbm ∧ (addRequest f r s).links = s.links ∧ (addRequest f r s).mesh = s.mesh ∧ (addRequest f r s).test =
    s.test ∧ (addRequest f r s).health = s.health ∧ (addRequest f r s).free = s.free := by
  unfold addRequest
  simp

@[simp] theorem endRequest_keeps (f r : Nat) (s : State) : (endRequest f r s).pending = s.pending ∧ (endRequest f r s).pins = s.pins ∧ (endRequest f
    r s).ctl = s.ctl ∧ (endRequest f r s).pwr = s.pwr ∧ (endRequest f r s).otp = s.otp ∧ (endRequest f r s).flash = s.flash ∧ (endRequest f r
    s).gateh = s.gateh ∧ (endRequest f r s).mbx = s.mbx ∧ (endRequest f r s).evt = s.evt ∧ (endRequest f r s).job = s.job ∧ (endRequest f r s).chans
    = s.chans ∧ (endRequest f r s).plots = s.plots ∧ (endRequest f r s).grid = s.grid ∧ (endRequest f r s).bridges = s.bridges ∧ (endRequest f r
    s).hbm = s.hbm ∧ (endRequest f r s).links = s.links ∧ (endRequest f r s).mesh = s.mesh ∧ (endRequest f r s).test = s.test ∧ (endRequest f r
    s).health = s.health ∧ (endRequest f r s).free = s.free := by
  unfold endRequest
  simp

@[simp] theorem landFill_keeps (f t off : Nat) (bs : List Byte) (poisoned : Bool) (s : State) : (landFill f t off bs poisoned s).pending = s.pending
    ∧ (landFill f t off bs poisoned s).pins = s.pins ∧ (landFill f t off bs poisoned s).ctl = s.ctl ∧ (landFill f t off bs poisoned s).pwr = s.pwr ∧
    (landFill f t off bs poisoned s).otp = s.otp ∧ (landFill f t off bs poisoned s).mbx = s.mbx ∧ (landFill f t off bs poisoned s).job = s.job ∧
    (landFill f t off bs poisoned s).chans = s.chans ∧ (landFill f t off bs poisoned s).grid = s.grid ∧ (landFill f t off bs poisoned s).bridges =
    s.bridges ∧ (landFill f t off bs poisoned s).hbm = s.hbm ∧ (landFill f t off bs poisoned s).links = s.links ∧ (landFill f t off bs poisoned
    s).mesh = s.mesh ∧ (landFill f t off bs poisoned s).test = s.test ∧ (landFill f t off bs poisoned s).health = s.health ∧ (landFill f t off bs
    poisoned s).free = s.free := by
  unfold landFill
  (repeat' split) <;> simp

@[simp] theorem holdOne_keeps (f rid : Nat) (s : State) : (holdOne f rid s).pending = s.pending ∧ (holdOne f rid s).pins = s.pins ∧ (holdOne f rid
    s).ctl = s.ctl ∧ (holdOne f rid s).pwr = s.pwr ∧ (holdOne f rid s).otp = s.otp ∧ (holdOne f rid s).flash = s.flash ∧ (holdOne f rid s).gateh =
    s.gateh ∧ (holdOne f rid s).mbx = s.mbx ∧ (holdOne f rid s).evt = s.evt ∧ (holdOne f rid s).job = s.job ∧ (holdOne f rid s).chans = s.chans ∧
    (holdOne f rid s).plots = s.plots ∧ (holdOne f rid s).grid = s.grid ∧ (holdOne f rid s).bridges = s.bridges ∧ (holdOne f rid s).hbm = s.hbm ∧
    (holdOne f rid s).links = s.links ∧ (holdOne f rid s).mesh = s.mesh ∧ (holdOne f rid s).test = s.test ∧ (holdOne f rid s).health = s.health ∧
    (holdOne f rid s).free = s.free := by
  unfold holdOne
  simp

@[simp] theorem freeOne_keeps (f rid : Nat) (s : State) : (freeOne f rid s).pending = s.pending ∧ (freeOne f rid s).pins = s.pins ∧ (freeOne f rid
    s).ctl = s.ctl ∧ (freeOne f rid s).pwr = s.pwr ∧ (freeOne f rid s).otp = s.otp ∧ (freeOne f rid s).flash = s.flash ∧ (freeOne f rid s).gateh =
    s.gateh ∧ (freeOne f rid s).mbx = s.mbx ∧ (freeOne f rid s).evt = s.evt ∧ (freeOne f rid s).job = s.job ∧ (freeOne f rid s).chans = s.chans ∧
    (freeOne f rid s).plots = s.plots ∧ (freeOne f rid s).grid = s.grid ∧ (freeOne f rid s).bridges = s.bridges ∧ (freeOne f rid s).hbm = s.hbm ∧
    (freeOne f rid s).links = s.links ∧ (freeOne f rid s).mesh = s.mesh ∧ (freeOne f rid s).test = s.test ∧ (freeOne f rid s).health = s.health ∧
    (freeOne f rid s).free = s.free := by
  unfold freeOne
  simp

@[simp] theorem landCommit_keeps (f c : Nat) (failed : Bool) (s : State) : (landCommit f c failed s).pending = s.pending ∧ (landCommit f c failed
    s).pins = s.pins ∧ (landCommit f c failed s).ctl = s.ctl ∧ (landCommit f c failed s).pwr = s.pwr ∧ (landCommit f c failed s).otp = s.otp ∧
    (landCommit f c failed s).flash = s.flash ∧ (landCommit f c failed s).gateh = s.gateh ∧ (landCommit f c failed s).mbx = s.mbx ∧ (landCommit f c
    failed s).evt = s.evt ∧ (landCommit f c failed s).job = s.job ∧ (landCommit f c failed s).chans = s.chans ∧ (landCommit f c failed s).plots =
    s.plots ∧ (landCommit f c failed s).grid = s.grid ∧ (landCommit f c failed s).bridges = s.bridges ∧ (landCommit f c failed s).hbm = s.hbm ∧
    (landCommit f c failed s).links = s.links ∧ (landCommit f c failed s).mesh = s.mesh ∧ (landCommit f c failed s).test = s.test ∧ (landCommit f c
    failed s).health = s.health ∧ (landCommit f c failed s).free = s.free := by
  unfold landCommit
  simp

@[simp] theorem endAccess_keeps (f rid : Nat) (data : List Byte) (failed : Bool) (s : State) : (endAccess f rid data failed s).pending = s.pending ∧
    (endAccess f rid data failed s).pins = s.pins ∧ (endAccess f rid data failed s).ctl = s.ctl ∧ (endAccess f rid data failed s).pwr = s.pwr ∧
    (endAccess f rid data failed s).otp = s.otp ∧ (endAccess f rid data failed s).mbx = s.mbx ∧ (endAccess f rid data failed s).job = s.job ∧
    (endAccess f rid data failed s).chans = s.chans ∧ (endAccess f rid data failed s).grid = s.grid ∧ (endAccess f rid data failed s).bridges =
    s.bridges ∧ (endAccess f rid data failed s).hbm = s.hbm ∧ (endAccess f rid data failed s).links = s.links ∧ (endAccess f rid data failed s).mesh
    = s.mesh ∧ (endAccess f rid data failed s).test = s.test ∧ (endAccess f rid data failed s).health = s.health ∧ (endAccess f rid data failed
    s).free = s.free := by
  unfold endAccess
  (repeat' split) <;> simp

@[simp] theorem answerAccess_keeps (f rid p i : Nat) (data : List Byte) (failed : Bool) (s : State) : (answerAccess f rid p i data failed s).pending
    = s.pending ∧ (answerAccess f rid p i data failed s).pins = s.pins ∧ (answerAccess f rid p i data failed s).ctl = s.ctl ∧ (answerAccess f rid p
    i data failed s).pwr = s.pwr ∧ (answerAccess f rid p i data failed s).otp = s.otp ∧ (answerAccess f rid p i data failed s).mbx = s.mbx ∧
    (answerAccess f rid p i data failed s).job = s.job ∧ (answerAccess f rid p i data failed s).chans = s.chans ∧ (answerAccess f rid p i data
    failed s).bridges = s.bridges ∧ (answerAccess f rid p i data failed s).hbm = s.hbm ∧ (answerAccess f rid p i data failed s).links = s.links ∧
    (answerAccess f rid p i data failed s).mesh = s.mesh ∧ (answerAccess f rid p i data failed s).test = s.test ∧ (answerAccess f rid p i data
    failed s).health = s.health ∧ (answerAccess f rid p i data failed s).free = s.free := by
  unfold answerAccess
  (repeat' split) <;> simp

@[simp] theorem failAccess_keeps (f rid : Nat) (s : State) : (failAccess f rid s).pending = s.pending ∧ (failAccess f rid s).pins = s.pins ∧
    (failAccess f rid s).ctl = s.ctl ∧ (failAccess f rid s).pwr = s.pwr ∧ (failAccess f rid s).otp = s.otp ∧ (failAccess f rid s).mbx = s.mbx ∧
    (failAccess f rid s).job = s.job ∧ (failAccess f rid s).chans = s.chans ∧ (failAccess f rid s).grid = s.grid ∧ (failAccess f rid s).bridges =
    s.bridges ∧ (failAccess f rid s).hbm = s.hbm ∧ (failAccess f rid s).links = s.links ∧ (failAccess f rid s).mesh = s.mesh ∧ (failAccess f rid
    s).test = s.test ∧ (failAccess f rid s).health = s.health ∧ (failAccess f rid s).free = s.free := by
  unfold failAccess
  simp

@[simp] theorem landRemote_keeps (tag : Nat) (data : Option (List Byte)) (poisoned failed : Bool) (s : State) : (landRemote tag data poisoned failed
    s).pending = s.pending ∧ (landRemote tag data poisoned failed s).pins = s.pins ∧ (landRemote tag data poisoned failed s).ctl = s.ctl ∧
    (landRemote tag data poisoned failed s).pwr = s.pwr ∧ (landRemote tag data poisoned failed s).otp = s.otp ∧ (landRemote tag data poisoned failed
    s).mbx = s.mbx ∧ (landRemote tag data poisoned failed s).job = s.job ∧ (landRemote tag data poisoned failed s).chans = s.chans ∧ (landRemote tag
    data poisoned failed s).grid = s.grid ∧ (landRemote tag data poisoned failed s).bridges = s.bridges ∧ (landRemote tag data poisoned failed
    s).hbm = s.hbm ∧ (landRemote tag data poisoned failed s).links = s.links ∧ (landRemote tag data poisoned failed s).test = s.test ∧ (landRemote
    tag data poisoned failed s).health = s.health ∧ (landRemote tag data poisoned failed s).free = s.free := by
  unfold landRemote
  (repeat' split) <;> simp

@[simp] theorem answerRemote_keeps (tag : Nat) (data : Option (List Byte)) (poisoned failed : Bool) (s : State) : (answerRemote tag data poisoned
    failed s).pending = s.pending ∧ (answerRemote tag data poisoned failed s).pins = s.pins ∧ (answerRemote tag data poisoned failed s).ctl = s.ctl
    ∧ (answerRemote tag data poisoned failed s).pwr = s.pwr ∧ (answerRemote tag data poisoned failed s).otp = s.otp ∧ (answerRemote tag data
    poisoned failed s).mbx = s.mbx ∧ (answerRemote tag data poisoned failed s).job = s.job ∧ (answerRemote tag data poisoned failed s).chans =
    s.chans ∧ (answerRemote tag data poisoned failed s).bridges = s.bridges ∧ (answerRemote tag data poisoned failed s).hbm = s.hbm ∧ (answerRemote
    tag data poisoned failed s).links = s.links ∧ (answerRemote tag data poisoned failed s).test = s.test ∧ (answerRemote tag data poisoned failed
    s).health = s.health ∧ (answerRemote tag data poisoned failed s).free = s.free := by
  unfold answerRemote
  (repeat' split) <;> simp

@[simp] theorem failRemote_keeps (tag : Nat) (s : State) : (failRemote tag s).pending = s.pending ∧ (failRemote tag s).pins = s.pins ∧ (failRemote
    tag s).ctl = s.ctl ∧ (failRemote tag s).pwr = s.pwr ∧ (failRemote tag s).otp = s.otp ∧ (failRemote tag s).mbx = s.mbx ∧ (failRemote tag s).job =
    s.job ∧ (failRemote tag s).chans = s.chans ∧ (failRemote tag s).bridges = s.bridges ∧ (failRemote tag s).hbm = s.hbm ∧ (failRemote tag s).links
    = s.links ∧ (failRemote tag s).test = s.test ∧ (failRemote tag s).health = s.health ∧ (failRemote tag s).free = s.free := by
  unfold failRemote
  simp

/-! ## Ports -/

@[simp] theorem notePort_keeps (i : Nat) (s : State) : (notePort i s).pending = s.pending ∧ (notePort i s).pins = s.pins ∧ (notePort i s).ctl =
    s.ctl ∧ (notePort i s).pwr = s.pwr ∧ (notePort i s).otp = s.otp ∧ (notePort i s).gateh = s.gateh ∧ (notePort i s).mbx = s.mbx ∧ (notePort i
    s).job = s.job ∧ (notePort i s).chans = s.chans ∧ (notePort i s).plots = s.plots ∧ (notePort i s).flds = s.flds ∧ (notePort i s).grid = s.grid ∧
    (notePort i s).bridges = s.bridges ∧ (notePort i s).hbm = s.hbm ∧ (notePort i s).links = s.links ∧ (notePort i s).mesh = s.mesh ∧ (notePort i
    s).test = s.test ∧ (notePort i s).health = s.health ∧ (notePort i s).free = s.free := by
  unfold notePort
  simp

@[simp] theorem freeBuffers_keeps (i cls n : Nat) (s : State) : (freeBuffers i cls n s).pending = s.pending ∧ (freeBuffers i cls n s).pins = s.pins
    ∧ (freeBuffers i cls n s).ctl = s.ctl ∧ (freeBuffers i cls n s).pwr = s.pwr ∧ (freeBuffers i cls n s).otp = s.otp ∧ (freeBuffers i cls n
    s).flash = s.flash ∧ (freeBuffers i cls n s).gateh = s.gateh ∧ (freeBuffers i cls n s).mbx = s.mbx ∧ (freeBuffers i cls n s).evt = s.evt ∧
    (freeBuffers i cls n s).job = s.job ∧ (freeBuffers i cls n s).chans = s.chans ∧ (freeBuffers i cls n s).plots = s.plots ∧ (freeBuffers i cls n
    s).flds = s.flds ∧ (freeBuffers i cls n s).grid = s.grid ∧ (freeBuffers i cls n s).bridges = s.bridges ∧ (freeBuffers i cls n s).hbm = s.hbm ∧
    (freeBuffers i cls n s).mesh = s.mesh ∧ (freeBuffers i cls n s).test = s.test ∧ (freeBuffers i cls n s).health = s.health ∧ (freeBuffers i cls n
    s).free = s.free := by
  unfold freeBuffers
  simp

@[simp] theorem drainPort_keeps (i : Nat) (s : State) : (drainPort i s).pending = s.pending ∧ (drainPort i s).pins = s.pins ∧ (drainPort i s).ctl =
    s.ctl ∧ (drainPort i s).pwr = s.pwr ∧ (drainPort i s).otp = s.otp ∧ (drainPort i s).flash = s.flash ∧ (drainPort i s).gateh = s.gateh ∧
    (drainPort i s).mbx = s.mbx ∧ (drainPort i s).evt = s.evt ∧ (drainPort i s).job = s.job ∧ (drainPort i s).chans = s.chans ∧ (drainPort i
    s).plots = s.plots ∧ (drainPort i s).flds = s.flds ∧ (drainPort i s).grid = s.grid ∧ (drainPort i s).bridges = s.bridges ∧ (drainPort i s).hbm =
    s.hbm ∧ (drainPort i s).mesh = s.mesh ∧ (drainPort i s).test = s.test ∧ (drainPort i s).health = s.health ∧ (drainPort i s).free = s.free := by
  unfold drainPort
  simp

@[simp] theorem queueItem_keeps (i : Nat) (source : Option Nat) (item : OutItem) (s : State) : (queueItem i source item s).pending = s.pending ∧
    (queueItem i source item s).pins = s.pins ∧ (queueItem i source item s).ctl = s.ctl ∧ (queueItem i source item s).pwr = s.pwr ∧ (queueItem i
    source item s).otp = s.otp ∧ (queueItem i source item s).flash = s.flash ∧ (queueItem i source item s).gateh = s.gateh ∧ (queueItem i source
    item s).mbx = s.mbx ∧ (queueItem i source item s).evt = s.evt ∧ (queueItem i source item s).job = s.job ∧ (queueItem i source item s).chans =
    s.chans ∧ (queueItem i source item s).plots = s.plots ∧ (queueItem i source item s).flds = s.flds ∧ (queueItem i source item s).grid = s.grid ∧
    (queueItem i source item s).bridges = s.bridges ∧ (queueItem i source item s).hbm = s.hbm ∧ (queueItem i source item s).mesh = s.mesh ∧
    (queueItem i source item s).test = s.test ∧ (queueItem i source item s).health = s.health ∧ (queueItem i source item s).free = s.free := by
  unfold queueItem
  simp

@[simp] theorem sendItem_keeps (i : Nat) (item : OutItem) (s : State) : (sendItem i item s).pending = s.pending ∧ (sendItem i item s).pins = s.pins
    ∧ (sendItem i item s).ctl = s.ctl ∧ (sendItem i item s).pwr = s.pwr ∧ (sendItem i item s).otp = s.otp ∧ (sendItem i item s).flash = s.flash ∧
    (sendItem i item s).gateh = s.gateh ∧ (sendItem i item s).mbx = s.mbx ∧ (sendItem i item s).evt = s.evt ∧ (sendItem i item s).job = s.job ∧
    (sendItem i item s).chans = s.chans ∧ (sendItem i item s).plots = s.plots ∧ (sendItem i item s).flds = s.flds ∧ (sendItem i item s).grid =
    s.grid ∧ (sendItem i item s).bridges = s.bridges ∧ (sendItem i item s).hbm = s.hbm ∧ (sendItem i item s).mesh = s.mesh ∧ (sendItem i item
    s).test = s.test ∧ (sendItem i item s).health = s.health ∧ (sendItem i item s).free = s.free := by
  unfold sendItem
  simp

@[simp] theorem sendFrame_keeps (i code : Nat) (content : List Nat) (s : State) : (sendFrame i code content s).pending = s.pending ∧ (sendFrame i
    code content s).pins = s.pins ∧ (sendFrame i code content s).ctl = s.ctl ∧ (sendFrame i code content s).pwr = s.pwr ∧ (sendFrame i code content
    s).otp = s.otp ∧ (sendFrame i code content s).flash = s.flash ∧ (sendFrame i code content s).gateh = s.gateh ∧ (sendFrame i code content s).mbx
    = s.mbx ∧ (sendFrame i code content s).evt = s.evt ∧ (sendFrame i code content s).job = s.job ∧ (sendFrame i code content s).chans = s.chans ∧
    (sendFrame i code content s).plots = s.plots ∧ (sendFrame i code content s).flds = s.flds ∧ (sendFrame i code content s).grid = s.grid ∧
    (sendFrame i code content s).bridges = s.bridges ∧ (sendFrame i code content s).hbm = s.hbm ∧ (sendFrame i code content s).mesh = s.mesh ∧
    (sendFrame i code content s).test = s.test ∧ (sendFrame i code content s).health = s.health ∧ (sendFrame i code content s).free = s.free := by
  unfold sendFrame
  (repeat' split) <;> simp

@[simp] theorem noRoute_keeps (at_ d : Nat) (s : State) : (noRoute at_ d s).pending = s.pending ∧ (noRoute at_ d s).pins = s.pins ∧ (noRoute at_ d
    s).ctl = s.ctl ∧ (noRoute at_ d s).pwr = s.pwr ∧ (noRoute at_ d s).otp = s.otp ∧ (noRoute at_ d s).gateh = s.gateh ∧ (noRoute at_ d s).mbx =
    s.mbx ∧ (noRoute at_ d s).job = s.job ∧ (noRoute at_ d s).chans = s.chans ∧ (noRoute at_ d s).plots = s.plots ∧ (noRoute at_ d s).flds = s.flds
    ∧ (noRoute at_ d s).grid = s.grid ∧ (noRoute at_ d s).bridges = s.bridges ∧ (noRoute at_ d s).hbm = s.hbm ∧ (noRoute at_ d s).test = s.test ∧
    (noRoute at_ d s).health = s.health ∧ (noRoute at_ d s).free = s.free := by
  unfold noRoute
  dsimp only
  (repeat' split) <;> simp

@[simp] theorem carryOut_pending (f : Nat) (site : Site) (cls : Nat) (p : Pkt) (cargo : Cargo) (deliver : State → State) (s : State) (h1 : ∀ t,
    (deliver t).pending = t.pending) : (carryOut f site cls p cargo deliver s).pending = s.pending := by
  unfold carryOut
  (repeat' split) <;> simp [h1]

@[simp] theorem carryOut_pins (f : Nat) (site : Site) (cls : Nat) (p : Pkt) (cargo : Cargo) (deliver : State → State) (s : State) (h1 : ∀ t,
    (deliver t).pins = t.pins) : (carryOut f site cls p cargo deliver s).pins = s.pins := by
  unfold carryOut
  (repeat' split) <;> simp [h1]

@[simp] theorem carryOut_ctl (f : Nat) (site : Site) (cls : Nat) (p : Pkt) (cargo : Cargo) (deliver : State → State) (s : State) (h1 : ∀ t, (deliver
    t).ctl = t.ctl) : (carryOut f site cls p cargo deliver s).ctl = s.ctl := by
  unfold carryOut
  (repeat' split) <;> simp [h1]

@[simp] theorem carryOut_pwr (f : Nat) (site : Site) (cls : Nat) (p : Pkt) (cargo : Cargo) (deliver : State → State) (s : State) (h1 : ∀ t, (deliver
    t).pwr = t.pwr) : (carryOut f site cls p cargo deliver s).pwr = s.pwr := by
  unfold carryOut
  (repeat' split) <;> simp [h1]

@[simp] theorem carryOut_otp (f : Nat) (site : Site) (cls : Nat) (p : Pkt) (cargo : Cargo) (deliver : State → State) (s : State) (h1 : ∀ t, (deliver
    t).otp = t.otp) : (carryOut f site cls p cargo deliver s).otp = s.otp := by
  unfold carryOut
  (repeat' split) <;> simp [h1]

@[simp] theorem carryOut_flash (f : Nat) (site : Site) (cls : Nat) (p : Pkt) (cargo : Cargo) (deliver : State → State) (s : State) (h1 : ∀ t,
    (deliver t).flash = t.flash) : (carryOut f site cls p cargo deliver s).flash = s.flash := by
  unfold carryOut
  (repeat' split) <;> simp [h1]

@[simp] theorem carryOut_gateh (f : Nat) (site : Site) (cls : Nat) (p : Pkt) (cargo : Cargo) (deliver : State → State) (s : State) (h1 : ∀ t,
    (deliver t).gateh = t.gateh) : (carryOut f site cls p cargo deliver s).gateh = s.gateh := by
  unfold carryOut
  (repeat' split) <;> simp [h1]

@[simp] theorem carryOut_mbx (f : Nat) (site : Site) (cls : Nat) (p : Pkt) (cargo : Cargo) (deliver : State → State) (s : State) (h1 : ∀ t, (deliver
    t).mbx = t.mbx) : (carryOut f site cls p cargo deliver s).mbx = s.mbx := by
  unfold carryOut
  (repeat' split) <;> simp [h1]

@[simp] theorem carryOut_evt (f : Nat) (site : Site) (cls : Nat) (p : Pkt) (cargo : Cargo) (deliver : State → State) (s : State) (h1 : ∀ t, (deliver
    t).evt = t.evt) : (carryOut f site cls p cargo deliver s).evt = s.evt := by
  unfold carryOut
  (repeat' split) <;> simp [h1]

@[simp] theorem carryOut_job (f : Nat) (site : Site) (cls : Nat) (p : Pkt) (cargo : Cargo) (deliver : State → State) (s : State) (h1 : ∀ t, (deliver
    t).job = t.job) : (carryOut f site cls p cargo deliver s).job = s.job := by
  unfold carryOut
  (repeat' split) <;> simp [h1]

@[simp] theorem carryOut_chans (f : Nat) (site : Site) (cls : Nat) (p : Pkt) (cargo : Cargo) (deliver : State → State) (s : State) (h1 : ∀ t,
    (deliver t).chans = t.chans) : (carryOut f site cls p cargo deliver s).chans = s.chans := by
  unfold carryOut
  (repeat' split) <;> simp [h1]

@[simp] theorem carryOut_plots (f : Nat) (site : Site) (cls : Nat) (p : Pkt) (cargo : Cargo) (deliver : State → State) (s : State) (h1 : ∀ t,
    (deliver t).plots = t.plots) : (carryOut f site cls p cargo deliver s).plots = s.plots := by
  unfold carryOut
  (repeat' split) <;> simp [h1]

@[simp] theorem carryOut_flds (f : Nat) (site : Site) (cls : Nat) (p : Pkt) (cargo : Cargo) (deliver : State → State) (s : State) (h1 : ∀ t,
    (deliver t).flds = t.flds) : (carryOut f site cls p cargo deliver s).flds = s.flds := by
  unfold carryOut
  (repeat' split) <;> simp [h1]

@[simp] theorem carryOut_bridges (f : Nat) (site : Site) (cls : Nat) (p : Pkt) (cargo : Cargo) (deliver : State → State) (s : State) (h1 : ∀ t,
    (deliver t).bridges = t.bridges) : (carryOut f site cls p cargo deliver s).bridges = s.bridges := by
  unfold carryOut
  (repeat' split) <;> simp [h1]

@[simp] theorem carryOut_hbm (f : Nat) (site : Site) (cls : Nat) (p : Pkt) (cargo : Cargo) (deliver : State → State) (s : State) (h1 : ∀ t, (deliver
    t).hbm = t.hbm) : (carryOut f site cls p cargo deliver s).hbm = s.hbm := by
  unfold carryOut
  (repeat' split) <;> simp [h1]

@[simp] theorem carryOut_links (f : Nat) (site : Site) (cls : Nat) (p : Pkt) (cargo : Cargo) (deliver : State → State) (s : State) (h1 : ∀ t,
    (deliver t).links = t.links) : (carryOut f site cls p cargo deliver s).links = s.links := by
  unfold carryOut
  (repeat' split) <;> simp [h1]

@[simp] theorem carryOut_mesh (f : Nat) (site : Site) (cls : Nat) (p : Pkt) (cargo : Cargo) (deliver : State → State) (s : State) (h1 : ∀ t,
    (deliver t).mesh = t.mesh) : (carryOut f site cls p cargo deliver s).mesh = s.mesh := by
  unfold carryOut
  (repeat' split) <;> simp [h1]

@[simp] theorem carryOut_test (f : Nat) (site : Site) (cls : Nat) (p : Pkt) (cargo : Cargo) (deliver : State → State) (s : State) (h1 : ∀ t,
    (deliver t).test = t.test) : (carryOut f site cls p cargo deliver s).test = s.test := by
  unfold carryOut
  (repeat' split) <;> simp [h1]

@[simp] theorem carryOut_health (f : Nat) (site : Site) (cls : Nat) (p : Pkt) (cargo : Cargo) (deliver : State → State) (s : State) (h1 : ∀ t,
    (deliver t).health = t.health) : (carryOut f site cls p cargo deliver s).health = s.health := by
  unfold carryOut
  (repeat' split) <;> simp [h1]

@[simp] theorem carryOut_free (f : Nat) (site : Site) (cls : Nat) (p : Pkt) (cargo : Cargo) (deliver : State → State) (s : State) (h1 : ∀ t,
    (deliver t).free = t.free) : (carryOut f site cls p cargo deliver s).free = s.free := by
  unfold carryOut
  (repeat' split) <;> simp [h1]

@[simp] theorem dropBuffers_keeps (source : Option Nat) (cls n : Nat) (s : State) : (dropBuffers source cls n s).pending = s.pending ∧ (dropBuffers
    source cls n s).pins = s.pins ∧ (dropBuffers source cls n s).ctl = s.ctl ∧ (dropBuffers source cls n s).pwr = s.pwr ∧ (dropBuffers source cls n
    s).otp = s.otp ∧ (dropBuffers source cls n s).flash = s.flash ∧ (dropBuffers source cls n s).gateh = s.gateh ∧ (dropBuffers source cls n s).mbx
    = s.mbx ∧ (dropBuffers source cls n s).evt = s.evt ∧ (dropBuffers source cls n s).job = s.job ∧ (dropBuffers source cls n s).chans = s.chans ∧
    (dropBuffers source cls n s).plots = s.plots ∧ (dropBuffers source cls n s).flds = s.flds ∧ (dropBuffers source cls n s).grid = s.grid ∧
    (dropBuffers source cls n s).bridges = s.bridges ∧ (dropBuffers source cls n s).hbm = s.hbm ∧ (dropBuffers source cls n s).mesh = s.mesh ∧
    (dropBuffers source cls n s).test = s.test ∧ (dropBuffers source cls n s).health = s.health ∧ (dropBuffers source cls n s).free = s.free := by
  unfold dropBuffers
  (repeat' split) <;> simp

@[simp] theorem routePkt_keeps (at_ : Nat) (source : Option Nat) (p : Pkt) (s : State) : (routePkt at_ source p s).pending = s.pending ∧ (routePkt
    at_ source p s).pins = s.pins ∧ (routePkt at_ source p s).ctl = s.ctl ∧ (routePkt at_ source p s).pwr = s.pwr ∧ (routePkt at_ source p s).otp =
    s.otp ∧ (routePkt at_ source p s).gateh = s.gateh ∧ (routePkt at_ source p s).mbx = s.mbx ∧ (routePkt at_ source p s).job = s.job ∧ (routePkt
    at_ source p s).chans = s.chans ∧ (routePkt at_ source p s).plots = s.plots ∧ (routePkt at_ source p s).flds = s.flds ∧ (routePkt at_ source p
    s).grid = s.grid ∧ (routePkt at_ source p s).bridges = s.bridges ∧ (routePkt at_ source p s).hbm = s.hbm ∧ (routePkt at_ source p s).test =
    s.test ∧ (routePkt at_ source p s).health = s.health ∧ (routePkt at_ source p s).free = s.free := by
  unfold routePkt
  (repeat' split) <;> simp

@[simp] theorem sendPkt_keeps (at_ : Nat) (p : Pkt) (s : State) : (sendPkt at_ p s).pending = s.pending ∧ (sendPkt at_ p s).pins = s.pins ∧ (sendPkt
    at_ p s).ctl = s.ctl ∧ (sendPkt at_ p s).pwr = s.pwr ∧ (sendPkt at_ p s).otp = s.otp ∧ (sendPkt at_ p s).gateh = s.gateh ∧ (sendPkt at_ p s).mbx
    = s.mbx ∧ (sendPkt at_ p s).job = s.job ∧ (sendPkt at_ p s).chans = s.chans ∧ (sendPkt at_ p s).plots = s.plots ∧ (sendPkt at_ p s).flds =
    s.flds ∧ (sendPkt at_ p s).grid = s.grid ∧ (sendPkt at_ p s).bridges = s.bridges ∧ (sendPkt at_ p s).hbm = s.hbm ∧ (sendPkt at_ p s).test =
    s.test ∧ (sendPkt at_ p s).health = s.health ∧ (sendPkt at_ p s).free = s.free := by
  unfold sendPkt
  simp

@[simp] theorem sendCtl_keeps (ptype dest : Nat) (content : List Nat) (s : State) : (sendCtl ptype dest content s).pending = s.pending ∧ (sendCtl
    ptype dest content s).pins = s.pins ∧ (sendCtl ptype dest content s).ctl = s.ctl ∧ (sendCtl ptype dest content s).pwr = s.pwr ∧ (sendCtl ptype
    dest content s).otp = s.otp ∧ (sendCtl ptype dest content s).gateh = s.gateh ∧ (sendCtl ptype dest content s).mbx = s.mbx ∧ (sendCtl ptype dest
    content s).job = s.job ∧ (sendCtl ptype dest content s).chans = s.chans ∧ (sendCtl ptype dest content s).plots = s.plots ∧ (sendCtl ptype dest
    content s).flds = s.flds ∧ (sendCtl ptype dest content s).grid = s.grid ∧ (sendCtl ptype dest content s).bridges = s.bridges ∧ (sendCtl ptype
    dest content s).hbm = s.hbm ∧ (sendCtl ptype dest content s).test = s.test ∧ (sendCtl ptype dest content s).health = s.health ∧ (sendCtl ptype
    dest content s).free = s.free := by
  unfold sendCtl
  (repeat' split) <;> simp

@[simp] theorem sendEnum_keeps (path content : List Nat) (s : State) : (sendEnum path content s).pending = s.pending ∧ (sendEnum path content
    s).pins = s.pins ∧ (sendEnum path content s).ctl = s.ctl ∧ (sendEnum path content s).pwr = s.pwr ∧ (sendEnum path content s).otp = s.otp ∧
    (sendEnum path content s).flash = s.flash ∧ (sendEnum path content s).gateh = s.gateh ∧ (sendEnum path content s).mbx = s.mbx ∧ (sendEnum path
    content s).evt = s.evt ∧ (sendEnum path content s).job = s.job ∧ (sendEnum path content s).chans = s.chans ∧ (sendEnum path content s).plots =
    s.plots ∧ (sendEnum path content s).flds = s.flds ∧ (sendEnum path content s).grid = s.grid ∧ (sendEnum path content s).bridges = s.bridges ∧
    (sendEnum path content s).hbm = s.hbm ∧ (sendEnum path content s).mesh = s.mesh ∧ (sendEnum path content s).test = s.test ∧ (sendEnum path
    content s).health = s.health ∧ (sendEnum path content s).free = s.free := by
  unfold sendEnum
  (repeat' split) <;> simp

@[simp] theorem routeAgain_keeps (i : Nat) (e : QItem) (s : State) : (routeAgain i e s).pending = s.pending ∧ (routeAgain i e s).pins = s.pins ∧
    (routeAgain i e s).ctl = s.ctl ∧ (routeAgain i e s).pwr = s.pwr ∧ (routeAgain i e s).otp = s.otp ∧ (routeAgain i e s).gateh = s.gateh ∧
    (routeAgain i e s).mbx = s.mbx ∧ (routeAgain i e s).job = s.job ∧ (routeAgain i e s).chans = s.chans ∧ (routeAgain i e s).plots = s.plots ∧
    (routeAgain i e s).flds = s.flds ∧ (routeAgain i e s).grid = s.grid ∧ (routeAgain i e s).bridges = s.bridges ∧ (routeAgain i e s).hbm = s.hbm ∧
    (routeAgain i e s).test = s.test ∧ (routeAgain i e s).health = s.health ∧ (routeAgain i e s).free = s.free := by
  unfold routeAgain
  (repeat' split) <;> simp

@[simp] theorem clearQueue_keeps (i : Nat) (p : Port) (s : State) : (clearQueue i p s).pending = s.pending ∧ (clearQueue i p s).pins = s.pins ∧
    (clearQueue i p s).ctl = s.ctl ∧ (clearQueue i p s).pwr = s.pwr ∧ (clearQueue i p s).otp = s.otp ∧ (clearQueue i p s).mbx = s.mbx ∧ (clearQueue
    i p s).job = s.job ∧ (clearQueue i p s).chans = s.chans ∧ (clearQueue i p s).bridges = s.bridges ∧ (clearQueue i p s).hbm = s.hbm ∧ (clearQueue
    i p s).test = s.test ∧ (clearQueue i p s).health = s.health ∧ (clearQueue i p s).free = s.free := by
  unfold clearQueue
  simp

@[simp] theorem distrust_keeps (i : Nat) (s : State) : (distrust i s).pending = s.pending ∧ (distrust i s).pins = s.pins ∧ (distrust i s).ctl =
    s.ctl ∧ (distrust i s).pwr = s.pwr ∧ (distrust i s).otp = s.otp ∧ (distrust i s).gateh = s.gateh ∧ (distrust i s).mbx = s.mbx ∧ (distrust i
    s).evt = s.evt ∧ (distrust i s).job = s.job ∧ (distrust i s).chans = s.chans ∧ (distrust i s).plots = s.plots ∧ (distrust i s).flds = s.flds ∧
    (distrust i s).grid = s.grid ∧ (distrust i s).bridges = s.bridges ∧ (distrust i s).hbm = s.hbm ∧ (distrust i s).links = s.links ∧ (distrust i
    s).mesh = s.mesh ∧ (distrust i s).test = s.test ∧ (distrust i s).health = s.health ∧ (distrust i s).free = s.free := by
  unfold distrust
  simp

@[simp] theorem portDown_keeps (i reason : Nat) (s : State) : (portDown i reason s).pending = s.pending ∧ (portDown i reason s).pins = s.pins ∧
    (portDown i reason s).ctl = s.ctl ∧ (portDown i reason s).pwr = s.pwr ∧ (portDown i reason s).otp = s.otp ∧ (portDown i reason s).mbx = s.mbx ∧
    (portDown i reason s).job = s.job ∧ (portDown i reason s).chans = s.chans ∧ (portDown i reason s).bridges = s.bridges ∧ (portDown i reason
    s).hbm = s.hbm ∧ (portDown i reason s).test = s.test ∧ (portDown i reason s).health = s.health ∧ (portDown i reason s).free = s.free := by
  unfold portDown
  dsimp only
  (repeat' split) <;> simp

@[simp] theorem resend_keeps (port : Nat) (s : State) : (resend port s).pending = s.pending ∧ (resend port s).pins = s.pins ∧ (resend port s).ctl =
    s.ctl ∧ (resend port s).pwr = s.pwr ∧ (resend port s).otp = s.otp ∧ (resend port s).mbx = s.mbx ∧ (resend port s).job = s.job ∧ (resend port
    s).chans = s.chans ∧ (resend port s).bridges = s.bridges ∧ (resend port s).hbm = s.hbm ∧ (resend port s).test = s.test ∧ (resend port s).health
    = s.health ∧ (resend port s).free = s.free := by
  unfold resend
  (repeat' split) <;> simp

@[simp] theorem replayLost_keeps (i : Nat) (s : State) : (replayLost i s).pending = s.pending ∧ (replayLost i s).pins = s.pins ∧ (replayLost i
    s).ctl = s.ctl ∧ (replayLost i s).pwr = s.pwr ∧ (replayLost i s).otp = s.otp ∧ (replayLost i s).mbx = s.mbx ∧ (replayLost i s).job = s.job ∧
    (replayLost i s).chans = s.chans ∧ (replayLost i s).bridges = s.bridges ∧ (replayLost i s).hbm = s.hbm ∧ (replayLost i s).test = s.test ∧
    (replayLost i s).health = s.health ∧ (replayLost i s).free = s.free := by
  unfold replayLost
  (repeat' split) <;> simp

@[simp] theorem narrow_keeps (i : Nat) (s : State) : (narrow i s).pending = s.pending ∧ (narrow i s).pins = s.pins ∧ (narrow i s).ctl = s.ctl ∧
    (narrow i s).pwr = s.pwr ∧ (narrow i s).otp = s.otp ∧ (narrow i s).mbx = s.mbx ∧ (narrow i s).job = s.job ∧ (narrow i s).chans = s.chans ∧
    (narrow i s).bridges = s.bridges ∧ (narrow i s).hbm = s.hbm ∧ (narrow i s).test = s.test ∧ (narrow i s).health = s.health ∧ (narrow i s).free =
    s.free := by
  unfold narrow
  dsimp only
  (repeat' split) <;> simp

/-! ## Groups -/

@[simp] theorem updMember_keeps (m : Nat) (g : Member → Member) (s : State) : (updMember m g s).pending = s.pending ∧ (updMember m g s).pins =
    s.pins ∧ (updMember m g s).ctl = s.ctl ∧ (updMember m g s).pwr = s.pwr ∧ (updMember m g s).otp = s.otp ∧ (updMember m g s).flash = s.flash ∧
    (updMember m g s).gateh = s.gateh ∧ (updMember m g s).mbx = s.mbx ∧ (updMember m g s).evt = s.evt ∧ (updMember m g s).job = s.job ∧ (updMember m
    g s).chans = s.chans ∧ (updMember m g s).plots = s.plots ∧ (updMember m g s).flds = s.flds ∧ (updMember m g s).grid = s.grid ∧ (updMember m g
    s).bridges = s.bridges ∧ (updMember m g s).hbm = s.hbm ∧ (updMember m g s).links = s.links ∧ (updMember m g s).test = s.test ∧ (updMember m g
    s).health = s.health ∧ (updMember m g s).free = s.free := by
  unfold updMember
  simp

@[simp] theorem addLink_keeps (m p k : Nat) (s : State) : (addLink m p k s).pending = s.pending ∧ (addLink m p k s).pins = s.pins ∧ (addLink m p k
    s).ctl = s.ctl ∧ (addLink m p k s).pwr = s.pwr ∧ (addLink m p k s).otp = s.otp ∧ (addLink m p k s).flash = s.flash ∧ (addLink m p k s).gateh =
    s.gateh ∧ (addLink m p k s).mbx = s.mbx ∧ (addLink m p k s).evt = s.evt ∧ (addLink m p k s).job = s.job ∧ (addLink m p k s).chans = s.chans ∧
    (addLink m p k s).plots = s.plots ∧ (addLink m p k s).flds = s.flds ∧ (addLink m p k s).grid = s.grid ∧ (addLink m p k s).bridges = s.bridges ∧
    (addLink m p k s).hbm = s.hbm ∧ (addLink m p k s).links = s.links ∧ (addLink m p k s).test = s.test ∧ (addLink m p k s).health = s.health ∧
    (addLink m p k s).free = s.free := by
  unfold addLink
  simp

@[simp] theorem dropLink_keeps (m p : Nat) (s : State) : (dropLink m p s).pending = s.pending ∧ (dropLink m p s).pins = s.pins ∧ (dropLink m p
    s).ctl = s.ctl ∧ (dropLink m p s).pwr = s.pwr ∧ (dropLink m p s).otp = s.otp ∧ (dropLink m p s).flash = s.flash ∧ (dropLink m p s).gateh =
    s.gateh ∧ (dropLink m p s).mbx = s.mbx ∧ (dropLink m p s).evt = s.evt ∧ (dropLink m p s).job = s.job ∧ (dropLink m p s).chans = s.chans ∧
    (dropLink m p s).plots = s.plots ∧ (dropLink m p s).flds = s.flds ∧ (dropLink m p s).grid = s.grid ∧ (dropLink m p s).bridges = s.bridges ∧
    (dropLink m p s).hbm = s.hbm ∧ (dropLink m p s).links = s.links ∧ (dropLink m p s).test = s.test ∧ (dropLink m p s).health = s.health ∧
    (dropLink m p s).free = s.free := by
  unfold dropLink
  simp

@[simp] theorem addOutside_keeps (m p group : Nat) (s : State) : (addOutside m p group s).pending = s.pending ∧ (addOutside m p group s).pins =
    s.pins ∧ (addOutside m p group s).ctl = s.ctl ∧ (addOutside m p group s).pwr = s.pwr ∧ (addOutside m p group s).otp = s.otp ∧ (addOutside m p
    group s).flash = s.flash ∧ (addOutside m p group s).gateh = s.gateh ∧ (addOutside m p group s).mbx = s.mbx ∧ (addOutside m p group s).evt =
    s.evt ∧ (addOutside m p group s).job = s.job ∧ (addOutside m p group s).chans = s.chans ∧ (addOutside m p group s).plots = s.plots ∧ (addOutside
    m p group s).flds = s.flds ∧ (addOutside m p group s).grid = s.grid ∧ (addOutside m p group s).bridges = s.bridges ∧ (addOutside m p group
    s).hbm = s.hbm ∧ (addOutside m p group s).links = s.links ∧ (addOutside m p group s).test = s.test ∧ (addOutside m p group s).health = s.health
    ∧ (addOutside m p group s).free = s.free := by
  unfold addOutside
  simp

@[simp] theorem noteLink_keeps (m p a : Nat) (s : State) : (noteLink m p a s).pending = s.pending ∧ (noteLink m p a s).pins = s.pins ∧ (noteLink m p
    a s).ctl = s.ctl ∧ (noteLink m p a s).pwr = s.pwr ∧ (noteLink m p a s).otp = s.otp ∧ (noteLink m p a s).flash = s.flash ∧ (noteLink m p a
    s).gateh = s.gateh ∧ (noteLink m p a s).mbx = s.mbx ∧ (noteLink m p a s).evt = s.evt ∧ (noteLink m p a s).job = s.job ∧ (noteLink m p a s).chans
    = s.chans ∧ (noteLink m p a s).plots = s.plots ∧ (noteLink m p a s).flds = s.flds ∧ (noteLink m p a s).grid = s.grid ∧ (noteLink m p a
    s).bridges = s.bridges ∧ (noteLink m p a s).hbm = s.hbm ∧ (noteLink m p a s).links = s.links ∧ (noteLink m p a s).test = s.test ∧ (noteLink m p
    a s).health = s.health ∧ (noteLink m p a s).free = s.free := by
  unfold noteLink
  (repeat' split) <;> simp

@[simp] theorem writeTables_keeps (s : State) : (writeTables s).pending = s.pending ∧ (writeTables s).pins = s.pins ∧ (writeTables s).ctl = s.ctl ∧
    (writeTables s).pwr = s.pwr ∧ (writeTables s).otp = s.otp ∧ (writeTables s).gateh = s.gateh ∧ (writeTables s).mbx = s.mbx ∧ (writeTables s).job
    = s.job ∧ (writeTables s).chans = s.chans ∧ (writeTables s).plots = s.plots ∧ (writeTables s).flds = s.flds ∧ (writeTables s).grid = s.grid ∧
    (writeTables s).bridges = s.bridges ∧ (writeTables s).hbm = s.hbm ∧ (writeTables s).test = s.test ∧ (writeTables s).health = s.health ∧
    (writeTables s).free = s.free := by
  unfold writeTables
  simp

@[simp] theorem enumDone_keeps (s : State) : (enumDone s).pending = s.pending ∧ (enumDone s).pins = s.pins ∧ (enumDone s).ctl = s.ctl ∧ (enumDone
    s).pwr = s.pwr ∧ (enumDone s).otp = s.otp ∧ (enumDone s).gateh = s.gateh ∧ (enumDone s).mbx = s.mbx ∧ (enumDone s).job = s.job ∧ (enumDone
    s).chans = s.chans ∧ (enumDone s).plots = s.plots ∧ (enumDone s).flds = s.flds ∧ (enumDone s).grid = s.grid ∧ (enumDone s).bridges = s.bridges ∧
    (enumDone s).hbm = s.hbm ∧ (enumDone s).test = s.test ∧ (enumDone s).health = s.health ∧ (enumDone s).free = s.free := by
  unfold enumDone
  simp

@[simp] theorem overLimit_keeps (m p : Nat) (s : State) : (overLimit m p s).pending = s.pending ∧ (overLimit m p s).pins = s.pins ∧ (overLimit m p
    s).ctl = s.ctl ∧ (overLimit m p s).pwr = s.pwr ∧ (overLimit m p s).otp = s.otp ∧ (overLimit m p s).gateh = s.gateh ∧ (overLimit m p s).mbx =
    s.mbx ∧ (overLimit m p s).job = s.job ∧ (overLimit m p s).chans = s.chans ∧ (overLimit m p s).plots = s.plots ∧ (overLimit m p s).flds = s.flds
    ∧ (overLimit m p s).grid = s.grid ∧ (overLimit m p s).bridges = s.bridges ∧ (overLimit m p s).hbm = s.hbm ∧ (overLimit m p s).links = s.links ∧
    (overLimit m p s).test = s.test ∧ (overLimit m p s).health = s.health ∧ (overLimit m p s).free = s.free := by
  unfold overLimit
  simp

@[simp] theorem enumGo_keeps (fuel m p : Nat) (s : State) : (enumGo fuel m p s).pending = s.pending ∧ (enumGo fuel m p s).pins = s.pins ∧ (enumGo
    fuel m p s).ctl = s.ctl ∧ (enumGo fuel m p s).pwr = s.pwr ∧ (enumGo fuel m p s).otp = s.otp ∧ (enumGo fuel m p s).gateh = s.gateh ∧ (enumGo fuel
    m p s).mbx = s.mbx ∧ (enumGo fuel m p s).job = s.job ∧ (enumGo fuel m p s).chans = s.chans ∧ (enumGo fuel m p s).plots = s.plots ∧ (enumGo fuel
    m p s).flds = s.flds ∧ (enumGo fuel m p s).grid = s.grid ∧ (enumGo fuel m p s).bridges = s.bridges ∧ (enumGo fuel m p s).hbm = s.hbm ∧ (enumGo
    fuel m p s).test = s.test ∧ (enumGo fuel m p s).health = s.health ∧ (enumGo fuel m p s).free = s.free := by
  fun_induction enumGo fuel m p s <;> simp_all +zetaDelta

@[simp] theorem enumNext_keeps (m p : Nat) (s : State) : (enumNext m p s).pending = s.pending ∧ (enumNext m p s).pins = s.pins ∧ (enumNext m p
    s).ctl = s.ctl ∧ (enumNext m p s).pwr = s.pwr ∧ (enumNext m p s).otp = s.otp ∧ (enumNext m p s).gateh = s.gateh ∧ (enumNext m p s).mbx = s.mbx ∧
    (enumNext m p s).job = s.job ∧ (enumNext m p s).chans = s.chans ∧ (enumNext m p s).plots = s.plots ∧ (enumNext m p s).flds = s.flds ∧ (enumNext
    m p s).grid = s.grid ∧ (enumNext m p s).bridges = s.bridges ∧ (enumNext m p s).hbm = s.hbm ∧ (enumNext m p s).test = s.test ∧ (enumNext m p
    s).health = s.health ∧ (enumNext m p s).free = s.free := by
  unfold enumNext
  simp

@[simp] theorem startEnum_keeps (group : Nat) (s : State) : (startEnum group s).pending = s.pending ∧ (startEnum group s).pins = s.pins ∧ (startEnum
    group s).ctl = s.ctl ∧ (startEnum group s).pwr = s.pwr ∧ (startEnum group s).otp = s.otp ∧ (startEnum group s).gateh = s.gateh ∧ (startEnum
    group s).mbx = s.mbx ∧ (startEnum group s).job = s.job ∧ (startEnum group s).chans = s.chans ∧ (startEnum group s).plots = s.plots ∧ (startEnum
    group s).flds = s.flds ∧ (startEnum group s).grid = s.grid ∧ (startEnum group s).bridges = s.bridges ∧ (startEnum group s).hbm = s.hbm ∧
    (startEnum group s).test = s.test ∧ (startEnum group s).health = s.health ∧ (startEnum group s).free = s.free := by
  unfold startEnum
  simp

@[simp] theorem applyPortState_keeps (m p : Nat) (up : Bool) (partner : Option Nat) (s : State) : (applyPortState m p up partner s).pending =
    s.pending ∧ (applyPortState m p up partner s).pins = s.pins ∧ (applyPortState m p up partner s).ctl = s.ctl ∧ (applyPortState m p up partner
    s).pwr = s.pwr ∧ (applyPortState m p up partner s).otp = s.otp ∧ (applyPortState m p up partner s).gateh = s.gateh ∧ (applyPortState m p up
    partner s).mbx = s.mbx ∧ (applyPortState m p up partner s).job = s.job ∧ (applyPortState m p up partner s).chans = s.chans ∧ (applyPortState m p
    up partner s).plots = s.plots ∧ (applyPortState m p up partner s).flds = s.flds ∧ (applyPortState m p up partner s).grid = s.grid ∧
    (applyPortState m p up partner s).bridges = s.bridges ∧ (applyPortState m p up partner s).hbm = s.hbm ∧ (applyPortState m p up partner s).test =
    s.test ∧ (applyPortState m p up partner s).health = s.health ∧ (applyPortState m p up partner s).free = s.free := by
  unfold applyPortState
  (repeat' split) <;> simp

@[simp] theorem reportPort_keeps (i : Nat) (s : State) : (reportPort i s).pending = s.pending ∧ (reportPort i s).pins = s.pins ∧ (reportPort i
    s).ctl = s.ctl ∧ (reportPort i s).pwr = s.pwr ∧ (reportPort i s).otp = s.otp ∧ (reportPort i s).gateh = s.gateh ∧ (reportPort i s).mbx = s.mbx ∧
    (reportPort i s).job = s.job ∧ (reportPort i s).chans = s.chans ∧ (reportPort i s).plots = s.plots ∧ (reportPort i s).flds = s.flds ∧
    (reportPort i s).grid = s.grid ∧ (reportPort i s).bridges = s.bridges ∧ (reportPort i s).hbm = s.hbm ∧ (reportPort i s).test = s.test ∧
    (reportPort i s).health = s.health ∧ (reportPort i s).free = s.free := by
  unfold reportPort
  dsimp only
  (repeat' split) <;> simp

@[simp] theorem settleCheck_keeps (s : State) : (settleCheck s).pending = s.pending ∧ (settleCheck s).pins = s.pins ∧ (settleCheck s).pwr = s.pwr ∧
    (settleCheck s).otp = s.otp ∧ (settleCheck s).gateh = s.gateh ∧ (settleCheck s).mbx = s.mbx ∧ (settleCheck s).job = s.job ∧ (settleCheck
    s).chans = s.chans ∧ (settleCheck s).plots = s.plots ∧ (settleCheck s).flds = s.flds ∧ (settleCheck s).grid = s.grid ∧ (settleCheck s).bridges =
    s.bridges ∧ (settleCheck s).hbm = s.hbm ∧ (settleCheck s).test = s.test ∧ (settleCheck s).health = s.health ∧ (settleCheck s).free = s.free :=
    by
  unfold settleCheck
  (repeat' split) <;> simp

@[simp] theorem takeDown_keeps (i reason : Nat) (s : State) : (takeDown i reason s).pending = s.pending ∧ (takeDown i reason s).pins = s.pins ∧
    (takeDown i reason s).pwr = s.pwr ∧ (takeDown i reason s).otp = s.otp ∧ (takeDown i reason s).mbx = s.mbx ∧ (takeDown i reason s).job = s.job ∧
    (takeDown i reason s).chans = s.chans ∧ (takeDown i reason s).bridges = s.bridges ∧ (takeDown i reason s).hbm = s.hbm ∧ (takeDown i reason
    s).test = s.test ∧ (takeDown i reason s).health = s.health ∧ (takeDown i reason s).free = s.free := by
  unfold takeDown
  (repeat' split) <;> simp

/-! ## Hbm -/

@[simp] theorem logEvent_keeps (r : LogRec) (s : State) : (logEvent r s).pending = s.pending ∧ (logEvent r s).pins = s.pins ∧ (logEvent r s).ctl =
    s.ctl ∧ (logEvent r s).pwr = s.pwr ∧ (logEvent r s).otp = s.otp ∧ (logEvent r s).gateh = s.gateh ∧ (logEvent r s).mbx = s.mbx ∧ (logEvent r
    s).job = s.job ∧ (logEvent r s).chans = s.chans ∧ (logEvent r s).plots = s.plots ∧ (logEvent r s).grid = s.grid ∧ (logEvent r s).bridges =
    s.bridges ∧ (logEvent r s).hbm = s.hbm ∧ (logEvent r s).links = s.links ∧ (logEvent r s).mesh = s.mesh ∧ (logEvent r s).test = s.test ∧
    (logEvent r s).health = s.health ∧ (logEvent r s).free = s.free := by
  unfold logEvent
  dsimp only
  (repeat' split) <;> simp

@[simp] theorem saveLine_keeps (x : Nat) (s : State) : (saveLine x s).pending = s.pending ∧ (saveLine x s).pins = s.pins ∧ (saveLine x s).ctl =
    s.ctl ∧ (saveLine x s).pwr = s.pwr ∧ (saveLine x s).otp = s.otp ∧ (saveLine x s).flash = s.flash ∧ (saveLine x s).gateh = s.gateh ∧ (saveLine x
    s).mbx = s.mbx ∧ (saveLine x s).evt = s.evt ∧ (saveLine x s).job = s.job ∧ (saveLine x s).chans = s.chans ∧ (saveLine x s).plots = s.plots ∧
    (saveLine x s).flds = s.flds ∧ (saveLine x s).grid = s.grid ∧ (saveLine x s).bridges = s.bridges ∧ (saveLine x s).links = s.links ∧ (saveLine x
    s).mesh = s.mesh ∧ (saveLine x s).test = s.test ∧ (saveLine x s).health = s.health ∧ (saveLine x s).free = s.free := by
  unfold saveLine
  simp

@[simp] theorem markWord_keeps (x : Nat) (s : State) : (markWord x s).pending = s.pending ∧ (markWord x s).pins = s.pins ∧ (markWord x s).ctl =
    s.ctl ∧ (markWord x s).pwr = s.pwr ∧ (markWord x s).otp = s.otp ∧ (markWord x s).flash = s.flash ∧ (markWord x s).gateh = s.gateh ∧ (markWord x
    s).mbx = s.mbx ∧ (markWord x s).evt = s.evt ∧ (markWord x s).job = s.job ∧ (markWord x s).chans = s.chans ∧ (markWord x s).plots = s.plots ∧
    (markWord x s).flds = s.flds ∧ (markWord x s).grid = s.grid ∧ (markWord x s).bridges = s.bridges ∧ (markWord x s).links = s.links ∧ (markWord x
    s).mesh = s.mesh ∧ (markWord x s).test = s.test ∧ (markWord x s).health = s.health ∧ (markWord x s).free = s.free := by
  unfold markWord
  simp

@[simp] theorem logOutcome_keeps (id : Nat) (r : Region) (x : Nat) (o : WordOutcome) (src : Nat) (s : State) : (logOutcome id r x o src s).pending =
    s.pending ∧ (logOutcome id r x o src s).pins = s.pins ∧ (logOutcome id r x o src s).ctl = s.ctl ∧ (logOutcome id r x o src s).pwr = s.pwr ∧
    (logOutcome id r x o src s).otp = s.otp ∧ (logOutcome id r x o src s).gateh = s.gateh ∧ (logOutcome id r x o src s).mbx = s.mbx ∧ (logOutcome id
    r x o src s).job = s.job ∧ (logOutcome id r x o src s).chans = s.chans ∧ (logOutcome id r x o src s).plots = s.plots ∧ (logOutcome id r x o src
    s).grid = s.grid ∧ (logOutcome id r x o src s).bridges = s.bridges ∧ (logOutcome id r x o src s).hbm = s.hbm ∧ (logOutcome id r x o src s).links
    = s.links ∧ (logOutcome id r x o src s).mesh = s.mesh ∧ (logOutcome id r x o src s).test = s.test ∧ (logOutcome id r x o src s).health =
    s.health ∧ (logOutcome id r x o src s).free = s.free := by
  unfold logOutcome
  (repeat' split) <;> simp

@[simp] theorem readWord_keeps (id : Nat) (r : Region) (x : Nat) (e : WordErrors) (src : Nat) (s : State) : (readWord id r x e src s).1.pending =
    s.pending ∧ (readWord id r x e src s).1.pins = s.pins ∧ (readWord id r x e src s).1.ctl = s.ctl ∧ (readWord id r x e src s).1.pwr = s.pwr ∧
    (readWord id r x e src s).1.otp = s.otp ∧ (readWord id r x e src s).1.gateh = s.gateh ∧ (readWord id r x e src s).1.mbx = s.mbx ∧ (readWord id r
    x e src s).1.job = s.job ∧ (readWord id r x e src s).1.chans = s.chans ∧ (readWord id r x e src s).1.plots = s.plots ∧ (readWord id r x e src
    s).1.grid = s.grid ∧ (readWord id r x e src s).1.bridges = s.bridges ∧ (readWord id r x e src s).1.links = s.links ∧ (readWord id r x e src
    s).1.mesh = s.mesh ∧ (readWord id r x e src s).1.test = s.test ∧ (readWord id r x e src s).1.health = s.health ∧ (readWord id r x e src
    s).1.free = s.free := by
  unfold readWord
  dsimp only
  (repeat' split) <;> simp

@[simp] theorem closeLine_keeps (x : Nat) (s : State) : (closeLine x s).pending = s.pending ∧ (closeLine x s).pins = s.pins ∧ (closeLine x s).ctl =
    s.ctl ∧ (closeLine x s).pwr = s.pwr ∧ (closeLine x s).otp = s.otp ∧ (closeLine x s).flash = s.flash ∧ (closeLine x s).gateh = s.gateh ∧
    (closeLine x s).mbx = s.mbx ∧ (closeLine x s).evt = s.evt ∧ (closeLine x s).job = s.job ∧ (closeLine x s).chans = s.chans ∧ (closeLine x
    s).plots = s.plots ∧ (closeLine x s).flds = s.flds ∧ (closeLine x s).grid = s.grid ∧ (closeLine x s).bridges = s.bridges ∧ (closeLine x s).links
    = s.links ∧ (closeLine x s).mesh = s.mesh ∧ (closeLine x s).test = s.test ∧ (closeLine x s).health = s.health ∧ (closeLine x s).free = s.free :=
    by
  unfold closeLine
  simp

@[simp] theorem storeWord_keeps (x : Nat) (bs : List Byte) (s : State) : (storeWord x bs s).pending = s.pending ∧ (storeWord x bs s).pins = s.pins ∧
    (storeWord x bs s).ctl = s.ctl ∧ (storeWord x bs s).pwr = s.pwr ∧ (storeWord x bs s).otp = s.otp ∧ (storeWord x bs s).flash = s.flash ∧
    (storeWord x bs s).gateh = s.gateh ∧ (storeWord x bs s).mbx = s.mbx ∧ (storeWord x bs s).evt = s.evt ∧ (storeWord x bs s).job = s.job ∧
    (storeWord x bs s).chans = s.chans ∧ (storeWord x bs s).plots = s.plots ∧ (storeWord x bs s).flds = s.flds ∧ (storeWord x bs s).grid = s.grid ∧
    (storeWord x bs s).bridges = s.bridges ∧ (storeWord x bs s).links = s.links ∧ (storeWord x bs s).mesh = s.mesh ∧ (storeWord x bs s).test =
    s.test ∧ (storeWord x bs s).health = s.health ∧ (storeWord x bs s).free = s.free := by
  unfold storeWord
  simp

@[simp] theorem writeWord_keeps (id : Nat) (r : Region) (x : Nat) (bs : List Byte) (e : WordErrors) (s : State) : (writeWord id r x bs e
    s).1.pending = s.pending ∧ (writeWord id r x bs e s).1.pins = s.pins ∧ (writeWord id r x bs e s).1.ctl = s.ctl ∧ (writeWord id r x bs e s).1.pwr
    = s.pwr ∧ (writeWord id r x bs e s).1.otp = s.otp ∧ (writeWord id r x bs e s).1.gateh = s.gateh ∧ (writeWord id r x bs e s).1.mbx = s.mbx ∧
    (writeWord id r x bs e s).1.job = s.job ∧ (writeWord id r x bs e s).1.chans = s.chans ∧ (writeWord id r x bs e s).1.plots = s.plots ∧ (writeWord
    id r x bs e s).1.grid = s.grid ∧ (writeWord id r x bs e s).1.bridges = s.bridges ∧ (writeWord id r x bs e s).1.links = s.links ∧ (writeWord id r
    x bs e s).1.mesh = s.mesh ∧ (writeWord id r x bs e s).1.test = s.test ∧ (writeWord id r x bs e s).1.health = s.health ∧ (writeWord id r x bs e
    s).1.free = s.free := by
  unfold writeWord
  dsimp only
  (repeat' split) <;> simp

@[simp] theorem writeWords_keeps (id : Nat) (r : Region) (l : List (Nat × List Byte)) (es : List WordErrors) (s : State) : (writeWords id r l es
    s).1.pending = s.pending ∧ (writeWords id r l es s).1.pins = s.pins ∧ (writeWords id r l es s).1.ctl = s.ctl ∧ (writeWords id r l es s).1.pwr =
    s.pwr ∧ (writeWords id r l es s).1.otp = s.otp ∧ (writeWords id r l es s).1.gateh = s.gateh ∧ (writeWords id r l es s).1.mbx = s.mbx ∧
    (writeWords id r l es s).1.job = s.job ∧ (writeWords id r l es s).1.chans = s.chans ∧ (writeWords id r l es s).1.plots = s.plots ∧ (writeWords
    id r l es s).1.grid = s.grid ∧ (writeWords id r l es s).1.bridges = s.bridges ∧ (writeWords id r l es s).1.links = s.links ∧ (writeWords id r l
    es s).1.mesh = s.mesh ∧ (writeWords id r l es s).1.test = s.test ∧ (writeWords id r l es s).1.health = s.health ∧ (writeWords id r l es
    s).1.free = s.free := by
  fun_induction writeWords id r l es s <;> simp_all +zetaDelta

@[simp] theorem markWords_keeps (x : Nat) (words : List Nat) (s : State) : (markWords x words s).pending = s.pending ∧ (markWords x words s).pins =
    s.pins ∧ (markWords x words s).ctl = s.ctl ∧ (markWords x words s).pwr = s.pwr ∧ (markWords x words s).otp = s.otp ∧ (markWords x words s).flash
    = s.flash ∧ (markWords x words s).gateh = s.gateh ∧ (markWords x words s).mbx = s.mbx ∧ (markWords x words s).evt = s.evt ∧ (markWords x words
    s).job = s.job ∧ (markWords x words s).chans = s.chans ∧ (markWords x words s).plots = s.plots ∧ (markWords x words s).flds = s.flds ∧
    (markWords x words s).grid = s.grid ∧ (markWords x words s).bridges = s.bridges ∧ (markWords x words s).links = s.links ∧ (markWords x words
    s).mesh = s.mesh ∧ (markWords x words s).test = s.test ∧ (markWords x words s).health = s.health ∧ (markWords x words s).free = s.free := by
  unfold markWords
  simp

@[simp] theorem readBlock_keeps (id : Nat) (r : Region) (x : Nat) (e : WordErrors) (src : Nat) (s : State) : (readBlock id r x e src s).1.pending =
    s.pending ∧ (readBlock id r x e src s).1.pins = s.pins ∧ (readBlock id r x e src s).1.ctl = s.ctl ∧ (readBlock id r x e src s).1.pwr = s.pwr ∧
    (readBlock id r x e src s).1.otp = s.otp ∧ (readBlock id r x e src s).1.gateh = s.gateh ∧ (readBlock id r x e src s).1.mbx = s.mbx ∧ (readBlock
    id r x e src s).1.job = s.job ∧ (readBlock id r x e src s).1.chans = s.chans ∧ (readBlock id r x e src s).1.plots = s.plots ∧ (readBlock id r x
    e src s).1.grid = s.grid ∧ (readBlock id r x e src s).1.bridges = s.bridges ∧ (readBlock id r x e src s).1.links = s.links ∧ (readBlock id r x e
    src s).1.mesh = s.mesh ∧ (readBlock id r x e src s).1.test = s.test ∧ (readBlock id r x e src s).1.health = s.health ∧ (readBlock id r x e src
    s).1.free = s.free := by
  unfold readBlock
  dsimp only
  (repeat' split) <;> simp

@[simp] theorem writeBlock_keeps (id : Nat) (r : Region) (x : Nat) (bs : List Byte) (direct : Bool) (e : WordErrors) (s : State) : (writeBlock id r
    x bs direct e s).1.pending = s.pending ∧ (writeBlock id r x bs direct e s).1.pins = s.pins ∧ (writeBlock id r x bs direct e s).1.ctl = s.ctl ∧
    (writeBlock id r x bs direct e s).1.pwr = s.pwr ∧ (writeBlock id r x bs direct e s).1.otp = s.otp ∧ (writeBlock id r x bs direct e s).1.gateh =
    s.gateh ∧ (writeBlock id r x bs direct e s).1.mbx = s.mbx ∧ (writeBlock id r x bs direct e s).1.job = s.job ∧ (writeBlock id r x bs direct e
    s).1.chans = s.chans ∧ (writeBlock id r x bs direct e s).1.plots = s.plots ∧ (writeBlock id r x bs direct e s).1.grid = s.grid ∧ (writeBlock id
    r x bs direct e s).1.bridges = s.bridges ∧ (writeBlock id r x bs direct e s).1.links = s.links ∧ (writeBlock id r x bs direct e s).1.mesh =
    s.mesh ∧ (writeBlock id r x bs direct e s).1.test = s.test ∧ (writeBlock id r x bs direct e s).1.health = s.health ∧ (writeBlock id r x bs
    direct e s).1.free = s.free := by
  unfold writeBlock
  dsimp only
  (repeat' split) <;> simp

@[simp] theorem writeBytes_keeps (id : Nat) (r : Region) (x : Nat) (bs : List Byte) (direct : Bool) (es : List WordErrors) (s : State) : (writeBytes
    id r x bs direct es s).1.pending = s.pending ∧ (writeBytes id r x bs direct es s).1.pins = s.pins ∧ (writeBytes id r x bs direct es s).1.ctl =
    s.ctl ∧ (writeBytes id r x bs direct es s).1.pwr = s.pwr ∧ (writeBytes id r x bs direct es s).1.otp = s.otp ∧ (writeBytes id r x bs direct es
    s).1.gateh = s.gateh ∧ (writeBytes id r x bs direct es s).1.mbx = s.mbx ∧ (writeBytes id r x bs direct es s).1.job = s.job ∧ (writeBytes id r x
    bs direct es s).1.chans = s.chans ∧ (writeBytes id r x bs direct es s).1.plots = s.plots ∧ (writeBytes id r x bs direct es s).1.grid = s.grid ∧
    (writeBytes id r x bs direct es s).1.bridges = s.bridges ∧ (writeBytes id r x bs direct es s).1.links = s.links ∧ (writeBytes id r x bs direct
    es s).1.mesh = s.mesh ∧ (writeBytes id r x bs direct es s).1.test = s.test ∧ (writeBytes id r x bs direct es s).1.health = s.health ∧
    (writeBytes id r x bs direct es s).1.free = s.free := by
  unfold writeBytes
  (repeat' split) <;> simp

@[simp] theorem fillGranule_keeps (g : Nat) (s : State) : (fillGranule g s).pending = s.pending ∧ (fillGranule g s).pins = s.pins ∧ (fillGranule g
    s).ctl = s.ctl ∧ (fillGranule g s).pwr = s.pwr ∧ (fillGranule g s).otp = s.otp ∧ (fillGranule g s).flash = s.flash ∧ (fillGranule g s).gateh =
    s.gateh ∧ (fillGranule g s).mbx = s.mbx ∧ (fillGranule g s).evt = s.evt ∧ (fillGranule g s).job = s.job ∧ (fillGranule g s).chans = s.chans ∧
    (fillGranule g s).plots = s.plots ∧ (fillGranule g s).flds = s.flds ∧ (fillGranule g s).grid = s.grid ∧ (fillGranule g s).bridges = s.bridges ∧
    (fillGranule g s).links = s.links ∧ (fillGranule g s).mesh = s.mesh ∧ (fillGranule g s).test = s.test ∧ (fillGranule g s).health = s.health ∧
    (fillGranule g s).free = s.free := by
  unfold fillGranule
  simp

@[simp] theorem nextNonce_keeps (key : Nat) (s : State) : (nextNonce key s).2.pending = s.pending ∧ (nextNonce key s).2.pins = s.pins ∧ (nextNonce
    key s).2.ctl = s.ctl ∧ (nextNonce key s).2.pwr = s.pwr ∧ (nextNonce key s).2.otp = s.otp ∧ (nextNonce key s).2.gateh = s.gateh ∧ (nextNonce key
    s).2.mbx = s.mbx ∧ (nextNonce key s).2.evt = s.evt ∧ (nextNonce key s).2.job = s.job ∧ (nextNonce key s).2.chans = s.chans ∧ (nextNonce key
    s).2.plots = s.plots ∧ (nextNonce key s).2.flds = s.flds ∧ (nextNonce key s).2.grid = s.grid ∧ (nextNonce key s).2.bridges = s.bridges ∧
    (nextNonce key s).2.hbm = s.hbm ∧ (nextNonce key s).2.links = s.links ∧ (nextNonce key s).2.mesh = s.mesh ∧ (nextNonce key s).2.test = s.test ∧
    (nextNonce key s).2.health = s.health ∧ (nextNonce key s).2.free = s.free := by
  unfold nextNonce
  simp

@[simp] theorem respondWindow_keeps (p : Pkt) (ptype : Nat) (poison failed : Bool) (body : List Byte) (s : State) : (respondWindow p ptype poison
    failed body s).pending = s.pending ∧ (respondWindow p ptype poison failed body s).pins = s.pins ∧ (respondWindow p ptype poison failed body
    s).ctl = s.ctl ∧ (respondWindow p ptype poison failed body s).pwr = s.pwr ∧ (respondWindow p ptype poison failed body s).otp = s.otp ∧
    (respondWindow p ptype poison failed body s).gateh = s.gateh ∧ (respondWindow p ptype poison failed body s).mbx = s.mbx ∧ (respondWindow p ptype
    poison failed body s).job = s.job ∧ (respondWindow p ptype poison failed body s).chans = s.chans ∧ (respondWindow p ptype poison failed body
    s).plots = s.plots ∧ (respondWindow p ptype poison failed body s).flds = s.flds ∧ (respondWindow p ptype poison failed body s).grid = s.grid ∧
    (respondWindow p ptype poison failed body s).bridges = s.bridges ∧ (respondWindow p ptype poison failed body s).hbm = s.hbm ∧ (respondWindow p
    ptype poison failed body s).test = s.test ∧ (respondWindow p ptype poison failed body s).health = s.health ∧ (respondWindow p ptype poison
    failed body s).free = s.free := by
  unfold respondWindow
  simp

@[simp] theorem replyFrom_keeps (f : Nat) (site : Site) (p : Pkt) (ptype : Nat) (poison failed : Bool) (body : List Byte) (s : State) : (replyFrom f
    site p ptype poison failed body s).pending = s.pending ∧ (replyFrom f site p ptype poison failed body s).pins = s.pins ∧ (replyFrom f site p
    ptype poison failed body s).ctl = s.ctl ∧ (replyFrom f site p ptype poison failed body s).pwr = s.pwr ∧ (replyFrom f site p ptype poison failed
    body s).otp = s.otp ∧ (replyFrom f site p ptype poison failed body s).gateh = s.gateh ∧ (replyFrom f site p ptype poison failed body s).mbx =
    s.mbx ∧ (replyFrom f site p ptype poison failed body s).job = s.job ∧ (replyFrom f site p ptype poison failed body s).chans = s.chans ∧
    (replyFrom f site p ptype poison failed body s).plots = s.plots ∧ (replyFrom f site p ptype poison failed body s).flds = s.flds ∧ (replyFrom f
    site p ptype poison failed body s).bridges = s.bridges ∧ (replyFrom f site p ptype poison failed body s).hbm = s.hbm ∧ (replyFrom f site p ptype
    poison failed body s).test = s.test ∧ (replyFrom f site p ptype poison failed body s).health = s.health ∧ (replyFrom f site p ptype poison
    failed body s).free = s.free := by
  unfold replyFrom
  simp

@[simp] theorem concludeWrite_keeps (f rid : Nat) (s : State) : (concludeWrite f rid s).pending = s.pending ∧ (concludeWrite f rid s).pins = s.pins
    ∧ (concludeWrite f rid s).ctl = s.ctl ∧ (concludeWrite f rid s).pwr = s.pwr ∧ (concludeWrite f rid s).otp = s.otp ∧ (concludeWrite f rid
    s).flash = s.flash ∧ (concludeWrite f rid s).gateh = s.gateh ∧ (concludeWrite f rid s).mbx = s.mbx ∧ (concludeWrite f rid s).evt = s.evt ∧
    (concludeWrite f rid s).job = s.job ∧ (concludeWrite f rid s).chans = s.chans ∧ (concludeWrite f rid s).plots = s.plots ∧ (concludeWrite f rid
    s).grid = s.grid ∧ (concludeWrite f rid s).bridges = s.bridges ∧ (concludeWrite f rid s).hbm = s.hbm ∧ (concludeWrite f rid s).links = s.links ∧
    (concludeWrite f rid s).mesh = s.mesh ∧ (concludeWrite f rid s).test = s.test ∧ (concludeWrite f rid s).health = s.health ∧ (concludeWrite f rid
    s).free = s.free := by
  unfold concludeWrite
  (repeat' split) <;> simp

@[simp] theorem finishRequest_keeps (f rid : Nat) (s : State) : (finishRequest f rid s).pending = s.pending ∧ (finishRequest f rid s).pins = s.pins
    ∧ (finishRequest f rid s).ctl = s.ctl ∧ (finishRequest f rid s).pwr = s.pwr ∧ (finishRequest f rid s).otp = s.otp ∧ (finishRequest f rid
    s).gateh = s.gateh ∧ (finishRequest f rid s).mbx = s.mbx ∧ (finishRequest f rid s).job = s.job ∧ (finishRequest f rid s).chans = s.chans ∧
    (finishRequest f rid s).plots = s.plots ∧ (finishRequest f rid s).bridges = s.bridges ∧ (finishRequest f rid s).hbm = s.hbm ∧ (finishRequest f
    rid s).test = s.test ∧ (finishRequest f rid s).health = s.health ∧ (finishRequest f rid s).free = s.free := by
  unfold finishRequest
  (repeat' split) <;> simp

@[simp] theorem landPiece_keeps (f rid off : Nat) (bs : List Byte) (poisoned : Bool) (s : State) : (landPiece f rid off bs poisoned s).pending =
    s.pending ∧ (landPiece f rid off bs poisoned s).pins = s.pins ∧ (landPiece f rid off bs poisoned s).ctl = s.ctl ∧ (landPiece f rid off bs
    poisoned s).pwr = s.pwr ∧ (landPiece f rid off bs poisoned s).otp = s.otp ∧ (landPiece f rid off bs poisoned s).mbx = s.mbx ∧ (landPiece f rid
    off bs poisoned s).job = s.job ∧ (landPiece f rid off bs poisoned s).chans = s.chans ∧ (landPiece f rid off bs poisoned s).grid = s.grid ∧
    (landPiece f rid off bs poisoned s).bridges = s.bridges ∧ (landPiece f rid off bs poisoned s).hbm = s.hbm ∧ (landPiece f rid off bs poisoned
    s).links = s.links ∧ (landPiece f rid off bs poisoned s).mesh = s.mesh ∧ (landPiece f rid off bs poisoned s).test = s.test ∧ (landPiece f rid
    off bs poisoned s).health = s.health ∧ (landPiece f rid off bs poisoned s).free = s.free := by
  unfold landPiece
  (repeat' split) <;> simp

@[simp] theorem landLine_keeps (f rid off : Nat) (bs : List Byte) (poisoned : Bool) (legs : List Leg) (s : State) : (landLine f rid off bs poisoned
    legs s).pending = s.pending ∧ (landLine f rid off bs poisoned legs s).pins = s.pins ∧ (landLine f rid off bs poisoned legs s).ctl = s.ctl ∧
    (landLine f rid off bs poisoned legs s).pwr = s.pwr ∧ (landLine f rid off bs poisoned legs s).otp = s.otp ∧ (landLine f rid off bs poisoned legs
    s).mbx = s.mbx ∧ (landLine f rid off bs poisoned legs s).job = s.job ∧ (landLine f rid off bs poisoned legs s).chans = s.chans ∧ (landLine f rid
    off bs poisoned legs s).bridges = s.bridges ∧ (landLine f rid off bs poisoned legs s).hbm = s.hbm ∧ (landLine f rid off bs poisoned legs
    s).links = s.links ∧ (landLine f rid off bs poisoned legs s).mesh = s.mesh ∧ (landLine f rid off bs poisoned legs s).test = s.test ∧ (landLine f
    rid off bs poisoned legs s).health = s.health ∧ (landLine f rid off bs poisoned legs s).free = s.free := by
  unfold landLine
  (repeat' split) <;> simp

@[simp] theorem sendLine_keeps (f rid off : Nat) (bs : List Byte) (poisoned : Bool) (x : Nat) (s : State) : (sendLine f rid off bs poisoned x
    s).pending = s.pending ∧ (sendLine f rid off bs poisoned x s).pins = s.pins ∧ (sendLine f rid off bs poisoned x s).ctl = s.ctl ∧ (sendLine f rid
    off bs poisoned x s).pwr = s.pwr ∧ (sendLine f rid off bs poisoned x s).otp = s.otp ∧ (sendLine f rid off bs poisoned x s).mbx = s.mbx ∧
    (sendLine f rid off bs poisoned x s).job = s.job ∧ (sendLine f rid off bs poisoned x s).chans = s.chans ∧ (sendLine f rid off bs poisoned x
    s).bridges = s.bridges ∧ (sendLine f rid off bs poisoned x s).hbm = s.hbm ∧ (sendLine f rid off bs poisoned x s).links = s.links ∧ (sendLine f
    rid off bs poisoned x s).mesh = s.mesh ∧ (sendLine f rid off bs poisoned x s).test = s.test ∧ (sendLine f rid off bs poisoned x s).health =
    s.health ∧ (sendLine f rid off bs poisoned x s).free = s.free := by
  unfold sendLine
  simp

@[simp] theorem landKept_keeps (f rid off : Nat) (bs : List Byte) (poisoned : Bool) (s : State) : (landKept f rid off bs poisoned s).pending =
    s.pending ∧ (landKept f rid off bs poisoned s).pins = s.pins ∧ (landKept f rid off bs poisoned s).ctl = s.ctl ∧ (landKept f rid off bs poisoned
    s).pwr = s.pwr ∧ (landKept f rid off bs poisoned s).otp = s.otp ∧ (landKept f rid off bs poisoned s).mbx = s.mbx ∧ (landKept f rid off bs
    poisoned s).job = s.job ∧ (landKept f rid off bs poisoned s).chans = s.chans ∧ (landKept f rid off bs poisoned s).bridges = s.bridges ∧
    (landKept f rid off bs poisoned s).hbm = s.hbm ∧ (landKept f rid off bs poisoned s).test = s.test ∧ (landKept f rid off bs poisoned s).health =
    s.health ∧ (landKept f rid off bs poisoned s).free = s.free := by
  unfold landKept
  simp

@[simp] theorem readPiece_keeps (id : Nat) (r : Region) (f rid : Nat) (pc : Nat × Nat × Nat) (e : WordErrors) (s : State) : (readPiece id r f rid pc
    e s).pending = s.pending ∧ (readPiece id r f rid pc e s).pins = s.pins ∧ (readPiece id r f rid pc e s).ctl = s.ctl ∧ (readPiece id r f rid pc e
    s).pwr = s.pwr ∧ (readPiece id r f rid pc e s).otp = s.otp ∧ (readPiece id r f rid pc e s).mbx = s.mbx ∧ (readPiece id r f rid pc e s).job =
    s.job ∧ (readPiece id r f rid pc e s).chans = s.chans ∧ (readPiece id r f rid pc e s).bridges = s.bridges ∧ (readPiece id r f rid pc e s).links
    = s.links ∧ (readPiece id r f rid pc e s).mesh = s.mesh ∧ (readPiece id r f rid pc e s).test = s.test ∧ (readPiece id r f rid pc e s).health =
    s.health ∧ (readPiece id r f rid pc e s).free = s.free := by
  unfold readPiece
  simp

@[simp] theorem servePiece_keeps (id : Nat) (r : Region) (f rid : Nat) (merges : Bool) (pc : Nat × Nat × Nat) (er : WordErrors) (s : State) :
    (servePiece id r f rid merges pc er s).pending = s.pending ∧ (servePiece id r f rid merges pc er s).pins = s.pins ∧ (servePiece id r f rid
    merges pc er s).ctl = s.ctl ∧ (servePiece id r f rid merges pc er s).pwr = s.pwr ∧ (servePiece id r f rid merges pc er s).otp = s.otp ∧
    (servePiece id r f rid merges pc er s).mbx = s.mbx ∧ (servePiece id r f rid merges pc er s).job = s.job ∧ (servePiece id r f rid merges pc er
    s).chans = s.chans ∧ (servePiece id r f rid merges pc er s).bridges = s.bridges ∧ (servePiece id r f rid merges pc er s).links = s.links ∧
    (servePiece id r f rid merges pc er s).mesh = s.mesh ∧ (servePiece id r f rid merges pc er s).test = s.test ∧ (servePiece id r f rid merges pc
    er s).health = s.health ∧ (servePiece id r f rid merges pc er s).free = s.free := by
  unfold servePiece
  dsimp only
  (repeat' split) <;> simp

@[simp] theorem servePieces_keeps (id : Nat) (r : Region) (f rid : Nat) (merges : Bool) (l : List (Nat × Nat × Nat)) (es : List WordErrors) (s :
    State) : (servePieces id r f rid merges l es s).pending = s.pending ∧ (servePieces id r f rid merges l es s).pins = s.pins ∧ (servePieces id r f
    rid merges l es s).ctl = s.ctl ∧ (servePieces id r f rid merges l es s).pwr = s.pwr ∧ (servePieces id r f rid merges l es s).otp = s.otp ∧
    (servePieces id r f rid merges l es s).mbx = s.mbx ∧ (servePieces id r f rid merges l es s).job = s.job ∧ (servePieces id r f rid merges l es
    s).chans = s.chans ∧ (servePieces id r f rid merges l es s).bridges = s.bridges ∧ (servePieces id r f rid merges l es s).links = s.links ∧
    (servePieces id r f rid merges l es s).mesh = s.mesh ∧ (servePieces id r f rid merges l es s).test = s.test ∧ (servePieces id r f rid merges l
    es s).health = s.health ∧ (servePieces id r f rid merges l es s).free = s.free := by
  fun_induction servePieces id r f rid merges l es s <;> simp_all +zetaDelta

@[simp] theorem performRead_keeps (f rid : Nat) (merging : Bool) (es : List WordErrors) (s : State) : (performRead f rid merging es s).pending =
    s.pending ∧ (performRead f rid merging es s).pins = s.pins ∧ (performRead f rid merging es s).ctl = s.ctl ∧ (performRead f rid merging es s).pwr
    = s.pwr ∧ (performRead f rid merging es s).otp = s.otp ∧ (performRead f rid merging es s).mbx = s.mbx ∧ (performRead f rid merging es s).job =
    s.job ∧ (performRead f rid merging es s).chans = s.chans ∧ (performRead f rid merging es s).bridges = s.bridges ∧ (performRead f rid merging es
    s).test = s.test ∧ (performRead f rid merging es s).health = s.health ∧ (performRead f rid merging es s).free = s.free := by
  unfold performRead
  (repeat' split) <;> simp

@[simp] theorem performWrite_keeps (f rid : Nat) (es : List WordErrors) (s : State) : (performWrite f rid es s).pending = s.pending ∧ (performWrite
    f rid es s).pins = s.pins ∧ (performWrite f rid es s).ctl = s.ctl ∧ (performWrite f rid es s).pwr = s.pwr ∧ (performWrite f rid es s).otp =
    s.otp ∧ (performWrite f rid es s).gateh = s.gateh ∧ (performWrite f rid es s).mbx = s.mbx ∧ (performWrite f rid es s).job = s.job ∧
    (performWrite f rid es s).chans = s.chans ∧ (performWrite f rid es s).plots = s.plots ∧ (performWrite f rid es s).bridges = s.bridges ∧
    (performWrite f rid es s).test = s.test ∧ (performWrite f rid es s).health = s.health ∧ (performWrite f rid es s).free = s.free := by
  unfold performWrite
  (repeat' split) <;> simp

@[simp] theorem serveNow_keeps (f rid : Nat) (merging : Bool) (s : State) : (serveNow f rid merging s).pending = s.pending ∧ (serveNow f rid merging
    s).pins = s.pins ∧ (serveNow f rid merging s).ctl = s.ctl ∧ (serveNow f rid merging s).pwr = s.pwr ∧ (serveNow f rid merging s).otp = s.otp ∧
    (serveNow f rid merging s).mbx = s.mbx ∧ (serveNow f rid merging s).job = s.job ∧ (serveNow f rid merging s).chans = s.chans ∧ (serveNow f rid
    merging s).bridges = s.bridges ∧ (serveNow f rid merging s).test = s.test ∧ (serveNow f rid merging s).health = s.health := by
  unfold serveNow
  (repeat' split) <;> simp

@[simp] theorem completeFill_keeps (g : Nat) (s : State) : (completeFill g s).pending = s.pending ∧ (completeFill g s).pins = s.pins ∧ (completeFill
    g s).ctl = s.ctl ∧ (completeFill g s).pwr = s.pwr ∧ (completeFill g s).otp = s.otp ∧ (completeFill g s).mbx = s.mbx ∧ (completeFill g s).job =
    s.job ∧ (completeFill g s).chans = s.chans ∧ (completeFill g s).bridges = s.bridges ∧ (completeFill g s).test = s.test ∧ (completeFill g
    s).health = s.health := by
  unfold completeFill
  (repeat' split) <;> simp

@[simp] theorem freeFiller_keeps (g : Nat) (s : State) : (freeFiller g s).pending = s.pending ∧ (freeFiller g s).pins = s.pins ∧ (freeFiller g
    s).ctl = s.ctl ∧ (freeFiller g s).pwr = s.pwr ∧ (freeFiller g s).otp = s.otp ∧ (freeFiller g s).mbx = s.mbx ∧ (freeFiller g s).job = s.job ∧
    (freeFiller g s).chans = s.chans ∧ (freeFiller g s).bridges = s.bridges ∧ (freeFiller g s).test = s.test ∧ (freeFiller g s).health = s.health :=
    by
  unfold freeFiller
  (repeat' split) <;> simp

@[simp] theorem readyGranule_keeps (g : Nat) (s : State) : (readyGranule g s).pending = s.pending ∧ (readyGranule g s).pins = s.pins ∧ (readyGranule
    g s).ctl = s.ctl ∧ (readyGranule g s).pwr = s.pwr ∧ (readyGranule g s).otp = s.otp ∧ (readyGranule g s).mbx = s.mbx ∧ (readyGranule g s).job =
    s.job ∧ (readyGranule g s).chans = s.chans ∧ (readyGranule g s).bridges = s.bridges ∧ (readyGranule g s).test = s.test ∧ (readyGranule g
    s).health = s.health := by
  unfold readyGranule
  (repeat' split) <;> simp

@[simp] theorem returnEntry_keeps (stack entry : Nat) (er : WordErrors) (s : State) : (returnEntry stack entry er s).pending = s.pending ∧
    (returnEntry stack entry er s).pins = s.pins ∧ (returnEntry stack entry er s).ctl = s.ctl ∧ (returnEntry stack entry er s).pwr = s.pwr ∧
    (returnEntry stack entry er s).otp = s.otp ∧ (returnEntry stack entry er s).mbx = s.mbx ∧ (returnEntry stack entry er s).job = s.job ∧
    (returnEntry stack entry er s).chans = s.chans ∧ (returnEntry stack entry er s).bridges = s.bridges ∧ (returnEntry stack entry er s).test =
    s.test ∧ (returnEntry stack entry er s).health = s.health ∧ (returnEntry stack entry er s).free = s.free := by
  unfold returnEntry
  dsimp only
  (repeat' split) <;> simp (disch := (intros; first | (simp; done) | ((repeat' split) <;> simp; done) | (dsimp only; (repeat' split) <;> simp; done)))

@[simp] theorem returnNow_keeps (stack entry : Nat) (s : State) : (returnNow stack entry s).pending = s.pending ∧ (returnNow stack entry s).pins =
    s.pins ∧ (returnNow stack entry s).ctl = s.ctl ∧ (returnNow stack entry s).pwr = s.pwr ∧ (returnNow stack entry s).otp = s.otp ∧ (returnNow
    stack entry s).mbx = s.mbx ∧ (returnNow stack entry s).job = s.job ∧ (returnNow stack entry s).chans = s.chans ∧ (returnNow stack entry
    s).bridges = s.bridges ∧ (returnNow stack entry s).test = s.test ∧ (returnNow stack entry s).health = s.health := by
  unfold returnNow
  simp

@[simp] theorem serveLast_keeps (r : Region) (f : Nat) (e : Nat × MemReq) (s : State) : (serveLast r f e s).pending = s.pending ∧ (serveLast r f e
    s).pins = s.pins ∧ (serveLast r f e s).ctl = s.ctl ∧ (serveLast r f e s).pwr = s.pwr ∧ (serveLast r f e s).otp = s.otp ∧ (serveLast r f e s).mbx
    = s.mbx ∧ (serveLast r f e s).job = s.job ∧ (serveLast r f e s).chans = s.chans ∧ (serveLast r f e s).bridges = s.bridges ∧ (serveLast r f e
    s).test = s.test ∧ (serveLast r f e s).health = s.health := by
  unfold serveLast
  simp

@[simp] theorem zeroHeld_keeps (r : Region) (s : State) : (zeroHeld r s).pending = s.pending ∧ (zeroHeld r s).pins = s.pins ∧ (zeroHeld r s).ctl =
    s.ctl ∧ (zeroHeld r s).pwr = s.pwr ∧ (zeroHeld r s).otp = s.otp ∧ (zeroHeld r s).flash = s.flash ∧ (zeroHeld r s).gateh = s.gateh ∧ (zeroHeld r
    s).mbx = s.mbx ∧ (zeroHeld r s).evt = s.evt ∧ (zeroHeld r s).job = s.job ∧ (zeroHeld r s).chans = s.chans ∧ (zeroHeld r s).plots = s.plots ∧
    (zeroHeld r s).flds = s.flds ∧ (zeroHeld r s).bridges = s.bridges ∧ (zeroHeld r s).hbm = s.hbm ∧ (zeroHeld r s).links = s.links ∧ (zeroHeld r
    s).mesh = s.mesh ∧ (zeroHeld r s).test = s.test ∧ (zeroHeld r s).health = s.health ∧ (zeroHeld r s).free = s.free := by
  unfold zeroHeld
  simp

@[simp] theorem settleRegion_keeps (r : Region) (s : State) : (settleRegion r s).pending = s.pending ∧ (settleRegion r s).pins = s.pins ∧
    (settleRegion r s).ctl = s.ctl ∧ (settleRegion r s).pwr = s.pwr ∧ (settleRegion r s).otp = s.otp ∧ (settleRegion r s).mbx = s.mbx ∧
    (settleRegion r s).job = s.job ∧ (settleRegion r s).chans = s.chans ∧ (settleRegion r s).bridges = s.bridges ∧ (settleRegion r s).test = s.test
    ∧ (settleRegion r s).health = s.health := by
  unfold settleRegion
  simp

@[simp] theorem clearGranules_keeps (r : Region) (s : State) : (clearGranules r s).pending = s.pending ∧ (clearGranules r s).pins = s.pins ∧
    (clearGranules r s).ctl = s.ctl ∧ (clearGranules r s).pwr = s.pwr ∧ (clearGranules r s).otp = s.otp ∧ (clearGranules r s).flash = s.flash ∧
    (clearGranules r s).gateh = s.gateh ∧ (clearGranules r s).mbx = s.mbx ∧ (clearGranules r s).evt = s.evt ∧ (clearGranules r s).job = s.job ∧
    (clearGranules r s).chans = s.chans ∧ (clearGranules r s).plots = s.plots ∧ (clearGranules r s).flds = s.flds ∧ (clearGranules r s).grid =
    s.grid ∧ (clearGranules r s).bridges = s.bridges ∧ (clearGranules r s).links = s.links ∧ (clearGranules r s).mesh = s.mesh ∧ (clearGranules r
    s).test = s.test ∧ (clearGranules r s).health = s.health ∧ (clearGranules r s).free = s.free := by
  unfold clearGranules
  simp

@[simp] theorem pendClears_keeps (r : Region) (s : State) : (pendClears r s).pending = s.pending ∧ (pendClears r s).pins = s.pins ∧ (pendClears r
    s).ctl = s.ctl ∧ (pendClears r s).pwr = s.pwr ∧ (pendClears r s).otp = s.otp ∧ (pendClears r s).gateh = s.gateh ∧ (pendClears r s).mbx = s.mbx ∧
    (pendClears r s).evt = s.evt ∧ (pendClears r s).job = s.job ∧ (pendClears r s).chans = s.chans ∧ (pendClears r s).plots = s.plots ∧ (pendClears
    r s).flds = s.flds ∧ (pendClears r s).grid = s.grid ∧ (pendClears r s).bridges = s.bridges ∧ (pendClears r s).hbm = s.hbm ∧ (pendClears r
    s).links = s.links ∧ (pendClears r s).mesh = s.mesh ∧ (pendClears r s).test = s.test ∧ (pendClears r s).health = s.health ∧ (pendClears r
    s).free = s.free := by
  unfold pendClears
  simp

@[simp] theorem noteRegion_keeps (id : Nat) (s : State) : (noteRegion id s).pending = s.pending ∧ (noteRegion id s).pins = s.pins ∧ (noteRegion id
    s).ctl = s.ctl ∧ (noteRegion id s).pwr = s.pwr ∧ (noteRegion id s).otp = s.otp ∧ (noteRegion id s).gateh = s.gateh ∧ (noteRegion id s).mbx =
    s.mbx ∧ (noteRegion id s).job = s.job ∧ (noteRegion id s).chans = s.chans ∧ (noteRegion id s).plots = s.plots ∧ (noteRegion id s).flds = s.flds
    ∧ (noteRegion id s).grid = s.grid ∧ (noteRegion id s).bridges = s.bridges ∧ (noteRegion id s).hbm = s.hbm ∧ (noteRegion id s).links = s.links ∧
    (noteRegion id s).mesh = s.mesh ∧ (noteRegion id s).test = s.test ∧ (noteRegion id s).health = s.health ∧ (noteRegion id s).free = s.free := by
  unfold noteRegion
  (repeat' split) <;> simp

@[simp] theorem updRegion_keeps (id : Nat) (g : Region → Region) (s : State) : (updRegion id g s).pending = s.pending ∧ (updRegion id g s).pins =
    s.pins ∧ (updRegion id g s).ctl = s.ctl ∧ (updRegion id g s).pwr = s.pwr ∧ (updRegion id g s).otp = s.otp ∧ (updRegion id g s).flash = s.flash ∧
    (updRegion id g s).gateh = s.gateh ∧ (updRegion id g s).mbx = s.mbx ∧ (updRegion id g s).evt = s.evt ∧ (updRegion id g s).job = s.job ∧
    (updRegion id g s).chans = s.chans ∧ (updRegion id g s).plots = s.plots ∧ (updRegion id g s).flds = s.flds ∧ (updRegion id g s).grid = s.grid ∧
    (updRegion id g s).bridges = s.bridges ∧ (updRegion id g s).links = s.links ∧ (updRegion id g s).mesh = s.mesh ∧ (updRegion id g s).test =
    s.test ∧ (updRegion id g s).health = s.health ∧ (updRegion id g s).free = s.free := by
  unfold updRegion
  simp

@[simp] theorem loadKeys_keeps (s : State) : (loadKeys s).pending = s.pending ∧ (loadKeys s).pins = s.pins ∧ (loadKeys s).ctl = s.ctl ∧ (loadKeys
    s).pwr = s.pwr ∧ (loadKeys s).otp = s.otp ∧ (loadKeys s).flash = s.flash ∧ (loadKeys s).gateh = s.gateh ∧ (loadKeys s).mbx = s.mbx ∧ (loadKeys
    s).evt = s.evt ∧ (loadKeys s).job = s.job ∧ (loadKeys s).chans = s.chans ∧ (loadKeys s).plots = s.plots ∧ (loadKeys s).flds = s.flds ∧ (loadKeys
    s).grid = s.grid ∧ (loadKeys s).bridges = s.bridges ∧ (loadKeys s).links = s.links ∧ (loadKeys s).mesh = s.mesh ∧ (loadKeys s).test = s.test ∧
    (loadKeys s).health = s.health ∧ (loadKeys s).free = s.free := by
  unfold loadKeys
  simp

@[simp] theorem destroySlot_keeps (k : Nat) (s : State) : (destroySlot k s).pending = s.pending ∧ (destroySlot k s).pins = s.pins ∧ (destroySlot k
    s).ctl = s.ctl ∧ (destroySlot k s).pwr = s.pwr ∧ (destroySlot k s).otp = s.otp ∧ (destroySlot k s).flash = s.flash ∧ (destroySlot k s).mbx =
    s.mbx ∧ (destroySlot k s).evt = s.evt ∧ (destroySlot k s).job = s.job ∧ (destroySlot k s).chans = s.chans ∧ (destroySlot k s).plots = s.plots ∧
    (destroySlot k s).flds = s.flds ∧ (destroySlot k s).grid = s.grid ∧ (destroySlot k s).bridges = s.bridges ∧ (destroySlot k s).hbm = s.hbm ∧
    (destroySlot k s).links = s.links ∧ (destroySlot k s).mesh = s.mesh ∧ (destroySlot k s).test = s.test ∧ (destroySlot k s).health = s.health ∧
    (destroySlot k s).free = s.free := by
  unfold destroySlot
  simp

@[simp] theorem closeWindows_keeps (base size : Nat) (s : State) : (closeWindows base size s).pending = s.pending ∧ (closeWindows base size s).pins
    = s.pins ∧ (closeWindows base size s).ctl = s.ctl ∧ (closeWindows base size s).pwr = s.pwr ∧ (closeWindows base size s).otp = s.otp ∧
    (closeWindows base size s).flash = s.flash ∧ (closeWindows base size s).gateh = s.gateh ∧ (closeWindows base size s).mbx = s.mbx ∧ (closeWindows
    base size s).evt = s.evt ∧ (closeWindows base size s).job = s.job ∧ (closeWindows base size s).chans = s.chans ∧ (closeWindows base size
    s).plots = s.plots ∧ (closeWindows base size s).flds = s.flds ∧ (closeWindows base size s).grid = s.grid ∧ (closeWindows base size s).bridges =
    s.bridges ∧ (closeWindows base size s).hbm = s.hbm ∧ (closeWindows base size s).links = s.links ∧ (closeWindows base size s).test = s.test ∧
    (closeWindows base size s).health = s.health ∧ (closeWindows base size s).free = s.free := by
  unfold closeWindows
  simp

@[simp] theorem teardownRegion_keeps (id : Nat) (s : State) : (teardownRegion id s).pending = s.pending ∧ (teardownRegion id s).pins = s.pins ∧
    (teardownRegion id s).ctl = s.ctl ∧ (teardownRegion id s).pwr = s.pwr ∧ (teardownRegion id s).otp = s.otp ∧ (teardownRegion id s).mbx = s.mbx ∧
    (teardownRegion id s).job = s.job ∧ (teardownRegion id s).chans = s.chans ∧ (teardownRegion id s).bridges = s.bridges ∧ (teardownRegion id
    s).test = s.test ∧ (teardownRegion id s).health = s.health := by
  unfold teardownRegion
  dsimp only
  (repeat' split) <;> simp

@[simp] theorem teardownAll_keeps (ids : List Nat) (s : State) : (teardownAll ids s).pending = s.pending ∧ (teardownAll ids s).pins = s.pins ∧
    (teardownAll ids s).ctl = s.ctl ∧ (teardownAll ids s).pwr = s.pwr ∧ (teardownAll ids s).otp = s.otp ∧ (teardownAll ids s).mbx = s.mbx ∧
    (teardownAll ids s).job = s.job ∧ (teardownAll ids s).chans = s.chans ∧ (teardownAll ids s).bridges = s.bridges ∧ (teardownAll ids s).test =
    s.test ∧ (teardownAll ids s).health = s.health := by
  unfold teardownAll
  simp

/-! ## Pensyn -/

@[simp] theorem ok_keeps (payload : List Byte) (s : State) : (ok payload s).1.pending = s.pending ∧ (ok payload s).1.pins = s.pins ∧ (ok payload
    s).1.ctl = s.ctl ∧ (ok payload s).1.pwr = s.pwr ∧ (ok payload s).1.otp = s.otp ∧ (ok payload s).1.flash = s.flash ∧ (ok payload s).1.gateh =
    s.gateh ∧ (ok payload s).1.mbx = s.mbx ∧ (ok payload s).1.evt = s.evt ∧ (ok payload s).1.job = s.job ∧ (ok payload s).1.chans = s.chans ∧ (ok
    payload s).1.plots = s.plots ∧ (ok payload s).1.flds = s.flds ∧ (ok payload s).1.grid = s.grid ∧ (ok payload s).1.bridges = s.bridges ∧ (ok
    payload s).1.hbm = s.hbm ∧ (ok payload s).1.links = s.links ∧ (ok payload s).1.mesh = s.mesh ∧ (ok payload s).1.test = s.test ∧ (ok payload
    s).1.health = s.health ∧ (ok payload s).1.free = s.free := by
  unfold ok
  simp

@[simp] theorem answer_keeps (status : Nat) (s : State) : (answer status s).1.pending = s.pending ∧ (answer status s).1.pins = s.pins ∧ (answer
    status s).1.ctl = s.ctl ∧ (answer status s).1.pwr = s.pwr ∧ (answer status s).1.otp = s.otp ∧ (answer status s).1.flash = s.flash ∧ (answer
    status s).1.gateh = s.gateh ∧ (answer status s).1.mbx = s.mbx ∧ (answer status s).1.evt = s.evt ∧ (answer status s).1.job = s.job ∧ (answer
    status s).1.chans = s.chans ∧ (answer status s).1.plots = s.plots ∧ (answer status s).1.flds = s.flds ∧ (answer status s).1.grid = s.grid ∧
    (answer status s).1.bridges = s.bridges ∧ (answer status s).1.hbm = s.hbm ∧ (answer status s).1.links = s.links ∧ (answer status s).1.mesh =
    s.mesh ∧ (answer status s).1.test = s.test ∧ (answer status s).1.health = s.health ∧ (answer status s).1.free = s.free := by
  unfold answer
  simp

@[simp] theorem verifyFailed_keeps (d : Diag) (s : State) : (verifyFailed d s).1.pending = s.pending ∧ (verifyFailed d s).1.pins = s.pins ∧
    (verifyFailed d s).1.ctl = s.ctl ∧ (verifyFailed d s).1.pwr = s.pwr ∧ (verifyFailed d s).1.otp = s.otp ∧ (verifyFailed d s).1.flash = s.flash ∧
    (verifyFailed d s).1.gateh = s.gateh ∧ (verifyFailed d s).1.mbx = s.mbx ∧ (verifyFailed d s).1.evt = s.evt ∧ (verifyFailed d s).1.job = s.job ∧
    (verifyFailed d s).1.chans = s.chans ∧ (verifyFailed d s).1.plots = s.plots ∧ (verifyFailed d s).1.flds = s.flds ∧ (verifyFailed d s).1.grid =
    s.grid ∧ (verifyFailed d s).1.bridges = s.bridges ∧ (verifyFailed d s).1.hbm = s.hbm ∧ (verifyFailed d s).1.links = s.links ∧ (verifyFailed d
    s).1.mesh = s.mesh ∧ (verifyFailed d s).1.test = s.test ∧ (verifyFailed d s).1.health = s.health ∧ (verifyFailed d s).1.free = s.free := by
  unfold verifyFailed
  simp

@[simp] theorem signatureFailed_keeps (d : Diag) (s : State) : (signatureFailed d s).1.pending = s.pending ∧ (signatureFailed d s).1.pins = s.pins ∧
    (signatureFailed d s).1.ctl = s.ctl ∧ (signatureFailed d s).1.pwr = s.pwr ∧ (signatureFailed d s).1.otp = s.otp ∧ (signatureFailed d s).1.flash
    = s.flash ∧ (signatureFailed d s).1.gateh = s.gateh ∧ (signatureFailed d s).1.mbx = s.mbx ∧ (signatureFailed d s).1.evt = s.evt ∧
    (signatureFailed d s).1.job = s.job ∧ (signatureFailed d s).1.chans = s.chans ∧ (signatureFailed d s).1.plots = s.plots ∧ (signatureFailed d
    s).1.flds = s.flds ∧ (signatureFailed d s).1.grid = s.grid ∧ (signatureFailed d s).1.bridges = s.bridges ∧ (signatureFailed d s).1.hbm = s.hbm ∧
    (signatureFailed d s).1.links = s.links ∧ (signatureFailed d s).1.mesh = s.mesh ∧ (signatureFailed d s).1.test = s.test ∧ (signatureFailed d
    s).1.health = s.health ∧ (signatureFailed d s).1.free = s.free := by
  unfold signatureFailed
  simp

@[simp] theorem okClamped_keeps (cs : List Clamped) (payload : List Byte) (s : State) : (okClamped cs payload s).1.pending = s.pending ∧ (okClamped
    cs payload s).1.pins = s.pins ∧ (okClamped cs payload s).1.ctl = s.ctl ∧ (okClamped cs payload s).1.pwr = s.pwr ∧ (okClamped cs payload s).1.otp
    = s.otp ∧ (okClamped cs payload s).1.flash = s.flash ∧ (okClamped cs payload s).1.gateh = s.gateh ∧ (okClamped cs payload s).1.mbx = s.mbx ∧
    (okClamped cs payload s).1.evt = s.evt ∧ (okClamped cs payload s).1.job = s.job ∧ (okClamped cs payload s).1.chans = s.chans ∧ (okClamped cs
    payload s).1.plots = s.plots ∧ (okClamped cs payload s).1.flds = s.flds ∧ (okClamped cs payload s).1.grid = s.grid ∧ (okClamped cs payload
    s).1.bridges = s.bridges ∧ (okClamped cs payload s).1.hbm = s.hbm ∧ (okClamped cs payload s).1.links = s.links ∧ (okClamped cs payload s).1.mesh
    = s.mesh ∧ (okClamped cs payload s).1.test = s.test ∧ (okClamped cs payload s).1.health = s.health ∧ (okClamped cs payload s).1.free = s.free :=
    by
  unfold okClamped
  simp

@[simp] theorem respond_keeps (h : Hdr) (code : Nat) (r : Reply) (s : State) : (respond h code r s).pending = s.pending ∧ (respond h code r s).pins
    = s.pins ∧ (respond h code r s).ctl = s.ctl ∧ (respond h code r s).pwr = s.pwr ∧ (respond h code r s).otp = s.otp ∧ (respond h code r s).flash =
    s.flash ∧ (respond h code r s).gateh = s.gateh ∧ (respond h code r s).evt = s.evt ∧ (respond h code r s).job = s.job ∧ (respond h code r
    s).chans = s.chans ∧ (respond h code r s).plots = s.plots ∧ (respond h code r s).flds = s.flds ∧ (respond h code r s).grid = s.grid ∧ (respond h
    code r s).bridges = s.bridges ∧ (respond h code r s).hbm = s.hbm ∧ (respond h code r s).links = s.links ∧ (respond h code r s).mesh = s.mesh ∧
    (respond h code r s).test = s.test ∧ (respond h code r s).health = s.health ∧ (respond h code r s).free = s.free := by
  unfold respond
  simp

@[simp] theorem accept_keeps (h : Hdr) (s : State) : (accept h s).pending = s.pending ∧ (accept h s).pins = s.pins ∧ (accept h s).ctl = s.ctl ∧
    (accept h s).pwr = s.pwr ∧ (accept h s).otp = s.otp ∧ (accept h s).flash = s.flash ∧ (accept h s).mbx = s.mbx ∧ (accept h s).evt = s.evt ∧
    (accept h s).job = s.job ∧ (accept h s).chans = s.chans ∧ (accept h s).plots = s.plots ∧ (accept h s).flds = s.flds ∧ (accept h s).grid = s.grid
    ∧ (accept h s).bridges = s.bridges ∧ (accept h s).hbm = s.hbm ∧ (accept h s).links = s.links ∧ (accept h s).mesh = s.mesh ∧ (accept h s).test =
    s.test ∧ (accept h s).health = s.health ∧ (accept h s).free = s.free := by
  unfold accept
  (repeat' split) <;> simp

@[simp] theorem discard_keeps (s : State) : (discard s).pending = s.pending ∧ (discard s).pins = s.pins ∧ (discard s).ctl = s.ctl ∧ (discard s).pwr
    = s.pwr ∧ (discard s).otp = s.otp ∧ (discard s).flash = s.flash ∧ (discard s).mbx = s.mbx ∧ (discard s).evt = s.evt ∧ (discard s).job = s.job ∧
    (discard s).chans = s.chans ∧ (discard s).plots = s.plots ∧ (discard s).flds = s.flds ∧ (discard s).grid = s.grid ∧ (discard s).bridges =
    s.bridges ∧ (discard s).hbm = s.hbm ∧ (discard s).links = s.links ∧ (discard s).mesh = s.mesh ∧ (discard s).test = s.test ∧ (discard s).health =
    s.health ∧ (discard s).free = s.free := by
  unfold discard
  simp

@[simp] theorem requestThen_pending (h : Hdr) (c : Cmd) (body : State → Ans) (after : State → State) (s : State) (h1 : ∀ t, (body t).1.pending =
    t.pending) (h2 : ∀ t, (after t).pending = t.pending) : (requestThen h c body after s).pending = s.pending := by
  unfold requestThen
  dsimp only
  (repeat' split) <;> simp [h1, h2]

@[simp] theorem requestThen_pins (h : Hdr) (c : Cmd) (body : State → Ans) (after : State → State) (s : State) (h1 : ∀ t, (body t).1.pins = t.pins)
    (h2 : ∀ t, (after t).pins = t.pins) : (requestThen h c body after s).pins = s.pins := by
  unfold requestThen
  dsimp only
  (repeat' split) <;> simp [h1, h2]

@[simp] theorem requestThen_ctl (h : Hdr) (c : Cmd) (body : State → Ans) (after : State → State) (s : State) (h1 : ∀ t, (body t).1.ctl = t.ctl) (h2
    : ∀ t, (after t).ctl = t.ctl) : (requestThen h c body after s).ctl = s.ctl := by
  unfold requestThen
  dsimp only
  (repeat' split) <;> simp [h1, h2]

@[simp] theorem requestThen_pwr (h : Hdr) (c : Cmd) (body : State → Ans) (after : State → State) (s : State) (h1 : ∀ t, (body t).1.pwr = t.pwr) (h2
    : ∀ t, (after t).pwr = t.pwr) : (requestThen h c body after s).pwr = s.pwr := by
  unfold requestThen
  dsimp only
  (repeat' split) <;> simp [h1, h2]

@[simp] theorem requestThen_otp (h : Hdr) (c : Cmd) (body : State → Ans) (after : State → State) (s : State) (h1 : ∀ t, (body t).1.otp = t.otp) (h2
    : ∀ t, (after t).otp = t.otp) : (requestThen h c body after s).otp = s.otp := by
  unfold requestThen
  dsimp only
  (repeat' split) <;> simp [h1, h2]

@[simp] theorem requestThen_flash (h : Hdr) (c : Cmd) (body : State → Ans) (after : State → State) (s : State) (h1 : ∀ t, (body t).1.flash =
    t.flash) (h2 : ∀ t, (after t).flash = t.flash) : (requestThen h c body after s).flash = s.flash := by
  unfold requestThen
  dsimp only
  (repeat' split) <;> simp [h1, h2]

@[simp] theorem requestThen_evt (h : Hdr) (c : Cmd) (body : State → Ans) (after : State → State) (s : State) (h1 : ∀ t, (body t).1.evt = t.evt) (h2
    : ∀ t, (after t).evt = t.evt) : (requestThen h c body after s).evt = s.evt := by
  unfold requestThen
  dsimp only
  (repeat' split) <;> simp [h1, h2]

@[simp] theorem requestThen_job (h : Hdr) (c : Cmd) (body : State → Ans) (after : State → State) (s : State) (h1 : ∀ t, (body t).1.job = t.job) (h2
    : ∀ t, (after t).job = t.job) : (requestThen h c body after s).job = s.job := by
  unfold requestThen
  dsimp only
  (repeat' split) <;> simp [h1, h2]

@[simp] theorem requestThen_chans (h : Hdr) (c : Cmd) (body : State → Ans) (after : State → State) (s : State) (h1 : ∀ t, (body t).1.chans =
    t.chans) (h2 : ∀ t, (after t).chans = t.chans) : (requestThen h c body after s).chans = s.chans := by
  unfold requestThen
  dsimp only
  (repeat' split) <;> simp [h1, h2]

@[simp] theorem requestThen_plots (h : Hdr) (c : Cmd) (body : State → Ans) (after : State → State) (s : State) (h1 : ∀ t, (body t).1.plots =
    t.plots) (h2 : ∀ t, (after t).plots = t.plots) : (requestThen h c body after s).plots = s.plots := by
  unfold requestThen
  dsimp only
  (repeat' split) <;> simp [h1, h2]

@[simp] theorem requestThen_flds (h : Hdr) (c : Cmd) (body : State → Ans) (after : State → State) (s : State) (h1 : ∀ t, (body t).1.flds = t.flds)
    (h2 : ∀ t, (after t).flds = t.flds) : (requestThen h c body after s).flds = s.flds := by
  unfold requestThen
  dsimp only
  (repeat' split) <;> simp [h1, h2]

@[simp] theorem requestThen_grid (h : Hdr) (c : Cmd) (body : State → Ans) (after : State → State) (s : State) (h1 : ∀ t, (body t).1.grid = t.grid)
    (h2 : ∀ t, (after t).grid = t.grid) : (requestThen h c body after s).grid = s.grid := by
  unfold requestThen
  dsimp only
  (repeat' split) <;> simp [h1, h2]

@[simp] theorem requestThen_bridges (h : Hdr) (c : Cmd) (body : State → Ans) (after : State → State) (s : State) (h1 : ∀ t, (body t).1.bridges =
    t.bridges) (h2 : ∀ t, (after t).bridges = t.bridges) : (requestThen h c body after s).bridges = s.bridges := by
  unfold requestThen
  dsimp only
  (repeat' split) <;> simp [h1, h2]

@[simp] theorem requestThen_hbm (h : Hdr) (c : Cmd) (body : State → Ans) (after : State → State) (s : State) (h1 : ∀ t, (body t).1.hbm = t.hbm) (h2
    : ∀ t, (after t).hbm = t.hbm) : (requestThen h c body after s).hbm = s.hbm := by
  unfold requestThen
  dsimp only
  (repeat' split) <;> simp [h1, h2]

@[simp] theorem requestThen_links (h : Hdr) (c : Cmd) (body : State → Ans) (after : State → State) (s : State) (h1 : ∀ t, (body t).1.links =
    t.links) (h2 : ∀ t, (after t).links = t.links) : (requestThen h c body after s).links = s.links := by
  unfold requestThen
  dsimp only
  (repeat' split) <;> simp [h1, h2]

@[simp] theorem requestThen_mesh (h : Hdr) (c : Cmd) (body : State → Ans) (after : State → State) (s : State) (h1 : ∀ t, (body t).1.mesh = t.mesh)
    (h2 : ∀ t, (after t).mesh = t.mesh) : (requestThen h c body after s).mesh = s.mesh := by
  unfold requestThen
  dsimp only
  (repeat' split) <;> simp [h1, h2]

@[simp] theorem requestThen_test (h : Hdr) (c : Cmd) (body : State → Ans) (after : State → State) (s : State) (h1 : ∀ t, (body t).1.test = t.test)
    (h2 : ∀ t, (after t).test = t.test) : (requestThen h c body after s).test = s.test := by
  unfold requestThen
  dsimp only
  (repeat' split) <;> simp [h1, h2]

@[simp] theorem requestThen_health (h : Hdr) (c : Cmd) (body : State → Ans) (after : State → State) (s : State) (h1 : ∀ t, (body t).1.health =
    t.health) (h2 : ∀ t, (after t).health = t.health) : (requestThen h c body after s).health = s.health := by
  unfold requestThen
  dsimp only
  (repeat' split) <;> simp [h1, h2]

@[simp] theorem requestThen_free (h : Hdr) (c : Cmd) (body : State → Ans) (after : State → State) (s : State) (h1 : ∀ t, (body t).1.free = t.free)
    (h2 : ∀ t, (after t).free = t.free) : (requestThen h c body after s).free = s.free := by
  unfold requestThen
  dsimp only
  (repeat' split) <;> simp [h1, h2]

@[simp] theorem request_pending (h : Hdr) (c : Cmd) (body : State → Ans) (s : State) (h1 : ∀ t, (body t).1.pending = t.pending) : (request h c body
    s).pending = s.pending := by
  unfold request
  simp [h1]

@[simp] theorem request_pins (h : Hdr) (c : Cmd) (body : State → Ans) (s : State) (h1 : ∀ t, (body t).1.pins = t.pins) : (request h c body s).pins =
    s.pins := by
  unfold request
  simp [h1]

@[simp] theorem request_ctl (h : Hdr) (c : Cmd) (body : State → Ans) (s : State) (h1 : ∀ t, (body t).1.ctl = t.ctl) : (request h c body s).ctl =
    s.ctl := by
  unfold request
  simp [h1]

@[simp] theorem request_pwr (h : Hdr) (c : Cmd) (body : State → Ans) (s : State) (h1 : ∀ t, (body t).1.pwr = t.pwr) : (request h c body s).pwr =
    s.pwr := by
  unfold request
  simp [h1]

@[simp] theorem request_otp (h : Hdr) (c : Cmd) (body : State → Ans) (s : State) (h1 : ∀ t, (body t).1.otp = t.otp) : (request h c body s).otp =
    s.otp := by
  unfold request
  simp [h1]

@[simp] theorem request_flash (h : Hdr) (c : Cmd) (body : State → Ans) (s : State) (h1 : ∀ t, (body t).1.flash = t.flash) : (request h c body
    s).flash = s.flash := by
  unfold request
  simp [h1]

@[simp] theorem request_evt (h : Hdr) (c : Cmd) (body : State → Ans) (s : State) (h1 : ∀ t, (body t).1.evt = t.evt) : (request h c body s).evt =
    s.evt := by
  unfold request
  simp [h1]

@[simp] theorem request_job (h : Hdr) (c : Cmd) (body : State → Ans) (s : State) (h1 : ∀ t, (body t).1.job = t.job) : (request h c body s).job =
    s.job := by
  unfold request
  simp [h1]

@[simp] theorem request_chans (h : Hdr) (c : Cmd) (body : State → Ans) (s : State) (h1 : ∀ t, (body t).1.chans = t.chans) : (request h c body
    s).chans = s.chans := by
  unfold request
  simp [h1]

@[simp] theorem request_plots (h : Hdr) (c : Cmd) (body : State → Ans) (s : State) (h1 : ∀ t, (body t).1.plots = t.plots) : (request h c body
    s).plots = s.plots := by
  unfold request
  simp [h1]

@[simp] theorem request_flds (h : Hdr) (c : Cmd) (body : State → Ans) (s : State) (h1 : ∀ t, (body t).1.flds = t.flds) : (request h c body s).flds =
    s.flds := by
  unfold request
  simp [h1]

@[simp] theorem request_grid (h : Hdr) (c : Cmd) (body : State → Ans) (s : State) (h1 : ∀ t, (body t).1.grid = t.grid) : (request h c body s).grid =
    s.grid := by
  unfold request
  simp [h1]

@[simp] theorem request_bridges (h : Hdr) (c : Cmd) (body : State → Ans) (s : State) (h1 : ∀ t, (body t).1.bridges = t.bridges) : (request h c body
    s).bridges = s.bridges := by
  unfold request
  simp [h1]

@[simp] theorem request_hbm (h : Hdr) (c : Cmd) (body : State → Ans) (s : State) (h1 : ∀ t, (body t).1.hbm = t.hbm) : (request h c body s).hbm =
    s.hbm := by
  unfold request
  simp [h1]

@[simp] theorem request_links (h : Hdr) (c : Cmd) (body : State → Ans) (s : State) (h1 : ∀ t, (body t).1.links = t.links) : (request h c body
    s).links = s.links := by
  unfold request
  simp [h1]

@[simp] theorem request_mesh (h : Hdr) (c : Cmd) (body : State → Ans) (s : State) (h1 : ∀ t, (body t).1.mesh = t.mesh) : (request h c body s).mesh =
    s.mesh := by
  unfold request
  simp [h1]

@[simp] theorem request_test (h : Hdr) (c : Cmd) (body : State → Ans) (s : State) (h1 : ∀ t, (body t).1.test = t.test) : (request h c body s).test =
    s.test := by
  unfold request
  simp [h1]

@[simp] theorem request_health (h : Hdr) (c : Cmd) (body : State → Ans) (s : State) (h1 : ∀ t, (body t).1.health = t.health) : (request h c body
    s).health = s.health := by
  unfold request
  simp [h1]

@[simp] theorem request_free (h : Hdr) (c : Cmd) (body : State → Ans) (s : State) (h1 : ∀ t, (body t).1.free = t.free) : (request h c body s).free =
    s.free := by
  unfold request
  simp [h1]

@[simp] theorem unknownCommand_keeps (h : Hdr) (code : Nat) (s : State) : (unknownCommand h code s).pending = s.pending ∧ (unknownCommand h code
    s).pins = s.pins ∧ (unknownCommand h code s).ctl = s.ctl ∧ (unknownCommand h code s).pwr = s.pwr ∧ (unknownCommand h code s).otp = s.otp ∧
    (unknownCommand h code s).flash = s.flash ∧ (unknownCommand h code s).evt = s.evt ∧ (unknownCommand h code s).job = s.job ∧ (unknownCommand h
    code s).chans = s.chans ∧ (unknownCommand h code s).plots = s.plots ∧ (unknownCommand h code s).flds = s.flds ∧ (unknownCommand h code s).grid =
    s.grid ∧ (unknownCommand h code s).bridges = s.bridges ∧ (unknownCommand h code s).hbm = s.hbm ∧ (unknownCommand h code s).links = s.links ∧
    (unknownCommand h code s).mesh = s.mesh ∧ (unknownCommand h code s).test = s.test ∧ (unknownCommand h code s).health = s.health ∧
    (unknownCommand h code s).free = s.free := by
  unfold unknownCommand
  (repeat' split) <;> simp

/-! ## Memory -/

@[simp] theorem defineRegion_keeps (id : Nat) (r : Region) (s : State) : (defineRegion id r s).pending = s.pending ∧ (defineRegion id r s).pins =
    s.pins ∧ (defineRegion id r s).ctl = s.ctl ∧ (defineRegion id r s).pwr = s.pwr ∧ (defineRegion id r s).otp = s.otp ∧ (defineRegion id r s).flash
    = s.flash ∧ (defineRegion id r s).mbx = s.mbx ∧ (defineRegion id r s).evt = s.evt ∧ (defineRegion id r s).job = s.job ∧ (defineRegion id r
    s).chans = s.chans ∧ (defineRegion id r s).plots = s.plots ∧ (defineRegion id r s).flds = s.flds ∧ (defineRegion id r s).grid = s.grid ∧
    (defineRegion id r s).bridges = s.bridges ∧ (defineRegion id r s).links = s.links ∧ (defineRegion id r s).mesh = s.mesh ∧ (defineRegion id r
    s).test = s.test ∧ (defineRegion id r s).health = s.health := by
  unfold defineRegion
  simp

@[simp] theorem copyWord_keeps (x : Nat) (e : WordErrors) (s : State) : (copyWord x e s).pending = s.pending ∧ (copyWord x e s).pins = s.pins ∧
    (copyWord x e s).ctl = s.ctl ∧ (copyWord x e s).pwr = s.pwr ∧ (copyWord x e s).otp = s.otp ∧ (copyWord x e s).gateh = s.gateh ∧ (copyWord x e
    s).mbx = s.mbx ∧ (copyWord x e s).job = s.job ∧ (copyWord x e s).chans = s.chans ∧ (copyWord x e s).plots = s.plots ∧ (copyWord x e s).grid =
    s.grid ∧ (copyWord x e s).bridges = s.bridges ∧ (copyWord x e s).links = s.links ∧ (copyWord x e s).mesh = s.mesh ∧ (copyWord x e s).test =
    s.test ∧ (copyWord x e s).health = s.health ∧ (copyWord x e s).free = s.free := by
  unfold copyWord
  (repeat' split) <;> simp

@[simp] theorem copyWords_keeps (moves : Nat → Bool) (errors : Tab WordErrors) (s : State) : (copyWords moves errors s).pending = s.pending ∧
    (copyWords moves errors s).pins = s.pins ∧ (copyWords moves errors s).ctl = s.ctl ∧ (copyWords moves errors s).pwr = s.pwr ∧ (copyWords moves
    errors s).otp = s.otp ∧ (copyWords moves errors s).gateh = s.gateh ∧ (copyWords moves errors s).mbx = s.mbx ∧ (copyWords moves errors s).job =
    s.job ∧ (copyWords moves errors s).chans = s.chans ∧ (copyWords moves errors s).plots = s.plots ∧ (copyWords moves errors s).grid = s.grid ∧
    (copyWords moves errors s).bridges = s.bridges ∧ (copyWords moves errors s).links = s.links ∧ (copyWords moves errors s).mesh = s.mesh ∧
    (copyWords moves errors s).test = s.test ∧ (copyWords moves errors s).health = s.health ∧ (copyWords moves errors s).free = s.free := by
  unfold copyWords
  simp

@[simp] theorem waitOnFill_keeps (g f rid : Nat) (s : State) : (waitOnFill g f rid s).pending = s.pending ∧ (waitOnFill g f rid s).pins = s.pins ∧
    (waitOnFill g f rid s).ctl = s.ctl ∧ (waitOnFill g f rid s).pwr = s.pwr ∧ (waitOnFill g f rid s).otp = s.otp ∧ (waitOnFill g f rid s).flash =
    s.flash ∧ (waitOnFill g f rid s).gateh = s.gateh ∧ (waitOnFill g f rid s).mbx = s.mbx ∧ (waitOnFill g f rid s).evt = s.evt ∧ (waitOnFill g f rid
    s).job = s.job ∧ (waitOnFill g f rid s).chans = s.chans ∧ (waitOnFill g f rid s).plots = s.plots ∧ (waitOnFill g f rid s).flds = s.flds ∧
    (waitOnFill g f rid s).grid = s.grid ∧ (waitOnFill g f rid s).bridges = s.bridges ∧ (waitOnFill g f rid s).links = s.links ∧ (waitOnFill g f rid
    s).mesh = s.mesh ∧ (waitOnFill g f rid s).test = s.test ∧ (waitOnFill g f rid s).health = s.health ∧ (waitOnFill g f rid s).free = s.free := by
  unfold waitOnFill
  simp

@[simp] theorem atomicAt_keeps (id : Nat) (r : Region) (addr n : Nat) (f : Nat → Nat) (e : WordErrors) (s : State) : (atomicAt id r addr n f e
    s).1.pending = s.pending ∧ (atomicAt id r addr n f e s).1.pins = s.pins ∧ (atomicAt id r addr n f e s).1.ctl = s.ctl ∧ (atomicAt id r addr n f e
    s).1.pwr = s.pwr ∧ (atomicAt id r addr n f e s).1.otp = s.otp ∧ (atomicAt id r addr n f e s).1.mbx = s.mbx ∧ (atomicAt id r addr n f e s).1.job
    = s.job ∧ (atomicAt id r addr n f e s).1.chans = s.chans ∧ (atomicAt id r addr n f e s).1.bridges = s.bridges ∧ (atomicAt id r addr n f e
    s).1.test = s.test ∧ (atomicAt id r addr n f e s).1.health = s.health := by
  unfold atomicAt
  dsimp only
  (repeat' split) <;> simp

@[simp] theorem atomicAnswer_keeps (old : Nat) (poison : Bool) (s : State) : (atomicAnswer old poison s).pending = s.pending ∧ (atomicAnswer old
    poison s).pins = s.pins ∧ (atomicAnswer old poison s).ctl = s.ctl ∧ (atomicAnswer old poison s).pwr = s.pwr ∧ (atomicAnswer old poison s).otp =
    s.otp ∧ (atomicAnswer old poison s).flash = s.flash ∧ (atomicAnswer old poison s).gateh = s.gateh ∧ (atomicAnswer old poison s).mbx = s.mbx ∧
    (atomicAnswer old poison s).evt = s.evt ∧ (atomicAnswer old poison s).job = s.job ∧ (atomicAnswer old poison s).chans = s.chans ∧ (atomicAnswer
    old poison s).plots = s.plots ∧ (atomicAnswer old poison s).flds = s.flds ∧ (atomicAnswer old poison s).grid = s.grid ∧ (atomicAnswer old poison
    s).bridges = s.bridges ∧ (atomicAnswer old poison s).links = s.links ∧ (atomicAnswer old poison s).mesh = s.mesh ∧ (atomicAnswer old poison
    s).test = s.test ∧ (atomicAnswer old poison s).health = s.health ∧ (atomicAnswer old poison s).free = s.free := by
  unfold atomicAnswer
  simp

@[simp] theorem atomicRow_keeps (q : AtomicAddr) (n : Nat) (f : Nat → Nat) (e : WordErrors) (s : State) : (atomicRow q n f e s).pending = s.pending
    ∧ (atomicRow q n f e s).pins = s.pins ∧ (atomicRow q n f e s).ctl = s.ctl ∧ (atomicRow q n f e s).pwr = s.pwr ∧ (atomicRow q n f e s).otp =
    s.otp ∧ (atomicRow q n f e s).mbx = s.mbx ∧ (atomicRow q n f e s).job = s.job ∧ (atomicRow q n f e s).chans = s.chans ∧ (atomicRow q n f e
    s).bridges = s.bridges ∧ (atomicRow q n f e s).test = s.test ∧ (atomicRow q n f e s).health = s.health := by
  unfold atomicRow
  (repeat' split) <;> simp

/-! ## Links -/

@[simp] theorem trainPort_keeps (i by_ : Nat) (quick : Bool) (r : TrainResult) (s : State) : (trainPort i by_ quick r s).pending = s.pending ∧
    (trainPort i by_ quick r s).pins = s.pins ∧ (trainPort i by_ quick r s).ctl = s.ctl ∧ (trainPort i by_ quick r s).pwr = s.pwr ∧ (trainPort i by_
    quick r s).otp = s.otp ∧ (trainPort i by_ quick r s).gateh = s.gateh ∧ (trainPort i by_ quick r s).mbx = s.mbx ∧ (trainPort i by_ quick r s).job
    = s.job ∧ (trainPort i by_ quick r s).chans = s.chans ∧ (trainPort i by_ quick r s).plots = s.plots ∧ (trainPort i by_ quick r s).flds = s.flds
    ∧ (trainPort i by_ quick r s).grid = s.grid ∧ (trainPort i by_ quick r s).bridges = s.bridges ∧ (trainPort i by_ quick r s).hbm = s.hbm ∧
    (trainPort i by_ quick r s).mesh = s.mesh ∧ (trainPort i by_ quick r s).test = s.test ∧ (trainPort i by_ quick r s).health = s.health ∧
    (trainPort i by_ quick r s).free = s.free := by
  unfold trainPort
  dsimp only
  (repeat' split) <;> simp

@[simp] theorem finishTraining_keeps (port : Nat) (late : Bool) (r : TrainResult) (s : State) : (finishTraining port late r s).pending = s.pending ∧
    (finishTraining port late r s).pins = s.pins ∧ (finishTraining port late r s).pwr = s.pwr ∧ (finishTraining port late r s).otp = s.otp ∧
    (finishTraining port late r s).gateh = s.gateh ∧ (finishTraining port late r s).mbx = s.mbx ∧ (finishTraining port late r s).job = s.job ∧
    (finishTraining port late r s).chans = s.chans ∧ (finishTraining port late r s).plots = s.plots ∧ (finishTraining port late r s).flds = s.flds ∧
    (finishTraining port late r s).grid = s.grid ∧ (finishTraining port late r s).bridges = s.bridges ∧ (finishTraining port late r s).hbm = s.hbm ∧
    (finishTraining port late r s).mesh = s.mesh ∧ (finishTraining port late r s).test = s.test ∧ (finishTraining port late r s).health = s.health ∧
    (finishTraining port late r s).free = s.free := by
  unfold finishTraining
  (repeat' split) <;> simp

@[simp] theorem stopTraining_keeps (port reason : Nat) (s : State) : (stopTraining port reason s).pending = s.pending ∧ (stopTraining port reason
    s).pins = s.pins ∧ (stopTraining port reason s).pwr = s.pwr ∧ (stopTraining port reason s).otp = s.otp ∧ (stopTraining port reason s).mbx =
    s.mbx ∧ (stopTraining port reason s).job = s.job ∧ (stopTraining port reason s).chans = s.chans ∧ (stopTraining port reason s).bridges =
    s.bridges ∧ (stopTraining port reason s).hbm = s.hbm ∧ (stopTraining port reason s).test = s.test ∧ (stopTraining port reason s).health =
    s.health ∧ (stopTraining port reason s).free = s.free := by
  unfold stopTraining
  (repeat' split) <;> simp

@[simp] theorem forwardPkt_keeps (port : Nat) (source : Option Nat) (p : Pkt) (s : State) : (forwardPkt port source p s).pending = s.pending ∧
    (forwardPkt port source p s).pins = s.pins ∧ (forwardPkt port source p s).ctl = s.ctl ∧ (forwardPkt port source p s).pwr = s.pwr ∧ (forwardPkt
    port source p s).otp = s.otp ∧ (forwardPkt port source p s).gateh = s.gateh ∧ (forwardPkt port source p s).mbx = s.mbx ∧ (forwardPkt port source
    p s).job = s.job ∧ (forwardPkt port source p s).chans = s.chans ∧ (forwardPkt port source p s).plots = s.plots ∧ (forwardPkt port source p
    s).flds = s.flds ∧ (forwardPkt port source p s).grid = s.grid ∧ (forwardPkt port source p s).bridges = s.bridges ∧ (forwardPkt port source p
    s).hbm = s.hbm ∧ (forwardPkt port source p s).test = s.test ∧ (forwardPkt port source p s).health = s.health ∧ (forwardPkt port source p s).free
    = s.free := by
  unfold forwardPkt
  (repeat' split) <;> simp

@[simp] theorem keepPkt_keeps (port flits : Nat) (p : Pkt) (s : State) : (keepPkt port flits p s).pending = s.pending ∧ (keepPkt port flits p
    s).pins = s.pins ∧ (keepPkt port flits p s).ctl = s.ctl ∧ (keepPkt port flits p s).pwr = s.pwr ∧ (keepPkt port flits p s).otp = s.otp ∧ (keepPkt
    port flits p s).flash = s.flash ∧ (keepPkt port flits p s).gateh = s.gateh ∧ (keepPkt port flits p s).mbx = s.mbx ∧ (keepPkt port flits p s).evt
    = s.evt ∧ (keepPkt port flits p s).job = s.job ∧ (keepPkt port flits p s).chans = s.chans ∧ (keepPkt port flits p s).plots = s.plots ∧ (keepPkt
    port flits p s).flds = s.flds ∧ (keepPkt port flits p s).grid = s.grid ∧ (keepPkt port flits p s).bridges = s.bridges ∧ (keepPkt port flits p
    s).hbm = s.hbm ∧ (keepPkt port flits p s).links = s.links ∧ (keepPkt port flits p s).test = s.test ∧ (keepPkt port flits p s).health = s.health
    ∧ (keepPkt port flits p s).free = s.free := by
  unfold keepPkt
  simp

@[simp] theorem takePkt_keeps (port flits : Nat) (p : Pkt) (s : State) : (takePkt port flits p s).pending = s.pending ∧ (takePkt port flits p
    s).pins = s.pins ∧ (takePkt port flits p s).ctl = s.ctl ∧ (takePkt port flits p s).pwr = s.pwr ∧ (takePkt port flits p s).otp = s.otp ∧ (takePkt
    port flits p s).gateh = s.gateh ∧ (takePkt port flits p s).mbx = s.mbx ∧ (takePkt port flits p s).job = s.job ∧ (takePkt port flits p s).chans =
    s.chans ∧ (takePkt port flits p s).plots = s.plots ∧ (takePkt port flits p s).flds = s.flds ∧ (takePkt port flits p s).grid = s.grid ∧ (takePkt
    port flits p s).bridges = s.bridges ∧ (takePkt port flits p s).hbm = s.hbm ∧ (takePkt port flits p s).test = s.test ∧ (takePkt port flits p
    s).health = s.health ∧ (takePkt port flits p s).free = s.free := by
  unfold takePkt
  (repeat' split) <;> simp

@[simp] theorem dropFlit_keeps (port cls : Nat) (count : Port → Port) (s : State) : (dropFlit port cls count s).pending = s.pending ∧ (dropFlit port
    cls count s).pins = s.pins ∧ (dropFlit port cls count s).ctl = s.ctl ∧ (dropFlit port cls count s).pwr = s.pwr ∧ (dropFlit port cls count s).otp
    = s.otp ∧ (dropFlit port cls count s).flash = s.flash ∧ (dropFlit port cls count s).gateh = s.gateh ∧ (dropFlit port cls count s).mbx = s.mbx ∧
    (dropFlit port cls count s).evt = s.evt ∧ (dropFlit port cls count s).job = s.job ∧ (dropFlit port cls count s).chans = s.chans ∧ (dropFlit port
    cls count s).plots = s.plots ∧ (dropFlit port cls count s).flds = s.flds ∧ (dropFlit port cls count s).grid = s.grid ∧ (dropFlit port cls count
    s).bridges = s.bridges ∧ (dropFlit port cls count s).hbm = s.hbm ∧ (dropFlit port cls count s).mesh = s.mesh ∧ (dropFlit port cls count s).test
    = s.test ∧ (dropFlit port cls count s).health = s.health ∧ (dropFlit port cls count s).free = s.free := by
  unfold dropFlit
  simp

@[simp] theorem takeFlit_keeps (port : Nat) (f : Flit) (s : State) : (takeFlit port f s).pending = s.pending ∧ (takeFlit port f s).pins = s.pins ∧
    (takeFlit port f s).ctl = s.ctl ∧ (takeFlit port f s).pwr = s.pwr ∧ (takeFlit port f s).otp = s.otp ∧ (takeFlit port f s).gateh = s.gateh ∧
    (takeFlit port f s).mbx = s.mbx ∧ (takeFlit port f s).job = s.job ∧ (takeFlit port f s).chans = s.chans ∧ (takeFlit port f s).plots = s.plots ∧
    (takeFlit port f s).flds = s.flds ∧ (takeFlit port f s).grid = s.grid ∧ (takeFlit port f s).bridges = s.bridges ∧ (takeFlit port f s).hbm =
    s.hbm ∧ (takeFlit port f s).test = s.test ∧ (takeFlit port f s).health = s.health ∧ (takeFlit port f s).free = s.free := by
  unfold takeFlit
  dsimp only
  (repeat' split) <;> simp

@[simp] theorem acceptFlit_keeps (port : Nat) (f : Flit) (s : State) : (acceptFlit port f s).pending = s.pending ∧ (acceptFlit port f s).pins =
    s.pins ∧ (acceptFlit port f s).ctl = s.ctl ∧ (acceptFlit port f s).pwr = s.pwr ∧ (acceptFlit port f s).otp = s.otp ∧ (acceptFlit port f s).gateh
    = s.gateh ∧ (acceptFlit port f s).mbx = s.mbx ∧ (acceptFlit port f s).job = s.job ∧ (acceptFlit port f s).chans = s.chans ∧ (acceptFlit port f
    s).plots = s.plots ∧ (acceptFlit port f s).flds = s.flds ∧ (acceptFlit port f s).grid = s.grid ∧ (acceptFlit port f s).bridges = s.bridges ∧
    (acceptFlit port f s).hbm = s.hbm ∧ (acceptFlit port f s).test = s.test ∧ (acceptFlit port f s).health = s.health ∧ (acceptFlit port f s).free =
    s.free := by
  unfold acceptFlit
  simp

@[simp] theorem loseFlit_keeps (port : Nat) (s : State) : (loseFlit port s).pending = s.pending ∧ (loseFlit port s).pins = s.pins ∧ (loseFlit port
    s).ctl = s.ctl ∧ (loseFlit port s).pwr = s.pwr ∧ (loseFlit port s).otp = s.otp ∧ (loseFlit port s).flash = s.flash ∧ (loseFlit port s).gateh =
    s.gateh ∧ (loseFlit port s).mbx = s.mbx ∧ (loseFlit port s).evt = s.evt ∧ (loseFlit port s).job = s.job ∧ (loseFlit port s).chans = s.chans ∧
    (loseFlit port s).plots = s.plots ∧ (loseFlit port s).flds = s.flds ∧ (loseFlit port s).grid = s.grid ∧ (loseFlit port s).bridges = s.bridges ∧
    (loseFlit port s).hbm = s.hbm ∧ (loseFlit port s).mesh = s.mesh ∧ (loseFlit port s).test = s.test ∧ (loseFlit port s).health = s.health ∧
    (loseFlit port s).free = s.free := by
  unfold loseFlit
  simp

@[simp] theorem acceptHeld_keeps (port fuel : Nat) (s : State) : (acceptHeld port fuel s).pending = s.pending ∧ (acceptHeld port fuel s).pins =
    s.pins ∧ (acceptHeld port fuel s).ctl = s.ctl ∧ (acceptHeld port fuel s).pwr = s.pwr ∧ (acceptHeld port fuel s).otp = s.otp ∧ (acceptHeld port
    fuel s).gateh = s.gateh ∧ (acceptHeld port fuel s).mbx = s.mbx ∧ (acceptHeld port fuel s).job = s.job ∧ (acceptHeld port fuel s).chans = s.chans
    ∧ (acceptHeld port fuel s).plots = s.plots ∧ (acceptHeld port fuel s).flds = s.flds ∧ (acceptHeld port fuel s).grid = s.grid ∧ (acceptHeld port
    fuel s).bridges = s.bridges ∧ (acceptHeld port fuel s).hbm = s.hbm ∧ (acceptHeld port fuel s).test = s.test ∧ (acceptHeld port fuel s).health =
    s.health ∧ (acceptHeld port fuel s).free = s.free := by
  fun_induction acceptHeld port fuel s <;> simp_all +zetaDelta

@[simp] theorem replayFrom_keeps (port : Nat) (s : State) : (replayFrom port s).pending = s.pending ∧ (replayFrom port s).pins = s.pins ∧
    (replayFrom port s).ctl = s.ctl ∧ (replayFrom port s).pwr = s.pwr ∧ (replayFrom port s).otp = s.otp ∧ (replayFrom port s).mbx = s.mbx ∧
    (replayFrom port s).job = s.job ∧ (replayFrom port s).chans = s.chans ∧ (replayFrom port s).bridges = s.bridges ∧ (replayFrom port s).hbm =
    s.hbm ∧ (replayFrom port s).test = s.test ∧ (replayFrom port s).health = s.health ∧ (replayFrom port s).free = s.free := by
  unfold replayFrom
  simp

/-! ## Mesh -/

@[simp] theorem takeFirst_keeps (ok : Pkt → Bool) (s : State) : (takeFirst ok s).pending = s.pending ∧ (takeFirst ok s).pins = s.pins ∧ (takeFirst
    ok s).ctl = s.ctl ∧ (takeFirst ok s).pwr = s.pwr ∧ (takeFirst ok s).otp = s.otp ∧ (takeFirst ok s).flash = s.flash ∧ (takeFirst ok s).gateh =
    s.gateh ∧ (takeFirst ok s).mbx = s.mbx ∧ (takeFirst ok s).evt = s.evt ∧ (takeFirst ok s).job = s.job ∧ (takeFirst ok s).chans = s.chans ∧
    (takeFirst ok s).plots = s.plots ∧ (takeFirst ok s).flds = s.flds ∧ (takeFirst ok s).grid = s.grid ∧ (takeFirst ok s).bridges = s.bridges ∧
    (takeFirst ok s).hbm = s.hbm ∧ (takeFirst ok s).test = s.test ∧ (takeFirst ok s).health = s.health ∧ (takeFirst ok s).free = s.free := by
  unfold takeFirst
  (repeat' split) <;> simp

@[simp] theorem takeInbox_keeps (p : Pkt) (s : State) : (takeInbox p s).pending = s.pending ∧ (takeInbox p s).pins = s.pins ∧ (takeInbox p s).ctl =
    s.ctl ∧ (takeInbox p s).pwr = s.pwr ∧ (takeInbox p s).otp = s.otp ∧ (takeInbox p s).flash = s.flash ∧ (takeInbox p s).gateh = s.gateh ∧
    (takeInbox p s).mbx = s.mbx ∧ (takeInbox p s).evt = s.evt ∧ (takeInbox p s).job = s.job ∧ (takeInbox p s).chans = s.chans ∧ (takeInbox p
    s).plots = s.plots ∧ (takeInbox p s).flds = s.flds ∧ (takeInbox p s).grid = s.grid ∧ (takeInbox p s).bridges = s.bridges ∧ (takeInbox p s).hbm =
    s.hbm ∧ (takeInbox p s).test = s.test ∧ (takeInbox p s).health = s.health ∧ (takeInbox p s).free = s.free := by
  unfold takeInbox
  simp

@[simp] theorem takeType_keeps (ptype : Nat) (s : State) : (takeType ptype s).pending = s.pending ∧ (takeType ptype s).pins = s.pins ∧ (takeType
    ptype s).ctl = s.ctl ∧ (takeType ptype s).pwr = s.pwr ∧ (takeType ptype s).otp = s.otp ∧ (takeType ptype s).flash = s.flash ∧ (takeType ptype
    s).gateh = s.gateh ∧ (takeType ptype s).mbx = s.mbx ∧ (takeType ptype s).evt = s.evt ∧ (takeType ptype s).job = s.job ∧ (takeType ptype s).chans
    = s.chans ∧ (takeType ptype s).plots = s.plots ∧ (takeType ptype s).flds = s.flds ∧ (takeType ptype s).grid = s.grid ∧ (takeType ptype
    s).bridges = s.bridges ∧ (takeType ptype s).hbm = s.hbm ∧ (takeType ptype s).test = s.test ∧ (takeType ptype s).health = s.health ∧ (takeType
    ptype s).free = s.free := by
  unfold takeType
  simp

@[simp] theorem takeHost_keeps (s : State) : (takeHost s).pending = s.pending ∧ (takeHost s).pins = s.pins ∧ (takeHost s).ctl = s.ctl ∧ (takeHost
    s).pwr = s.pwr ∧ (takeHost s).otp = s.otp ∧ (takeHost s).flash = s.flash ∧ (takeHost s).gateh = s.gateh ∧ (takeHost s).mbx = s.mbx ∧ (takeHost
    s).evt = s.evt ∧ (takeHost s).job = s.job ∧ (takeHost s).chans = s.chans ∧ (takeHost s).plots = s.plots ∧ (takeHost s).flds = s.flds ∧ (takeHost
    s).grid = s.grid ∧ (takeHost s).bridges = s.bridges ∧ (takeHost s).hbm = s.hbm ∧ (takeHost s).test = s.test ∧ (takeHost s).health = s.health ∧
    (takeHost s).free = s.free := by
  unfold takeHost
  simp

@[simp] theorem writeRoutes_keeps (entries : List (Nat × U16)) (s : State) : (writeRoutes entries s).pending = s.pending ∧ (writeRoutes entries
    s).pins = s.pins ∧ (writeRoutes entries s).ctl = s.ctl ∧ (writeRoutes entries s).pwr = s.pwr ∧ (writeRoutes entries s).otp = s.otp ∧
    (writeRoutes entries s).flash = s.flash ∧ (writeRoutes entries s).gateh = s.gateh ∧ (writeRoutes entries s).mbx = s.mbx ∧ (writeRoutes entries
    s).evt = s.evt ∧ (writeRoutes entries s).job = s.job ∧ (writeRoutes entries s).chans = s.chans ∧ (writeRoutes entries s).plots = s.plots ∧
    (writeRoutes entries s).flds = s.flds ∧ (writeRoutes entries s).grid = s.grid ∧ (writeRoutes entries s).bridges = s.bridges ∧ (writeRoutes
    entries s).hbm = s.hbm ∧ (writeRoutes entries s).links = s.links ∧ (writeRoutes entries s).test = s.test ∧ (writeRoutes entries s).health =
    s.health ∧ (writeRoutes entries s).free = s.free := by
  unfold writeRoutes
  simp

@[simp] theorem answerUp_keeps (content : List Nat) (s : State) : (answerUp content s).pending = s.pending ∧ (answerUp content s).pins = s.pins ∧
    (answerUp content s).ctl = s.ctl ∧ (answerUp content s).pwr = s.pwr ∧ (answerUp content s).otp = s.otp ∧ (answerUp content s).flash = s.flash ∧
    (answerUp content s).gateh = s.gateh ∧ (answerUp content s).mbx = s.mbx ∧ (answerUp content s).evt = s.evt ∧ (answerUp content s).job = s.job ∧
    (answerUp content s).chans = s.chans ∧ (answerUp content s).plots = s.plots ∧ (answerUp content s).flds = s.flds ∧ (answerUp content s).grid =
    s.grid ∧ (answerUp content s).bridges = s.bridges ∧ (answerUp content s).hbm = s.hbm ∧ (answerUp content s).mesh = s.mesh ∧ (answerUp content
    s).test = s.test ∧ (answerUp content s).health = s.health ∧ (answerUp content s).free = s.free := by
  unfold answerUp
  (repeat' split) <;> simp

/-! ## Windows -/

@[simp] theorem openWindow_keeps (id : Nat) (w : Window) (s : State) : (openWindow id w s).pending = s.pending ∧ (openWindow id w s).pins = s.pins ∧
    (openWindow id w s).ctl = s.ctl ∧ (openWindow id w s).pwr = s.pwr ∧ (openWindow id w s).otp = s.otp ∧ (openWindow id w s).flash = s.flash ∧
    (openWindow id w s).mbx = s.mbx ∧ (openWindow id w s).evt = s.evt ∧ (openWindow id w s).job = s.job ∧ (openWindow id w s).chans = s.chans ∧
    (openWindow id w s).plots = s.plots ∧ (openWindow id w s).flds = s.flds ∧ (openWindow id w s).grid = s.grid ∧ (openWindow id w s).bridges =
    s.bridges ∧ (openWindow id w s).hbm = s.hbm ∧ (openWindow id w s).links = s.links ∧ (openWindow id w s).test = s.test ∧ (openWindow id w
    s).health = s.health ∧ (openWindow id w s).free = s.free := by
  unfold openWindow
  simp

@[simp] theorem freeWindowsWhere_keeps (p : Window → Bool) (s : State) : (freeWindowsWhere p s).pending = s.pending ∧ (freeWindowsWhere p s).pins =
    s.pins ∧ (freeWindowsWhere p s).ctl = s.ctl ∧ (freeWindowsWhere p s).pwr = s.pwr ∧ (freeWindowsWhere p s).otp = s.otp ∧ (freeWindowsWhere p
    s).flash = s.flash ∧ (freeWindowsWhere p s).gateh = s.gateh ∧ (freeWindowsWhere p s).mbx = s.mbx ∧ (freeWindowsWhere p s).evt = s.evt ∧
    (freeWindowsWhere p s).job = s.job ∧ (freeWindowsWhere p s).chans = s.chans ∧ (freeWindowsWhere p s).plots = s.plots ∧ (freeWindowsWhere p
    s).flds = s.flds ∧ (freeWindowsWhere p s).grid = s.grid ∧ (freeWindowsWhere p s).bridges = s.bridges ∧ (freeWindowsWhere p s).hbm = s.hbm ∧
    (freeWindowsWhere p s).links = s.links ∧ (freeWindowsWhere p s).test = s.test ∧ (freeWindowsWhere p s).health = s.health ∧ (freeWindowsWhere p
    s).free = s.free := by
  unfold freeWindowsWhere
  simp

@[simp] theorem takeNonce_keeps (window : Nat) (sender : U16) (response : Bool) (n : Nat) (s : State) : (takeNonce window sender response n
    s).pending = s.pending ∧ (takeNonce window sender response n s).pins = s.pins ∧ (takeNonce window sender response n s).ctl = s.ctl ∧ (takeNonce
    window sender response n s).pwr = s.pwr ∧ (takeNonce window sender response n s).otp = s.otp ∧ (takeNonce window sender response n s).flash =
    s.flash ∧ (takeNonce window sender response n s).gateh = s.gateh ∧ (takeNonce window sender response n s).mbx = s.mbx ∧ (takeNonce window sender
    response n s).evt = s.evt ∧ (takeNonce window sender response n s).job = s.job ∧ (takeNonce window sender response n s).chans = s.chans ∧
    (takeNonce window sender response n s).plots = s.plots ∧ (takeNonce window sender response n s).flds = s.flds ∧ (takeNonce window sender
    response n s).grid = s.grid ∧ (takeNonce window sender response n s).bridges = s.bridges ∧ (takeNonce window sender response n s).hbm = s.hbm ∧
    (takeNonce window sender response n s).links = s.links ∧ (takeNonce window sender response n s).test = s.test ∧ (takeNonce window sender
    response n s).health = s.health ∧ (takeNonce window sender response n s).free = s.free := by
  unfold takeNonce
  simp

@[simp] theorem countReplayFull_keeps (s : State) : (countReplayFull s).pending = s.pending ∧ (countReplayFull s).pins = s.pins ∧ (countReplayFull
    s).ctl = s.ctl ∧ (countReplayFull s).pwr = s.pwr ∧ (countReplayFull s).otp = s.otp ∧ (countReplayFull s).flash = s.flash ∧ (countReplayFull
    s).gateh = s.gateh ∧ (countReplayFull s).mbx = s.mbx ∧ (countReplayFull s).evt = s.evt ∧ (countReplayFull s).job = s.job ∧ (countReplayFull
    s).chans = s.chans ∧ (countReplayFull s).plots = s.plots ∧ (countReplayFull s).flds = s.flds ∧ (countReplayFull s).grid = s.grid ∧
    (countReplayFull s).bridges = s.bridges ∧ (countReplayFull s).hbm = s.hbm ∧ (countReplayFull s).mesh = s.mesh ∧ (countReplayFull s).test =
    s.test ∧ (countReplayFull s).health = s.health ∧ (countReplayFull s).free = s.free := by
  unfold countReplayFull
  simp

@[simp] theorem windowRequest_pending (p : Pkt) (right : Window → Bool) (len : List Byte → Nat) (refused : Pkt → List Byte → State → State) (perform
    : Window → Pkt → List Byte → State → State) (s : State) (h1 : ∀ x0 x1 t, (refused x0 x1 t).pending = t.pending) (h2 : ∀ x0 x1 x2 t, (perform x0
    x1 x2 t).pending = t.pending) : (windowRequest p right len refused perform s).pending = s.pending := by
  unfold windowRequest
  dsimp only
  (repeat' split) <;> simp [h1, h2]

@[simp] theorem windowRequest_pins (p : Pkt) (right : Window → Bool) (len : List Byte → Nat) (refused : Pkt → List Byte → State → State) (perform :
    Window → Pkt → List Byte → State → State) (s : State) (h1 : ∀ x0 x1 t, (refused x0 x1 t).pins = t.pins) (h2 : ∀ x0 x1 x2 t, (perform x0 x1 x2
    t).pins = t.pins) : (windowRequest p right len refused perform s).pins = s.pins := by
  unfold windowRequest
  dsimp only
  (repeat' split) <;> simp [h1, h2]

@[simp] theorem windowRequest_ctl (p : Pkt) (right : Window → Bool) (len : List Byte → Nat) (refused : Pkt → List Byte → State → State) (perform :
    Window → Pkt → List Byte → State → State) (s : State) (h1 : ∀ x0 x1 t, (refused x0 x1 t).ctl = t.ctl) (h2 : ∀ x0 x1 x2 t, (perform x0 x1 x2
    t).ctl = t.ctl) : (windowRequest p right len refused perform s).ctl = s.ctl := by
  unfold windowRequest
  dsimp only
  (repeat' split) <;> simp [h1, h2]

@[simp] theorem windowRequest_pwr (p : Pkt) (right : Window → Bool) (len : List Byte → Nat) (refused : Pkt → List Byte → State → State) (perform :
    Window → Pkt → List Byte → State → State) (s : State) (h1 : ∀ x0 x1 t, (refused x0 x1 t).pwr = t.pwr) (h2 : ∀ x0 x1 x2 t, (perform x0 x1 x2
    t).pwr = t.pwr) : (windowRequest p right len refused perform s).pwr = s.pwr := by
  unfold windowRequest
  dsimp only
  (repeat' split) <;> simp [h1, h2]

@[simp] theorem windowRequest_otp (p : Pkt) (right : Window → Bool) (len : List Byte → Nat) (refused : Pkt → List Byte → State → State) (perform :
    Window → Pkt → List Byte → State → State) (s : State) (h1 : ∀ x0 x1 t, (refused x0 x1 t).otp = t.otp) (h2 : ∀ x0 x1 x2 t, (perform x0 x1 x2
    t).otp = t.otp) : (windowRequest p right len refused perform s).otp = s.otp := by
  unfold windowRequest
  dsimp only
  (repeat' split) <;> simp [h1, h2]

@[simp] theorem windowRequest_flash (p : Pkt) (right : Window → Bool) (len : List Byte → Nat) (refused : Pkt → List Byte → State → State) (perform :
    Window → Pkt → List Byte → State → State) (s : State) (h1 : ∀ x0 x1 t, (refused x0 x1 t).flash = t.flash) (h2 : ∀ x0 x1 x2 t, (perform x0 x1 x2
    t).flash = t.flash) : (windowRequest p right len refused perform s).flash = s.flash := by
  unfold windowRequest
  dsimp only
  (repeat' split) <;> simp [h1, h2]

@[simp] theorem windowRequest_mbx (p : Pkt) (right : Window → Bool) (len : List Byte → Nat) (refused : Pkt → List Byte → State → State) (perform :
    Window → Pkt → List Byte → State → State) (s : State) (h1 : ∀ x0 x1 t, (refused x0 x1 t).mbx = t.mbx) (h2 : ∀ x0 x1 x2 t, (perform x0 x1 x2
    t).mbx = t.mbx) : (windowRequest p right len refused perform s).mbx = s.mbx := by
  unfold windowRequest
  dsimp only
  (repeat' split) <;> simp [h1, h2]

@[simp] theorem windowRequest_evt (p : Pkt) (right : Window → Bool) (len : List Byte → Nat) (refused : Pkt → List Byte → State → State) (perform :
    Window → Pkt → List Byte → State → State) (s : State) (h1 : ∀ x0 x1 t, (refused x0 x1 t).evt = t.evt) (h2 : ∀ x0 x1 x2 t, (perform x0 x1 x2
    t).evt = t.evt) : (windowRequest p right len refused perform s).evt = s.evt := by
  unfold windowRequest
  dsimp only
  (repeat' split) <;> simp [h1, h2]

@[simp] theorem windowRequest_job (p : Pkt) (right : Window → Bool) (len : List Byte → Nat) (refused : Pkt → List Byte → State → State) (perform :
    Window → Pkt → List Byte → State → State) (s : State) (h1 : ∀ x0 x1 t, (refused x0 x1 t).job = t.job) (h2 : ∀ x0 x1 x2 t, (perform x0 x1 x2
    t).job = t.job) : (windowRequest p right len refused perform s).job = s.job := by
  unfold windowRequest
  dsimp only
  (repeat' split) <;> simp [h1, h2]

@[simp] theorem windowRequest_chans (p : Pkt) (right : Window → Bool) (len : List Byte → Nat) (refused : Pkt → List Byte → State → State) (perform :
    Window → Pkt → List Byte → State → State) (s : State) (h1 : ∀ x0 x1 t, (refused x0 x1 t).chans = t.chans) (h2 : ∀ x0 x1 x2 t, (perform x0 x1 x2
    t).chans = t.chans) : (windowRequest p right len refused perform s).chans = s.chans := by
  unfold windowRequest
  dsimp only
  (repeat' split) <;> simp [h1, h2]

@[simp] theorem windowRequest_plots (p : Pkt) (right : Window → Bool) (len : List Byte → Nat) (refused : Pkt → List Byte → State → State) (perform :
    Window → Pkt → List Byte → State → State) (s : State) (h1 : ∀ x0 x1 t, (refused x0 x1 t).plots = t.plots) (h2 : ∀ x0 x1 x2 t, (perform x0 x1 x2
    t).plots = t.plots) : (windowRequest p right len refused perform s).plots = s.plots := by
  unfold windowRequest
  dsimp only
  (repeat' split) <;> simp [h1, h2]

@[simp] theorem windowRequest_flds (p : Pkt) (right : Window → Bool) (len : List Byte → Nat) (refused : Pkt → List Byte → State → State) (perform :
    Window → Pkt → List Byte → State → State) (s : State) (h1 : ∀ x0 x1 t, (refused x0 x1 t).flds = t.flds) (h2 : ∀ x0 x1 x2 t, (perform x0 x1 x2
    t).flds = t.flds) : (windowRequest p right len refused perform s).flds = s.flds := by
  unfold windowRequest
  dsimp only
  (repeat' split) <;> simp [h1, h2]

@[simp] theorem windowRequest_grid (p : Pkt) (right : Window → Bool) (len : List Byte → Nat) (refused : Pkt → List Byte → State → State) (perform :
    Window → Pkt → List Byte → State → State) (s : State) (h1 : ∀ x0 x1 t, (refused x0 x1 t).grid = t.grid) (h2 : ∀ x0 x1 x2 t, (perform x0 x1 x2
    t).grid = t.grid) : (windowRequest p right len refused perform s).grid = s.grid := by
  unfold windowRequest
  dsimp only
  (repeat' split) <;> simp [h1, h2]

@[simp] theorem windowRequest_bridges (p : Pkt) (right : Window → Bool) (len : List Byte → Nat) (refused : Pkt → List Byte → State → State) (perform
    : Window → Pkt → List Byte → State → State) (s : State) (h1 : ∀ x0 x1 t, (refused x0 x1 t).bridges = t.bridges) (h2 : ∀ x0 x1 x2 t, (perform x0
    x1 x2 t).bridges = t.bridges) : (windowRequest p right len refused perform s).bridges = s.bridges := by
  unfold windowRequest
  dsimp only
  (repeat' split) <;> simp [h1, h2]

@[simp] theorem windowRequest_hbm (p : Pkt) (right : Window → Bool) (len : List Byte → Nat) (refused : Pkt → List Byte → State → State) (perform :
    Window → Pkt → List Byte → State → State) (s : State) (h1 : ∀ x0 x1 t, (refused x0 x1 t).hbm = t.hbm) (h2 : ∀ x0 x1 x2 t, (perform x0 x1 x2
    t).hbm = t.hbm) : (windowRequest p right len refused perform s).hbm = s.hbm := by
  unfold windowRequest
  dsimp only
  (repeat' split) <;> simp [h1, h2]

@[simp] theorem windowRequest_test (p : Pkt) (right : Window → Bool) (len : List Byte → Nat) (refused : Pkt → List Byte → State → State) (perform :
    Window → Pkt → List Byte → State → State) (s : State) (h1 : ∀ x0 x1 t, (refused x0 x1 t).test = t.test) (h2 : ∀ x0 x1 x2 t, (perform x0 x1 x2
    t).test = t.test) : (windowRequest p right len refused perform s).test = s.test := by
  unfold windowRequest
  dsimp only
  (repeat' split) <;> simp [h1, h2]

@[simp] theorem windowRequest_health (p : Pkt) (right : Window → Bool) (len : List Byte → Nat) (refused : Pkt → List Byte → State → State) (perform
    : Window → Pkt → List Byte → State → State) (s : State) (h1 : ∀ x0 x1 t, (refused x0 x1 t).health = t.health) (h2 : ∀ x0 x1 x2 t, (perform x0 x1
    x2 t).health = t.health) : (windowRequest p right len refused perform s).health = s.health := by
  unfold windowRequest
  dsimp only
  (repeat' split) <;> simp [h1, h2]

@[simp] theorem windowRequest_free (p : Pkt) (right : Window → Bool) (len : List Byte → Nat) (refused : Pkt → List Byte → State → State) (perform :
    Window → Pkt → List Byte → State → State) (s : State) (h1 : ∀ x0 x1 t, (refused x0 x1 t).free = t.free) (h2 : ∀ x0 x1 x2 t, (perform x0 x1 x2
    t).free = t.free) : (windowRequest p right len refused perform s).free = s.free := by
  unfold windowRequest
  dsimp only
  (repeat' split) <;> simp [h1, h2]

@[simp] theorem sendRequest_keeps (f : Nat) (site : Site) (g rid a : Nat) (s : State) : (sendRequest f site g rid a s).pending = s.pending ∧
    (sendRequest f site g rid a s).pins = s.pins ∧ (sendRequest f site g rid a s).ctl = s.ctl ∧ (sendRequest f site g rid a s).pwr = s.pwr ∧
    (sendRequest f site g rid a s).otp = s.otp ∧ (sendRequest f site g rid a s).flash = s.flash ∧ (sendRequest f site g rid a s).gateh = s.gateh ∧
    (sendRequest f site g rid a s).mbx = s.mbx ∧ (sendRequest f site g rid a s).evt = s.evt ∧ (sendRequest f site g rid a s).job = s.job ∧
    (sendRequest f site g rid a s).chans = s.chans ∧ (sendRequest f site g rid a s).plots = s.plots ∧ (sendRequest f site g rid a s).bridges =
    s.bridges ∧ (sendRequest f site g rid a s).hbm = s.hbm ∧ (sendRequest f site g rid a s).links = s.links ∧ (sendRequest f site g rid a s).mesh =
    s.mesh ∧ (sendRequest f site g rid a s).test = s.test ∧ (sendRequest f site g rid a s).health = s.health ∧ (sendRequest f site g rid a s).free =
    s.free := by
  unfold sendRequest
  simp

@[simp] theorem windowHbm_keeps (port : Nat) (p : Pkt) (write : Bool) (len : Nat) (data : List Byte) (s : State) : (windowHbm port p write len data
    s).pending = s.pending ∧ (windowHbm port p write len data s).pins = s.pins ∧ (windowHbm port p write len data s).ctl = s.ctl ∧ (windowHbm port p
    write len data s).pwr = s.pwr ∧ (windowHbm port p write len data s).otp = s.otp ∧ (windowHbm port p write len data s).flash = s.flash ∧
    (windowHbm port p write len data s).gateh = s.gateh ∧ (windowHbm port p write len data s).mbx = s.mbx ∧ (windowHbm port p write len data s).evt
    = s.evt ∧ (windowHbm port p write len data s).job = s.job ∧ (windowHbm port p write len data s).chans = s.chans ∧ (windowHbm port p write len
    data s).plots = s.plots ∧ (windowHbm port p write len data s).bridges = s.bridges ∧ (windowHbm port p write len data s).hbm = s.hbm ∧ (windowHbm
    port p write len data s).links = s.links ∧ (windowHbm port p write len data s).mesh = s.mesh ∧ (windowHbm port p write len data s).test = s.test
    ∧ (windowHbm port p write len data s).health = s.health ∧ (windowHbm port p write len data s).free = s.free := by
  unfold windowHbm
  simp

@[simp] theorem windowAccess_keeps (p : Pkt) (read : Bool) (body : List Byte) (s : State) : (windowAccess p read body s).pending = s.pending ∧
    (windowAccess p read body s).pins = s.pins ∧ (windowAccess p read body s).ctl = s.ctl ∧ (windowAccess p read body s).pwr = s.pwr ∧ (windowAccess
    p read body s).otp = s.otp ∧ (windowAccess p read body s).mbx = s.mbx ∧ (windowAccess p read body s).job = s.job ∧ (windowAccess p read body
    s).chans = s.chans ∧ (windowAccess p read body s).flds = s.flds ∧ (windowAccess p read body s).bridges = s.bridges ∧ (windowAccess p read body
    s).hbm = s.hbm ∧ (windowAccess p read body s).test = s.test ∧ (windowAccess p read body s).health = s.health ∧ (windowAccess p read body s).free
    = s.free := by
  unfold windowAccess
  (repeat' split) <;> simp

@[simp] theorem windowSpad_keeps (port : Nat) (p : Pkt) (read : Bool) (body : List Byte) (s : State) : (windowSpad port p read body s).pending =
    s.pending ∧ (windowSpad port p read body s).pins = s.pins ∧ (windowSpad port p read body s).ctl = s.ctl ∧ (windowSpad port p read body s).pwr =
    s.pwr ∧ (windowSpad port p read body s).otp = s.otp ∧ (windowSpad port p read body s).mbx = s.mbx ∧ (windowSpad port p read body s).job = s.job
    ∧ (windowSpad port p read body s).chans = s.chans ∧ (windowSpad port p read body s).flds = s.flds ∧ (windowSpad port p read body s).bridges =
    s.bridges ∧ (windowSpad port p read body s).hbm = s.hbm ∧ (windowSpad port p read body s).test = s.test ∧ (windowSpad port p read body s).health
    = s.health ∧ (windowSpad port p read body s).free = s.free := by
  unfold windowSpad
  (repeat' split) <;> simp

@[simp] theorem windowAnswer_pending (p : Pkt) (take : List Byte → State → State) (s : State) (h1 : ∀ x0 t, (take x0 t).pending = t.pending) :
    (windowAnswer p take s).pending = s.pending := by
  unfold windowAnswer
  dsimp only
  (repeat' split) <;> simp [h1]

@[simp] theorem windowAnswer_pins (p : Pkt) (take : List Byte → State → State) (s : State) (h1 : ∀ x0 t, (take x0 t).pins = t.pins) : (windowAnswer
    p take s).pins = s.pins := by
  unfold windowAnswer
  dsimp only
  (repeat' split) <;> simp [h1]

@[simp] theorem windowAnswer_ctl (p : Pkt) (take : List Byte → State → State) (s : State) (h1 : ∀ x0 t, (take x0 t).ctl = t.ctl) : (windowAnswer p
    take s).ctl = s.ctl := by
  unfold windowAnswer
  dsimp only
  (repeat' split) <;> simp [h1]

@[simp] theorem windowAnswer_pwr (p : Pkt) (take : List Byte → State → State) (s : State) (h1 : ∀ x0 t, (take x0 t).pwr = t.pwr) : (windowAnswer p
    take s).pwr = s.pwr := by
  unfold windowAnswer
  dsimp only
  (repeat' split) <;> simp [h1]

@[simp] theorem windowAnswer_otp (p : Pkt) (take : List Byte → State → State) (s : State) (h1 : ∀ x0 t, (take x0 t).otp = t.otp) : (windowAnswer p
    take s).otp = s.otp := by
  unfold windowAnswer
  dsimp only
  (repeat' split) <;> simp [h1]

@[simp] theorem windowAnswer_flash (p : Pkt) (take : List Byte → State → State) (s : State) (h1 : ∀ x0 t, (take x0 t).flash = t.flash) :
    (windowAnswer p take s).flash = s.flash := by
  unfold windowAnswer
  dsimp only
  (repeat' split) <;> simp [h1]

@[simp] theorem windowAnswer_mbx (p : Pkt) (take : List Byte → State → State) (s : State) (h1 : ∀ x0 t, (take x0 t).mbx = t.mbx) : (windowAnswer p
    take s).mbx = s.mbx := by
  unfold windowAnswer
  dsimp only
  (repeat' split) <;> simp [h1]

@[simp] theorem windowAnswer_evt (p : Pkt) (take : List Byte → State → State) (s : State) (h1 : ∀ x0 t, (take x0 t).evt = t.evt) : (windowAnswer p
    take s).evt = s.evt := by
  unfold windowAnswer
  dsimp only
  (repeat' split) <;> simp [h1]

@[simp] theorem windowAnswer_job (p : Pkt) (take : List Byte → State → State) (s : State) (h1 : ∀ x0 t, (take x0 t).job = t.job) : (windowAnswer p
    take s).job = s.job := by
  unfold windowAnswer
  dsimp only
  (repeat' split) <;> simp [h1]

@[simp] theorem windowAnswer_chans (p : Pkt) (take : List Byte → State → State) (s : State) (h1 : ∀ x0 t, (take x0 t).chans = t.chans) :
    (windowAnswer p take s).chans = s.chans := by
  unfold windowAnswer
  dsimp only
  (repeat' split) <;> simp [h1]

@[simp] theorem windowAnswer_plots (p : Pkt) (take : List Byte → State → State) (s : State) (h1 : ∀ x0 t, (take x0 t).plots = t.plots) :
    (windowAnswer p take s).plots = s.plots := by
  unfold windowAnswer
  dsimp only
  (repeat' split) <;> simp [h1]

@[simp] theorem windowAnswer_flds (p : Pkt) (take : List Byte → State → State) (s : State) (h1 : ∀ x0 t, (take x0 t).flds = t.flds) : (windowAnswer
    p take s).flds = s.flds := by
  unfold windowAnswer
  dsimp only
  (repeat' split) <;> simp [h1]

@[simp] theorem windowAnswer_grid (p : Pkt) (take : List Byte → State → State) (s : State) (h1 : ∀ x0 t, (take x0 t).grid = t.grid) : (windowAnswer
    p take s).grid = s.grid := by
  unfold windowAnswer
  dsimp only
  (repeat' split) <;> simp [h1]

@[simp] theorem windowAnswer_bridges (p : Pkt) (take : List Byte → State → State) (s : State) (h1 : ∀ x0 t, (take x0 t).bridges = t.bridges) :
    (windowAnswer p take s).bridges = s.bridges := by
  unfold windowAnswer
  dsimp only
  (repeat' split) <;> simp [h1]

@[simp] theorem windowAnswer_hbm (p : Pkt) (take : List Byte → State → State) (s : State) (h1 : ∀ x0 t, (take x0 t).hbm = t.hbm) : (windowAnswer p
    take s).hbm = s.hbm := by
  unfold windowAnswer
  dsimp only
  (repeat' split) <;> simp [h1]

@[simp] theorem windowAnswer_test (p : Pkt) (take : List Byte → State → State) (s : State) (h1 : ∀ x0 t, (take x0 t).test = t.test) : (windowAnswer
    p take s).test = s.test := by
  unfold windowAnswer
  dsimp only
  (repeat' split) <;> simp [h1]

@[simp] theorem windowAnswer_health (p : Pkt) (take : List Byte → State → State) (s : State) (h1 : ∀ x0 t, (take x0 t).health = t.health) :
    (windowAnswer p take s).health = s.health := by
  unfold windowAnswer
  dsimp only
  (repeat' split) <;> simp [h1]

@[simp] theorem windowAnswer_free (p : Pkt) (take : List Byte → State → State) (s : State) (h1 : ∀ x0 t, (take x0 t).free = t.free) : (windowAnswer
    p take s).free = s.free := by
  unfold windowAnswer
  dsimp only
  (repeat' split) <;> simp [h1]

/-! ## Loops -/

@[simp] theorem updRun_keeps (f k : Nat) (g : Run → Run) (s : State) : (updRun f k g s).pending = s.pending ∧ (updRun f k g s).pins = s.pins ∧
    (updRun f k g s).ctl = s.ctl ∧ (updRun f k g s).pwr = s.pwr ∧ (updRun f k g s).otp = s.otp ∧ (updRun f k g s).flash = s.flash ∧ (updRun f k g
    s).gateh = s.gateh ∧ (updRun f k g s).mbx = s.mbx ∧ (updRun f k g s).evt = s.evt ∧ (updRun f k g s).job = s.job ∧ (updRun f k g s).chans =
    s.chans ∧ (updRun f k g s).plots = s.plots ∧ (updRun f k g s).grid = s.grid ∧ (updRun f k g s).bridges = s.bridges ∧ (updRun f k g s).hbm =
    s.hbm ∧ (updRun f k g s).links = s.links ∧ (updRun f k g s).mesh = s.mesh ∧ (updRun f k g s).test = s.test ∧ (updRun f k g s).health = s.health
    ∧ (updRun f k g s).free = s.free := by
  unfold updRun
  simp

@[simp] theorem updWork_keeps (p i d : Nat) (g : Work → Work) (s : State) : (updWork p i d g s).pending = s.pending ∧ (updWork p i d g s).pins =
    s.pins ∧ (updWork p i d g s).ctl = s.ctl ∧ (updWork p i d g s).pwr = s.pwr ∧ (updWork p i d g s).otp = s.otp ∧ (updWork p i d g s).flash =
    s.flash ∧ (updWork p i d g s).gateh = s.gateh ∧ (updWork p i d g s).mbx = s.mbx ∧ (updWork p i d g s).evt = s.evt ∧ (updWork p i d g s).job =
    s.job ∧ (updWork p i d g s).chans = s.chans ∧ (updWork p i d g s).flds = s.flds ∧ (updWork p i d g s).grid = s.grid ∧ (updWork p i d g
    s).bridges = s.bridges ∧ (updWork p i d g s).hbm = s.hbm ∧ (updWork p i d g s).links = s.links ∧ (updWork p i d g s).mesh = s.mesh ∧ (updWork p
    i d g s).test = s.test ∧ (updWork p i d g s).health = s.health ∧ (updWork p i d g s).free = s.free := by
  unfold updWork
  simp

@[simp] theorem noteReplay_keeps (p i : Nat) (r : Run) (dd : Desc) (tile cause : Nat) (s : State) : (noteReplay p i r dd tile cause s).pending =
    s.pending ∧ (noteReplay p i r dd tile cause s).pins = s.pins ∧ (noteReplay p i r dd tile cause s).ctl = s.ctl ∧ (noteReplay p i r dd tile cause
    s).pwr = s.pwr ∧ (noteReplay p i r dd tile cause s).otp = s.otp ∧ (noteReplay p i r dd tile cause s).gateh = s.gateh ∧ (noteReplay p i r dd tile
    cause s).mbx = s.mbx ∧ (noteReplay p i r dd tile cause s).chans = s.chans ∧ (noteReplay p i r dd tile cause s).plots = s.plots ∧ (noteReplay p i
    r dd tile cause s).flds = s.flds ∧ (noteReplay p i r dd tile cause s).grid = s.grid ∧ (noteReplay p i r dd tile cause s).bridges = s.bridges ∧
    (noteReplay p i r dd tile cause s).hbm = s.hbm ∧ (noteReplay p i r dd tile cause s).links = s.links ∧ (noteReplay p i r dd tile cause s).mesh =
    s.mesh ∧ (noteReplay p i r dd tile cause s).test = s.test ∧ (noteReplay p i r dd tile cause s).health = s.health ∧ (noteReplay p i r dd tile
    cause s).free = s.free := by
  unfold noteReplay
  simp

@[simp] theorem replayWaiting_keeps (p i : Nat) (works : Tab Work) (s : State) : (replayWaiting p i works s).pending = s.pending ∧ (replayWaiting p
    i works s).pins = s.pins ∧ (replayWaiting p i works s).ctl = s.ctl ∧ (replayWaiting p i works s).pwr = s.pwr ∧ (replayWaiting p i works s).otp =
    s.otp ∧ (replayWaiting p i works s).gateh = s.gateh ∧ (replayWaiting p i works s).mbx = s.mbx ∧ (replayWaiting p i works s).chans = s.chans ∧
    (replayWaiting p i works s).plots = s.plots ∧ (replayWaiting p i works s).flds = s.flds ∧ (replayWaiting p i works s).grid = s.grid ∧
    (replayWaiting p i works s).bridges = s.bridges ∧ (replayWaiting p i works s).hbm = s.hbm ∧ (replayWaiting p i works s).links = s.links ∧
    (replayWaiting p i works s).mesh = s.mesh ∧ (replayWaiting p i works s).test = s.test ∧ (replayWaiting p i works s).health = s.health ∧
    (replayWaiting p i works s).free = s.free := by
  unfold replayWaiting
  simp (disch := (intros; first | (simp; done) | ((repeat' split) <;> simp; done) | (dsimp only; (repeat' split) <;> simp; done)))

/-! ## Job -/

@[simp] theorem beginDrain_keeps (cause : Nat) (s : State) : (beginDrain cause s).pending = s.pending ∧ (beginDrain cause s).pins = s.pins ∧
    (beginDrain cause s).pwr = s.pwr ∧ (beginDrain cause s).otp = s.otp ∧ (beginDrain cause s).gateh = s.gateh ∧ (beginDrain cause s).mbx = s.mbx ∧
    (beginDrain cause s).chans = s.chans ∧ (beginDrain cause s).flds = s.flds ∧ (beginDrain cause s).grid = s.grid ∧ (beginDrain cause s).bridges =
    s.bridges ∧ (beginDrain cause s).hbm = s.hbm ∧ (beginDrain cause s).links = s.links ∧ (beginDrain cause s).mesh = s.mesh ∧ (beginDrain cause
    s).test = s.test ∧ (beginDrain cause s).health = s.health ∧ (beginDrain cause s).free = s.free := by
  unfold beginDrain
  (repeat' split) <;> simp

@[simp] theorem jobFault_keeps (cause code : Nat) (s : State) : (jobFault cause code s).pending = s.pending ∧ (jobFault cause code s).pins = s.pins
    ∧ (jobFault cause code s).pwr = s.pwr ∧ (jobFault cause code s).otp = s.otp ∧ (jobFault cause code s).gateh = s.gateh ∧ (jobFault cause code
    s).mbx = s.mbx ∧ (jobFault cause code s).chans = s.chans ∧ (jobFault cause code s).flds = s.flds ∧ (jobFault cause code s).grid = s.grid ∧
    (jobFault cause code s).bridges = s.bridges ∧ (jobFault cause code s).hbm = s.hbm ∧ (jobFault cause code s).links = s.links ∧ (jobFault cause
    code s).mesh = s.mesh ∧ (jobFault cause code s).test = s.test ∧ (jobFault cause code s).health = s.health ∧ (jobFault cause code s).free =
    s.free := by
  unfold jobFault
  dsimp only
  (repeat' split) <;> simp

@[simp] theorem faultEvent_keeps (e : EventRec) (s : State) : (faultEvent e s).pending = s.pending ∧ (faultEvent e s).pins = s.pins ∧ (faultEvent e
    s).pwr = s.pwr ∧ (faultEvent e s).otp = s.otp ∧ (faultEvent e s).gateh = s.gateh ∧ (faultEvent e s).mbx = s.mbx ∧ (faultEvent e s).chans =
    s.chans ∧ (faultEvent e s).flds = s.flds ∧ (faultEvent e s).grid = s.grid ∧ (faultEvent e s).bridges = s.bridges ∧ (faultEvent e s).hbm = s.hbm
    ∧ (faultEvent e s).links = s.links ∧ (faultEvent e s).mesh = s.mesh ∧ (faultEvent e s).test = s.test ∧ (faultEvent e s).health = s.health ∧
    (faultEvent e s).free = s.free := by
  unfold faultEvent
  simp

@[simp] theorem stopArray_keeps (p : Nat) (s : State) : (stopArray p s).pending = s.pending ∧ (stopArray p s).pins = s.pins ∧ (stopArray p s).ctl =
    s.ctl ∧ (stopArray p s).pwr = s.pwr ∧ (stopArray p s).otp = s.otp ∧ (stopArray p s).flash = s.flash ∧ (stopArray p s).gateh = s.gateh ∧
    (stopArray p s).mbx = s.mbx ∧ (stopArray p s).evt = s.evt ∧ (stopArray p s).job = s.job ∧ (stopArray p s).chans = s.chans ∧ (stopArray p s).flds
    = s.flds ∧ (stopArray p s).grid = s.grid ∧ (stopArray p s).bridges = s.bridges ∧ (stopArray p s).hbm = s.hbm ∧ (stopArray p s).links = s.links ∧
    (stopArray p s).mesh = s.mesh ∧ (stopArray p s).test = s.test ∧ (stopArray p s).health = s.health ∧ (stopArray p s).free = s.free := by
  unfold stopArray
  simp

@[simp] theorem sectionFault_keeps (kind p i pos node : Nat) (s : State) : (sectionFault kind p i pos node s).pending = s.pending ∧ (sectionFault
    kind p i pos node s).pins = s.pins ∧ (sectionFault kind p i pos node s).pwr = s.pwr ∧ (sectionFault kind p i pos node s).otp = s.otp ∧
    (sectionFault kind p i pos node s).gateh = s.gateh ∧ (sectionFault kind p i pos node s).mbx = s.mbx ∧ (sectionFault kind p i pos node s).chans =
    s.chans ∧ (sectionFault kind p i pos node s).flds = s.flds ∧ (sectionFault kind p i pos node s).grid = s.grid ∧ (sectionFault kind p i pos node
    s).bridges = s.bridges ∧ (sectionFault kind p i pos node s).hbm = s.hbm ∧ (sectionFault kind p i pos node s).links = s.links ∧ (sectionFault
    kind p i pos node s).mesh = s.mesh ∧ (sectionFault kind p i pos node s).test = s.test ∧ (sectionFault kind p i pos node s).health = s.health ∧
    (sectionFault kind p i pos node s).free = s.free := by
  unfold sectionFault
  dsimp only
  (repeat' split) <;> simp

@[simp] theorem noteStale_keeps (p : Nat) (s : State) : (noteStale p s).pending = s.pending ∧ (noteStale p s).pins = s.pins ∧ (noteStale p s).pwr =
    s.pwr ∧ (noteStale p s).otp = s.otp ∧ (noteStale p s).gateh = s.gateh ∧ (noteStale p s).mbx = s.mbx ∧ (noteStale p s).chans = s.chans ∧
    (noteStale p s).flds = s.flds ∧ (noteStale p s).grid = s.grid ∧ (noteStale p s).bridges = s.bridges ∧ (noteStale p s).hbm = s.hbm ∧ (noteStale p
    s).links = s.links ∧ (noteStale p s).mesh = s.mesh ∧ (noteStale p s).test = s.test ∧ (noteStale p s).health = s.health ∧ (noteStale p s).free =
    s.free := by
  unfold noteStale
  (repeat' split) <;> simp

@[simp] theorem completeNode_keeps (p key : Nat) (tag : BitVec 16) (epoch : U16) (s : State) : (completeNode p key tag epoch s).pending = s.pending
    ∧ (completeNode p key tag epoch s).pins = s.pins ∧ (completeNode p key tag epoch s).pwr = s.pwr ∧ (completeNode p key tag epoch s).otp = s.otp ∧
    (completeNode p key tag epoch s).gateh = s.gateh ∧ (completeNode p key tag epoch s).mbx = s.mbx ∧ (completeNode p key tag epoch s).chans =
    s.chans ∧ (completeNode p key tag epoch s).flds = s.flds ∧ (completeNode p key tag epoch s).grid = s.grid ∧ (completeNode p key tag epoch
    s).bridges = s.bridges ∧ (completeNode p key tag epoch s).hbm = s.hbm ∧ (completeNode p key tag epoch s).links = s.links ∧ (completeNode p key
    tag epoch s).mesh = s.mesh ∧ (completeNode p key tag epoch s).test = s.test ∧ (completeNode p key tag epoch s).health = s.health ∧ (completeNode
    p key tag epoch s).free = s.free := by
  unfold completeNode
  (repeat' split) <;> simp

@[simp] theorem updChanQueue_keeps (c : Nat) (ch : Channel) (f : Queue → Queue) (s : State) : (updChanQueue c ch f s).pending = s.pending ∧
    (updChanQueue c ch f s).pins = s.pins ∧ (updChanQueue c ch f s).ctl = s.ctl ∧ (updChanQueue c ch f s).pwr = s.pwr ∧ (updChanQueue c ch f s).otp
    = s.otp ∧ (updChanQueue c ch f s).flash = s.flash ∧ (updChanQueue c ch f s).gateh = s.gateh ∧ (updChanQueue c ch f s).mbx = s.mbx ∧
    (updChanQueue c ch f s).evt = s.evt ∧ (updChanQueue c ch f s).job = s.job ∧ (updChanQueue c ch f s).flds = s.flds ∧ (updChanQueue c ch f s).grid
    = s.grid ∧ (updChanQueue c ch f s).bridges = s.bridges ∧ (updChanQueue c ch f s).hbm = s.hbm ∧ (updChanQueue c ch f s).links = s.links ∧
    (updChanQueue c ch f s).mesh = s.mesh ∧ (updChanQueue c ch f s).test = s.test ∧ (updChanQueue c ch f s).health = s.health ∧ (updChanQueue c ch f
    s).free = s.free := by
  unfold updChanQueue
  (repeat' split) <;> simp

@[simp] theorem countDrop_keeps (c : Nat) (ch : Channel) (s : State) : (countDrop c ch s).pending = s.pending ∧ (countDrop c ch s).pins = s.pins ∧
    (countDrop c ch s).ctl = s.ctl ∧ (countDrop c ch s).pwr = s.pwr ∧ (countDrop c ch s).otp = s.otp ∧ (countDrop c ch s).flash = s.flash ∧
    (countDrop c ch s).gateh = s.gateh ∧ (countDrop c ch s).mbx = s.mbx ∧ (countDrop c ch s).evt = s.evt ∧ (countDrop c ch s).job = s.job ∧
    (countDrop c ch s).flds = s.flds ∧ (countDrop c ch s).grid = s.grid ∧ (countDrop c ch s).bridges = s.bridges ∧ (countDrop c ch s).hbm = s.hbm ∧
    (countDrop c ch s).links = s.links ∧ (countDrop c ch s).mesh = s.mesh ∧ (countDrop c ch s).test = s.test ∧ (countDrop c ch s).health = s.health
    ∧ (countDrop c ch s).free = s.free := by
  unfold countDrop
  simp

@[simp] theorem endWait_keeps (c : Nat) (ch : Channel) (w : Waiter) (s : State) : (endWait c ch w s).pending = s.pending ∧ (endWait c ch w s).pins =
    s.pins ∧ (endWait c ch w s).pwr = s.pwr ∧ (endWait c ch w s).otp = s.otp ∧ (endWait c ch w s).gateh = s.gateh ∧ (endWait c ch w s).mbx = s.mbx ∧
    (endWait c ch w s).flds = s.flds ∧ (endWait c ch w s).grid = s.grid ∧ (endWait c ch w s).bridges = s.bridges ∧ (endWait c ch w s).hbm = s.hbm ∧
    (endWait c ch w s).links = s.links ∧ (endWait c ch w s).mesh = s.mesh ∧ (endWait c ch w s).test = s.test ∧ (endWait c ch w s).health = s.health
    ∧ (endWait c ch w s).free = s.free := by
  unfold endWait
  (repeat' split) <;> simp

@[simp] theorem dropWaiters_keeps (c : Nat) (ch : Channel) (s : State) : (dropWaiters c ch s).pending = s.pending ∧ (dropWaiters c ch s).pins =
    s.pins ∧ (dropWaiters c ch s).pwr = s.pwr ∧ (dropWaiters c ch s).otp = s.otp ∧ (dropWaiters c ch s).gateh = s.gateh ∧ (dropWaiters c ch s).mbx =
    s.mbx ∧ (dropWaiters c ch s).flds = s.flds ∧ (dropWaiters c ch s).grid = s.grid ∧ (dropWaiters c ch s).bridges = s.bridges ∧ (dropWaiters c ch
    s).hbm = s.hbm ∧ (dropWaiters c ch s).links = s.links ∧ (dropWaiters c ch s).mesh = s.mesh ∧ (dropWaiters c ch s).test = s.test ∧ (dropWaiters c
    ch s).health = s.health ∧ (dropWaiters c ch s).free = s.free := by
  unfold dropWaiters
  simp

@[simp] theorem sendReport_keeps (kind channel peer ring maxLenM1 head : Nat) (s : State) : (sendReport kind channel peer ring maxLenM1 head
    s).pending = s.pending ∧ (sendReport kind channel peer ring maxLenM1 head s).pins = s.pins ∧ (sendReport kind channel peer ring maxLenM1 head
    s).ctl = s.ctl ∧ (sendReport kind channel peer ring maxLenM1 head s).pwr = s.pwr ∧ (sendReport kind channel peer ring maxLenM1 head s).otp =
    s.otp ∧ (sendReport kind channel peer ring maxLenM1 head s).gateh = s.gateh ∧ (sendReport kind channel peer ring maxLenM1 head s).mbx = s.mbx ∧
    (sendReport kind channel peer ring maxLenM1 head s).job = s.job ∧ (sendReport kind channel peer ring maxLenM1 head s).chans = s.chans ∧
    (sendReport kind channel peer ring maxLenM1 head s).plots = s.plots ∧ (sendReport kind channel peer ring maxLenM1 head s).flds = s.flds ∧
    (sendReport kind channel peer ring maxLenM1 head s).grid = s.grid ∧ (sendReport kind channel peer ring maxLenM1 head s).bridges = s.bridges ∧
    (sendReport kind channel peer ring maxLenM1 head s).hbm = s.hbm ∧ (sendReport kind channel peer ring maxLenM1 head s).test = s.test ∧
    (sendReport kind channel peer ring maxLenM1 head s).health = s.health ∧ (sendReport kind channel peer ring maxLenM1 head s).free = s.free := by
  unfold sendReport
  simp

@[simp] theorem reportQueue_keeps (kind c : Nat) (ch : Channel) (s : State) : (reportQueue kind c ch s).pending = s.pending ∧ (reportQueue kind c ch
    s).pins = s.pins ∧ (reportQueue kind c ch s).ctl = s.ctl ∧ (reportQueue kind c ch s).pwr = s.pwr ∧ (reportQueue kind c ch s).otp = s.otp ∧
    (reportQueue kind c ch s).gateh = s.gateh ∧ (reportQueue kind c ch s).mbx = s.mbx ∧ (reportQueue kind c ch s).job = s.job ∧ (reportQueue kind c
    ch s).chans = s.chans ∧ (reportQueue kind c ch s).plots = s.plots ∧ (reportQueue kind c ch s).flds = s.flds ∧ (reportQueue kind c ch s).grid =
    s.grid ∧ (reportQueue kind c ch s).bridges = s.bridges ∧ (reportQueue kind c ch s).hbm = s.hbm ∧ (reportQueue kind c ch s).test = s.test ∧
    (reportQueue kind c ch s).health = s.health ∧ (reportQueue kind c ch s).free = s.free := by
  unfold reportQueue
  simp

@[simp] theorem closeChannel_keeps (c : Nat) (ch : Channel) (s : State) : (closeChannel c ch s).pending = s.pending ∧ (closeChannel c ch s).pins =
    s.pins ∧ (closeChannel c ch s).pwr = s.pwr ∧ (closeChannel c ch s).otp = s.otp ∧ (closeChannel c ch s).gateh = s.gateh ∧ (closeChannel c ch
    s).mbx = s.mbx ∧ (closeChannel c ch s).flds = s.flds ∧ (closeChannel c ch s).grid = s.grid ∧ (closeChannel c ch s).bridges = s.bridges ∧
    (closeChannel c ch s).hbm = s.hbm ∧ (closeChannel c ch s).test = s.test ∧ (closeChannel c ch s).health = s.health ∧ (closeChannel c ch s).free =
    s.free := by
  unfold closeChannel
  (repeat' split) <;> simp

@[simp] theorem closeReader_keeps (p : Nat) (s : State) : (closeReader p s).pending = s.pending ∧ (closeReader p s).pins = s.pins ∧ (closeReader p
    s).pwr = s.pwr ∧ (closeReader p s).otp = s.otp ∧ (closeReader p s).gateh = s.gateh ∧ (closeReader p s).mbx = s.mbx ∧ (closeReader p s).flds =
    s.flds ∧ (closeReader p s).grid = s.grid ∧ (closeReader p s).bridges = s.bridges ∧ (closeReader p s).hbm = s.hbm ∧ (closeReader p s).test =
    s.test ∧ (closeReader p s).health = s.health ∧ (closeReader p s).free = s.free := by
  unfold closeReader
  simp

@[simp] theorem closeApertures_keeps (s : State) : (closeApertures s).pending = s.pending ∧ (closeApertures s).pins = s.pins ∧ (closeApertures
    s).ctl = s.ctl ∧ (closeApertures s).pwr = s.pwr ∧ (closeApertures s).otp = s.otp ∧ (closeApertures s).flash = s.flash ∧ (closeApertures s).gateh
    = s.gateh ∧ (closeApertures s).mbx = s.mbx ∧ (closeApertures s).evt = s.evt ∧ (closeApertures s).job = s.job ∧ (closeApertures s).chans =
    s.chans ∧ (closeApertures s).plots = s.plots ∧ (closeApertures s).flds = s.flds ∧ (closeApertures s).grid = s.grid ∧ (closeApertures s).bridges
    = s.bridges ∧ (closeApertures s).hbm = s.hbm ∧ (closeApertures s).links = s.links ∧ (closeApertures s).test = s.test ∧ (closeApertures s).health
    = s.health ∧ (closeApertures s).free = s.free := by
  unfold closeApertures
  simp

@[simp] theorem beginRemaps_keeps (f : Nat) (l : List FenceDue) (s : State) : (beginRemaps f l s).pending = s.pending ∧ (beginRemaps f l s).pins =
    s.pins ∧ (beginRemaps f l s).ctl = s.ctl ∧ (beginRemaps f l s).pwr = s.pwr ∧ (beginRemaps f l s).otp = s.otp ∧ (beginRemaps f l s).gateh =
    s.gateh ∧ (beginRemaps f l s).mbx = s.mbx ∧ (beginRemaps f l s).job = s.job ∧ (beginRemaps f l s).chans = s.chans ∧ (beginRemaps f l s).plots =
    s.plots ∧ (beginRemaps f l s).bridges = s.bridges ∧ (beginRemaps f l s).hbm = s.hbm ∧ (beginRemaps f l s).links = s.links ∧ (beginRemaps f l
    s).mesh = s.mesh ∧ (beginRemaps f l s).test = s.test ∧ (beginRemaps f l s).health = s.health ∧ (beginRemaps f l s).free = s.free := by
  fun_induction beginRemaps f l s <;> simp_all +zetaDelta

@[simp] theorem beginRemap_keeps (f : Nat) (s : State) : (beginRemap f s).pending = s.pending ∧ (beginRemap f s).pins = s.pins ∧ (beginRemap f
    s).ctl = s.ctl ∧ (beginRemap f s).pwr = s.pwr ∧ (beginRemap f s).otp = s.otp ∧ (beginRemap f s).gateh = s.gateh ∧ (beginRemap f s).mbx = s.mbx ∧
    (beginRemap f s).job = s.job ∧ (beginRemap f s).chans = s.chans ∧ (beginRemap f s).plots = s.plots ∧ (beginRemap f s).bridges = s.bridges ∧
    (beginRemap f s).hbm = s.hbm ∧ (beginRemap f s).links = s.links ∧ (beginRemap f s).mesh = s.mesh ∧ (beginRemap f s).test = s.test ∧ (beginRemap
    f s).health = s.health ∧ (beginRemap f s).free = s.free := by
  unfold beginRemap
  simp

@[simp] theorem dropJob_keeps (s : State) : (dropJob s).pending = s.pending ∧ (dropJob s).pins = s.pins ∧ (dropJob s).ctl = s.ctl ∧ (dropJob s).pwr
    = s.pwr ∧ (dropJob s).otp = s.otp ∧ (dropJob s).gateh = s.gateh ∧ (dropJob s).mbx = s.mbx ∧ (dropJob s).bridges = s.bridges ∧ (dropJob s).hbm =
    s.hbm ∧ (dropJob s).links = s.links ∧ (dropJob s).test = s.test ∧ (dropJob s).health = s.health ∧ (dropJob s).free = s.free := by
  unfold dropJob
  (repeat' split) <;> simp

@[simp] theorem unloadJob_keeps (cause : Nat) (s : State) : (unloadJob cause s).pending = s.pending ∧ (unloadJob cause s).pins = s.pins ∧ (unloadJob
    cause s).pwr = s.pwr ∧ (unloadJob cause s).otp = s.otp ∧ (unloadJob cause s).gateh = s.gateh ∧ (unloadJob cause s).mbx = s.mbx ∧ (unloadJob
    cause s).bridges = s.bridges ∧ (unloadJob cause s).hbm = s.hbm ∧ (unloadJob cause s).links = s.links ∧ (unloadJob cause s).test = s.test ∧
    (unloadJob cause s).health = s.health ∧ (unloadJob cause s).free = s.free := by
  unfold unloadJob
  simp

@[simp] theorem noteSession_keeps (id : Nat) (e : Session) (opened : Bool) (s : State) : (noteSession id e opened s).pending = s.pending ∧
    (noteSession id e opened s).pins = s.pins ∧ (noteSession id e opened s).ctl = s.ctl ∧ (noteSession id e opened s).pwr = s.pwr ∧ (noteSession id
    e opened s).otp = s.otp ∧ (noteSession id e opened s).gateh = s.gateh ∧ (noteSession id e opened s).mbx = s.mbx ∧ (noteSession id e opened
    s).job = s.job ∧ (noteSession id e opened s).chans = s.chans ∧ (noteSession id e opened s).plots = s.plots ∧ (noteSession id e opened s).flds =
    s.flds ∧ (noteSession id e opened s).grid = s.grid ∧ (noteSession id e opened s).bridges = s.bridges ∧ (noteSession id e opened s).hbm = s.hbm ∧
    (noteSession id e opened s).links = s.links ∧ (noteSession id e opened s).mesh = s.mesh ∧ (noteSession id e opened s).test = s.test ∧
    (noteSession id e opened s).health = s.health ∧ (noteSession id e opened s).free = s.free := by
  unfold noteSession
  simp

@[simp] theorem endSession_keeps (id : Nat) (s : State) : (endSession id s).pending = s.pending ∧ (endSession id s).pins = s.pins ∧ (endSession id
    s).pwr = s.pwr ∧ (endSession id s).otp = s.otp ∧ (endSession id s).mbx = s.mbx ∧ (endSession id s).bridges = s.bridges ∧ (endSession id s).test
    = s.test ∧ (endSession id s).health = s.health := by
  unfold endSession
  (repeat' split) <;> simp

@[simp] theorem endSessions_keeps (p : Session → Bool) (s : State) : (endSessions p s).pending = s.pending ∧ (endSessions p s).pins = s.pins ∧
    (endSessions p s).pwr = s.pwr ∧ (endSessions p s).otp = s.otp ∧ (endSessions p s).mbx = s.mbx ∧ (endSessions p s).bridges = s.bridges ∧
    (endSessions p s).test = s.test ∧ (endSessions p s).health = s.health := by
  unfold endSessions
  simp

@[simp] theorem dropSessions_keeps (s : State) : (dropSessions s).pending = s.pending ∧ (dropSessions s).pins = s.pins ∧ (dropSessions s).ctl =
    s.ctl ∧ (dropSessions s).pwr = s.pwr ∧ (dropSessions s).otp = s.otp ∧ (dropSessions s).mbx = s.mbx ∧ (dropSessions s).job = s.job ∧
    (dropSessions s).chans = s.chans ∧ (dropSessions s).plots = s.plots ∧ (dropSessions s).flds = s.flds ∧ (dropSessions s).grid = s.grid ∧
    (dropSessions s).bridges = s.bridges ∧ (dropSessions s).hbm = s.hbm ∧ (dropSessions s).links = s.links ∧ (dropSessions s).mesh = s.mesh ∧
    (dropSessions s).test = s.test ∧ (dropSessions s).health = s.health ∧ (dropSessions s).free = s.free := by
  unfold dropSessions
  simp

/-! ## Start -/

@[simp] theorem loseHbm_keeps (s : State) : (loseHbm s).pending = s.pending ∧ (loseHbm s).pins = s.pins ∧ (loseHbm s).ctl = s.ctl ∧ (loseHbm s).pwr
    = s.pwr ∧ (loseHbm s).otp = s.otp ∧ (loseHbm s).mbx = s.mbx ∧ (loseHbm s).evt = s.evt ∧ (loseHbm s).job = s.job ∧ (loseHbm s).chans = s.chans ∧
    (loseHbm s).plots = s.plots ∧ (loseHbm s).flds = s.flds ∧ (loseHbm s).grid = s.grid ∧ (loseHbm s).bridges = s.bridges ∧ (loseHbm s).links =
    s.links ∧ (loseHbm s).mesh = s.mesh ∧ (loseHbm s).test = s.test ∧ (loseHbm s).health = s.health ∧ (loseHbm s).free = s.free := by
  unfold loseHbm
  simp

@[simp] theorem residency_keeps (s : State) : (residency s).pending = s.pending ∧ (residency s).pins = s.pins ∧ (residency s).ctl = s.ctl ∧
    (residency s).pwr = s.pwr ∧ (residency s).otp = s.otp ∧ (residency s).mbx = s.mbx ∧ (residency s).job = s.job ∧ (residency s).chans = s.chans ∧
    (residency s).bridges = s.bridges ∧ (residency s).test = s.test ∧ (residency s).health = s.health := by
  unfold residency
  simp

@[simp] theorem removeRegions_keeps (s : State) : (removeRegions s).pending = s.pending ∧ (removeRegions s).pins = s.pins ∧ (removeRegions s).ctl =
    s.ctl ∧ (removeRegions s).pwr = s.pwr ∧ (removeRegions s).otp = s.otp ∧ (removeRegions s).mbx = s.mbx ∧ (removeRegions s).job = s.job ∧
    (removeRegions s).chans = s.chans ∧ (removeRegions s).bridges = s.bridges ∧ (removeRegions s).test = s.test ∧ (removeRegions s).health =
    s.health := by
  unfold removeRegions
  simp

@[simp] theorem powerDown_keeps (s : State) : (powerDown s).pending = s.pending ∧ (powerDown s).pins = s.pins ∧ (powerDown s).pwr = s.pwr ∧
    (powerDown s).otp = s.otp ∧ (powerDown s).gateh = s.gateh ∧ (powerDown s).mbx = s.mbx ∧ (powerDown s).bridges = s.bridges ∧ (powerDown s).hbm =
    s.hbm ∧ (powerDown s).health = s.health ∧ (powerDown s).free = s.free := by
  unfold powerDown
  simp

@[simp] theorem lodgeOrderly_keeps (retain : Bool) (cause : Nat) (s : State) : (lodgeOrderly retain cause s).pending = s.pending ∧ (lodgeOrderly
    retain cause s).pins = s.pins ∧ (lodgeOrderly retain cause s).pwr = s.pwr ∧ (lodgeOrderly retain cause s).otp = s.otp ∧ (lodgeOrderly retain
    cause s).mbx = s.mbx ∧ (lodgeOrderly retain cause s).bridges = s.bridges ∧ (lodgeOrderly retain cause s).health = s.health := by
  unfold lodgeOrderly
  (repeat' split) <;> simp

@[simp] theorem lodgeLoss_keeps (cause : Nat) (s : State) : (lodgeLoss cause s).pending = s.pending ∧ (lodgeLoss cause s).pins = s.pins ∧ (lodgeLoss
    cause s).pwr = s.pwr ∧ (lodgeLoss cause s).otp = s.otp ∧ (lodgeLoss cause s).mbx = s.mbx ∧ (lodgeLoss cause s).bridges = s.bridges ∧ (lodgeLoss
    cause s).health = s.health ∧ (lodgeLoss cause s).free = s.free := by
  unfold lodgeLoss
  (repeat' split) <;> simp

@[simp] theorem enterBoot_keeps (cause : Nat) (s : State) : (enterBoot cause s).pending = s.pending ∧ (enterBoot cause s).pins = s.pins ∧ (enterBoot
    cause s).pwr = s.pwr ∧ (enterBoot cause s).otp = s.otp ∧ (enterBoot cause s).mbx = s.mbx ∧ (enterBoot cause s).bridges = s.bridges ∧ (enterBoot
    cause s).test = s.test ∧ (enterBoot cause s).health = s.health := by
  unfold enterBoot
  dsimp only
  (repeat' split) <;> simp

@[simp] theorem powerRise_keeps (s : State) : (powerRise s).pending = s.pending ∧ (powerRise s).pins = s.pins ∧ (powerRise s).pwr = s.pwr ∧
    (powerRise s).otp = s.otp ∧ (powerRise s).mbx = s.mbx ∧ (powerRise s).bridges = s.bridges ∧ (powerRise s).test = s.test ∧ (powerRise s).health =
    s.health := by
  unfold powerRise
  (repeat' split) <;> simp

@[simp] theorem sealModule_keeps (cause : Nat) (s : State) : (sealModule cause s).pending = s.pending ∧ (sealModule cause s).pins = s.pins ∧
    (sealModule cause s).pwr = s.pwr ∧ (sealModule cause s).otp = s.otp ∧ (sealModule cause s).mbx = s.mbx ∧ (sealModule cause s).bridges =
    s.bridges ∧ (sealModule cause s).health = s.health := by
  unfold sealModule
  (repeat' split) <;> simp

@[simp] theorem withoutRail_keeps (s : State) : (withoutRail s).pending = s.pending ∧ (withoutRail s).otp = s.otp ∧
    (withoutRail s).free = s.free := ⟨rfl, rfl, rfl⟩

@[simp] theorem addSoft_keeps (f : Nat) (loc : SoftLoc) (origin : Nat) (s : State) : (addSoft f loc origin s).pending = s.pending ∧ (addSoft f loc
    origin s).pins = s.pins ∧ (addSoft f loc origin s).ctl = s.ctl ∧ (addSoft f loc origin s).pwr = s.pwr ∧ (addSoft f loc origin s).otp = s.otp ∧
    (addSoft f loc origin s).gateh = s.gateh ∧ (addSoft f loc origin s).mbx = s.mbx ∧ (addSoft f loc origin s).evt = s.evt ∧ (addSoft f loc origin
    s).job = s.job ∧ (addSoft f loc origin s).chans = s.chans ∧ (addSoft f loc origin s).plots = s.plots ∧ (addSoft f loc origin s).flds = s.flds ∧
    (addSoft f loc origin s).grid = s.grid ∧ (addSoft f loc origin s).bridges = s.bridges ∧ (addSoft f loc origin s).hbm = s.hbm ∧ (addSoft f loc
    origin s).links = s.links ∧ (addSoft f loc origin s).mesh = s.mesh ∧ (addSoft f loc origin s).test = s.test ∧ (addSoft f loc origin s).health =
    s.health ∧ (addSoft f loc origin s).free = s.free := by
  unfold addSoft
  simp

@[simp] theorem fenceAtBoot_keeps (full : Bool) (f cause : Nat) (s : State) : (fenceAtBoot full f cause s).pending = s.pending ∧ (fenceAtBoot full f
    cause s).pins = s.pins ∧ (fenceAtBoot full f cause s).ctl = s.ctl ∧ (fenceAtBoot full f cause s).pwr = s.pwr ∧ (fenceAtBoot full f cause s).otp
    = s.otp ∧ (fenceAtBoot full f cause s).gateh = s.gateh ∧ (fenceAtBoot full f cause s).mbx = s.mbx ∧ (fenceAtBoot full f cause s).job = s.job ∧
    (fenceAtBoot full f cause s).chans = s.chans ∧ (fenceAtBoot full f cause s).plots = s.plots ∧ (fenceAtBoot full f cause s).grid = s.grid ∧
    (fenceAtBoot full f cause s).bridges = s.bridges ∧ (fenceAtBoot full f cause s).hbm = s.hbm ∧ (fenceAtBoot full f cause s).links = s.links ∧
    (fenceAtBoot full f cause s).mesh = s.mesh ∧ (fenceAtBoot full f cause s).test = s.test ∧ (fenceAtBoot full f cause s).health = s.health ∧
    (fenceAtBoot full f cause s).free = s.free := by
  unfold fenceAtBoot
  simp

/-! ## Module -/

@[simp] theorem gatePort_keeps (i : Nat) (s : State) : (gatePort i s).pending = s.pending ∧ (gatePort i s).pins = s.pins ∧ (gatePort i s).ctl =
    s.ctl ∧ (gatePort i s).pwr = s.pwr ∧ (gatePort i s).otp = s.otp ∧ (gatePort i s).mbx = s.mbx ∧ (gatePort i s).job = s.job ∧ (gatePort i s).chans
    = s.chans ∧ (gatePort i s).bridges = s.bridges ∧ (gatePort i s).hbm = s.hbm ∧ (gatePort i s).test = s.test ∧ (gatePort i s).health = s.health ∧
    (gatePort i s).free = s.free := by
  unfold gatePort
  (repeat' split) <;> simp

@[simp] theorem gatePair_keeps (q : Nat × Nat) (s : State) : (gatePair q s).pending = s.pending ∧ (gatePair q s).pins = s.pins ∧ (gatePair q s).ctl
    = s.ctl ∧ (gatePair q s).pwr = s.pwr ∧ (gatePair q s).otp = s.otp ∧ (gatePair q s).mbx = s.mbx ∧ (gatePair q s).job = s.job ∧ (gatePair q
    s).chans = s.chans ∧ (gatePair q s).bridges = s.bridges ∧ (gatePair q s).hbm = s.hbm ∧ (gatePair q s).test = s.test ∧ (gatePair q s).health =
    s.health ∧ (gatePair q s).free = s.free := by
  unfold gatePair
  simp

@[simp] theorem enterTesting_keeps (level : Nat) (retain : Bool) (s : State) : (enterTesting level retain s).pending = s.pending ∧ (enterTesting
    level retain s).pins = s.pins ∧ (enterTesting level retain s).pwr = s.pwr ∧ (enterTesting level retain s).otp = s.otp ∧ (enterTesting level
    retain s).mbx = s.mbx ∧ (enterTesting level retain s).job = s.job ∧ (enterTesting level retain s).chans = s.chans ∧ (enterTesting level retain
    s).bridges = s.bridges ∧ (enterTesting level retain s).health = s.health := by
  unfold enterTesting
  simp

@[simp] theorem shutdown_keeps (h : Hdr) (level retain : U64) (s : State) : (shutdown h level retain s).pending = s.pending ∧ (shutdown h level
    retain s).pins = s.pins ∧ (shutdown h level retain s).pwr = s.pwr ∧ (shutdown h level retain s).otp = s.otp ∧ (shutdown h level retain
    s).bridges = s.bridges ∧ (shutdown h level retain s).health = s.health := by
  unfold shutdown
  dsimp only
  (repeat' split) <;> simp

@[simp] theorem noteRejected_keeps (kind version reason : Nat) (s : State) : (noteRejected kind version reason s).pending = s.pending ∧
    (noteRejected kind version reason s).pins = s.pins ∧ (noteRejected kind version reason s).ctl = s.ctl ∧ (noteRejected kind version reason s).pwr
    = s.pwr ∧ (noteRejected kind version reason s).otp = s.otp ∧ (noteRejected kind version reason s).gateh = s.gateh ∧ (noteRejected kind version
    reason s).mbx = s.mbx ∧ (noteRejected kind version reason s).job = s.job ∧ (noteRejected kind version reason s).chans = s.chans ∧ (noteRejected
    kind version reason s).plots = s.plots ∧ (noteRejected kind version reason s).flds = s.flds ∧ (noteRejected kind version reason s).grid = s.grid
    ∧ (noteRejected kind version reason s).bridges = s.bridges ∧ (noteRejected kind version reason s).hbm = s.hbm ∧ (noteRejected kind version
    reason s).links = s.links ∧ (noteRejected kind version reason s).mesh = s.mesh ∧ (noteRejected kind version reason s).test = s.test ∧
    (noteRejected kind version reason s).health = s.health ∧ (noteRejected kind version reason s).free = s.free := by
  unfold noteRejected
  simp

/-! ## Security -/

@[simp] theorem expireHandshakes_keeps (s : State) : (expireHandshakes s).pending = s.pending ∧ (expireHandshakes s).pins = s.pins ∧
    (expireHandshakes s).ctl = s.ctl ∧ (expireHandshakes s).pwr = s.pwr ∧ (expireHandshakes s).otp = s.otp ∧ (expireHandshakes s).flash = s.flash ∧
    (expireHandshakes s).mbx = s.mbx ∧ (expireHandshakes s).evt = s.evt ∧ (expireHandshakes s).job = s.job ∧ (expireHandshakes s).chans = s.chans ∧
    (expireHandshakes s).plots = s.plots ∧ (expireHandshakes s).flds = s.flds ∧ (expireHandshakes s).grid = s.grid ∧ (expireHandshakes s).bridges =
    s.bridges ∧ (expireHandshakes s).hbm = s.hbm ∧ (expireHandshakes s).links = s.links ∧ (expireHandshakes s).mesh = s.mesh ∧ (expireHandshakes
    s).test = s.test ∧ (expireHandshakes s).health = s.health ∧ (expireHandshakes s).free = s.free := by
  unfold expireHandshakes
  simp

@[simp] theorem dropHandshake_keeps (id : Nat) (s : State) : (dropHandshake id s).pending = s.pending ∧ (dropHandshake id s).pins = s.pins ∧
    (dropHandshake id s).ctl = s.ctl ∧ (dropHandshake id s).pwr = s.pwr ∧ (dropHandshake id s).otp = s.otp ∧ (dropHandshake id s).flash = s.flash ∧
    (dropHandshake id s).mbx = s.mbx ∧ (dropHandshake id s).evt = s.evt ∧ (dropHandshake id s).job = s.job ∧ (dropHandshake id s).chans = s.chans ∧
    (dropHandshake id s).plots = s.plots ∧ (dropHandshake id s).flds = s.flds ∧ (dropHandshake id s).grid = s.grid ∧ (dropHandshake id s).bridges =
    s.bridges ∧ (dropHandshake id s).hbm = s.hbm ∧ (dropHandshake id s).links = s.links ∧ (dropHandshake id s).mesh = s.mesh ∧ (dropHandshake id
    s).test = s.test ∧ (dropHandshake id s).health = s.health ∧ (dropHandshake id s).free = s.free := by
  unfold dropHandshake
  simp

@[simp] theorem burnAnswer_pending (k v : Nat) (good : Bool) (after : State → State) (s : State) (h1 : ∀ t, (after t).pending = t.pending) :
    (burnAnswer k v good after s).1.pending = s.pending := by
  unfold burnAnswer
  dsimp only
  (repeat' split) <;> simp [h1]

@[simp] theorem burnAnswer_pins (k v : Nat) (good : Bool) (after : State → State) (s : State) (h1 : ∀ t, (after t).pins = t.pins) : (burnAnswer k v
    good after s).1.pins = s.pins := by
  unfold burnAnswer
  dsimp only
  (repeat' split) <;> simp [h1]

@[simp] theorem burnAnswer_ctl (k v : Nat) (good : Bool) (after : State → State) (s : State) (h1 : ∀ t, (after t).ctl = t.ctl) : (burnAnswer k v
    good after s).1.ctl = s.ctl := by
  unfold burnAnswer
  dsimp only
  (repeat' split) <;> simp [h1]

@[simp] theorem burnAnswer_pwr (k v : Nat) (good : Bool) (after : State → State) (s : State) (h1 : ∀ t, (after t).pwr = t.pwr) : (burnAnswer k v
    good after s).1.pwr = s.pwr := by
  unfold burnAnswer
  dsimp only
  (repeat' split) <;> simp [h1]

@[simp] theorem burnAnswer_flash (k v : Nat) (good : Bool) (after : State → State) (s : State) (h1 : ∀ t, (after t).flash = t.flash) : (burnAnswer k
    v good after s).1.flash = s.flash := by
  unfold burnAnswer
  dsimp only
  (repeat' split) <;> simp [h1]

@[simp] theorem burnAnswer_gateh (k v : Nat) (good : Bool) (after : State → State) (s : State) (h1 : ∀ t, (after t).gateh = t.gateh) : (burnAnswer k
    v good after s).1.gateh = s.gateh := by
  unfold burnAnswer
  dsimp only
  (repeat' split) <;> simp [h1]

@[simp] theorem burnAnswer_mbx (k v : Nat) (good : Bool) (after : State → State) (s : State) (h1 : ∀ t, (after t).mbx = t.mbx) : (burnAnswer k v
    good after s).1.mbx = s.mbx := by
  unfold burnAnswer
  dsimp only
  (repeat' split) <;> simp [h1]

@[simp] theorem burnAnswer_evt (k v : Nat) (good : Bool) (after : State → State) (s : State) (h1 : ∀ t, (after t).evt = t.evt) : (burnAnswer k v
    good after s).1.evt = s.evt := by
  unfold burnAnswer
  dsimp only
  (repeat' split) <;> simp [h1]

@[simp] theorem burnAnswer_job (k v : Nat) (good : Bool) (after : State → State) (s : State) (h1 : ∀ t, (after t).job = t.job) : (burnAnswer k v
    good after s).1.job = s.job := by
  unfold burnAnswer
  dsimp only
  (repeat' split) <;> simp [h1]

@[simp] theorem burnAnswer_chans (k v : Nat) (good : Bool) (after : State → State) (s : State) (h1 : ∀ t, (after t).chans = t.chans) : (burnAnswer k
    v good after s).1.chans = s.chans := by
  unfold burnAnswer
  dsimp only
  (repeat' split) <;> simp [h1]

@[simp] theorem burnAnswer_plots (k v : Nat) (good : Bool) (after : State → State) (s : State) (h1 : ∀ t, (after t).plots = t.plots) : (burnAnswer k
    v good after s).1.plots = s.plots := by
  unfold burnAnswer
  dsimp only
  (repeat' split) <;> simp [h1]

@[simp] theorem burnAnswer_flds (k v : Nat) (good : Bool) (after : State → State) (s : State) (h1 : ∀ t, (after t).flds = t.flds) : (burnAnswer k v
    good after s).1.flds = s.flds := by
  unfold burnAnswer
  dsimp only
  (repeat' split) <;> simp [h1]

@[simp] theorem burnAnswer_grid (k v : Nat) (good : Bool) (after : State → State) (s : State) (h1 : ∀ t, (after t).grid = t.grid) : (burnAnswer k v
    good after s).1.grid = s.grid := by
  unfold burnAnswer
  dsimp only
  (repeat' split) <;> simp [h1]

@[simp] theorem burnAnswer_bridges (k v : Nat) (good : Bool) (after : State → State) (s : State) (h1 : ∀ t, (after t).bridges = t.bridges) :
    (burnAnswer k v good after s).1.bridges = s.bridges := by
  unfold burnAnswer
  dsimp only
  (repeat' split) <;> simp [h1]

@[simp] theorem burnAnswer_hbm (k v : Nat) (good : Bool) (after : State → State) (s : State) (h1 : ∀ t, (after t).hbm = t.hbm) : (burnAnswer k v
    good after s).1.hbm = s.hbm := by
  unfold burnAnswer
  dsimp only
  (repeat' split) <;> simp [h1]

@[simp] theorem burnAnswer_links (k v : Nat) (good : Bool) (after : State → State) (s : State) (h1 : ∀ t, (after t).links = t.links) : (burnAnswer k
    v good after s).1.links = s.links := by
  unfold burnAnswer
  dsimp only
  (repeat' split) <;> simp [h1]

@[simp] theorem burnAnswer_mesh (k v : Nat) (good : Bool) (after : State → State) (s : State) (h1 : ∀ t, (after t).mesh = t.mesh) : (burnAnswer k v
    good after s).1.mesh = s.mesh := by
  unfold burnAnswer
  dsimp only
  (repeat' split) <;> simp [h1]

@[simp] theorem burnAnswer_test (k v : Nat) (good : Bool) (after : State → State) (s : State) (h1 : ∀ t, (after t).test = t.test) : (burnAnswer k v
    good after s).1.test = s.test := by
  unfold burnAnswer
  dsimp only
  (repeat' split) <;> simp [h1]

@[simp] theorem burnAnswer_health (k v : Nat) (good : Bool) (after : State → State) (s : State) (h1 : ∀ t, (after t).health = t.health) :
    (burnAnswer k v good after s).1.health = s.health := by
  unfold burnAnswer
  dsimp only
  (repeat' split) <;> simp [h1]

@[simp] theorem burnAnswer_free (k v : Nat) (good : Bool) (after : State → State) (s : State) (h1 : ∀ t, (after t).free = t.free) : (burnAnswer k v
    good after s).1.free = s.free := by
  unfold burnAnswer
  dsimp only
  (repeat' split) <;> simp [h1]

@[simp] theorem destroyTenants_keeps (s : State) : (destroyTenants s).pending = s.pending ∧ (destroyTenants s).pins = s.pins ∧ (destroyTenants
    s).ctl = s.ctl ∧ (destroyTenants s).pwr = s.pwr ∧ (destroyTenants s).otp = s.otp ∧ (destroyTenants s).mbx = s.mbx ∧ (destroyTenants s).job =
    s.job ∧ (destroyTenants s).chans = s.chans ∧ (destroyTenants s).bridges = s.bridges ∧ (destroyTenants s).test = s.test ∧ (destroyTenants
    s).health = s.health := by
  unfold destroyTenants
  simp

@[simp] theorem ownerKeyChange_keeps (h : Hdr) (value : U64) (x : Ext) (s : State) : (ownerKeyChange h value x s).pending = s.pending ∧
    (ownerKeyChange h value x s).pins = s.pins ∧ (ownerKeyChange h value x s).pwr = s.pwr ∧ (ownerKeyChange h value x s).bridges = s.bridges ∧
    (ownerKeyChange h value x s).test = s.test ∧ (ownerKeyChange h value x s).health = s.health := by
  unfold ownerKeyChange
  simp (disch := (intros; first | (simp; done) | ((repeat' split) <;> simp; done) | (dsimp only; (repeat' split) <;> simp; done)))

/-! ## Health -/

@[simp] theorem warnStack_keeps (kind k : Nat) (value threshold : Int) (s : State) : (warnStack kind k value threshold s).pending = s.pending ∧
    (warnStack kind k value threshold s).pins = s.pins ∧ (warnStack kind k value threshold s).ctl = s.ctl ∧ (warnStack kind k value threshold s).pwr
    = s.pwr ∧ (warnStack kind k value threshold s).otp = s.otp ∧ (warnStack kind k value threshold s).gateh = s.gateh ∧ (warnStack kind k value
    threshold s).mbx = s.mbx ∧ (warnStack kind k value threshold s).job = s.job ∧ (warnStack kind k value threshold s).chans = s.chans ∧ (warnStack
    kind k value threshold s).plots = s.plots ∧ (warnStack kind k value threshold s).flds = s.flds ∧ (warnStack kind k value threshold s).grid =
    s.grid ∧ (warnStack kind k value threshold s).bridges = s.bridges ∧ (warnStack kind k value threshold s).hbm = s.hbm ∧ (warnStack kind k value
    threshold s).links = s.links ∧ (warnStack kind k value threshold s).mesh = s.mesh ∧ (warnStack kind k value threshold s).test = s.test ∧
    (warnStack kind k value threshold s).free = s.free := by
  unfold warnStack
  simp

@[simp] theorem takePack_keeps (k : Pack) (s : State) : (takePack k s).pending = s.pending ∧ (takePack k s).pins = s.pins ∧ (takePack k s).ctl =
    s.ctl ∧ (takePack k s).pwr = s.pwr ∧ (takePack k s).otp = s.otp ∧ (takePack k s).gateh = s.gateh ∧ (takePack k s).mbx = s.mbx ∧ (takePack k
    s).job = s.job ∧ (takePack k s).chans = s.chans ∧ (takePack k s).plots = s.plots ∧ (takePack k s).flds = s.flds ∧ (takePack k s).grid = s.grid ∧
    (takePack k s).bridges = s.bridges ∧ (takePack k s).hbm = s.hbm ∧ (takePack k s).links = s.links ∧ (takePack k s).mesh = s.mesh ∧ (takePack k
    s).health = s.health ∧ (takePack k s).free = s.free := by
  unfold takePack
  (repeat' split) <;> simp

/-! ## Power -/

@[simp] theorem notePressure_keeps (s : State) : (notePressure s).pending = s.pending ∧ (notePressure s).pins = s.pins ∧ (notePressure s).ctl =
    s.ctl ∧ (notePressure s).otp = s.otp ∧ (notePressure s).gateh = s.gateh ∧ (notePressure s).mbx = s.mbx ∧ (notePressure s).job = s.job ∧
    (notePressure s).chans = s.chans ∧ (notePressure s).plots = s.plots ∧ (notePressure s).flds = s.flds ∧ (notePressure s).grid = s.grid ∧
    (notePressure s).bridges = s.bridges ∧ (notePressure s).hbm = s.hbm ∧ (notePressure s).links = s.links ∧ (notePressure s).mesh = s.mesh ∧
    (notePressure s).test = s.test ∧ (notePressure s).health = s.health ∧ (notePressure s).free = s.free := by
  unfold notePressure
  (repeat' split) <;> simp

@[simp] theorem sleepCheck_keeps (p : Nat) (s : State) : (sleepCheck p s).pending = s.pending ∧ (sleepCheck p s).pins = s.pins ∧ (sleepCheck p
    s).ctl = s.ctl ∧ (sleepCheck p s).pwr = s.pwr ∧ (sleepCheck p s).otp = s.otp ∧ (sleepCheck p s).flash = s.flash ∧ (sleepCheck p s).gateh =
    s.gateh ∧ (sleepCheck p s).mbx = s.mbx ∧ (sleepCheck p s).evt = s.evt ∧ (sleepCheck p s).job = s.job ∧ (sleepCheck p s).chans = s.chans ∧
    (sleepCheck p s).flds = s.flds ∧ (sleepCheck p s).grid = s.grid ∧ (sleepCheck p s).bridges = s.bridges ∧ (sleepCheck p s).hbm = s.hbm ∧
    (sleepCheck p s).links = s.links ∧ (sleepCheck p s).mesh = s.mesh ∧ (sleepCheck p s).test = s.test ∧ (sleepCheck p s).health = s.health ∧
    (sleepCheck p s).free = s.free := by
  unfold sleepCheck
  (repeat' split) <;> simp

/-! ## Ladder -/

@[simp] theorem endCheck_keeps (f col row : Nat) (s : State) : (endCheck f col row s).pending = s.pending ∧ (endCheck f col row s).pins = s.pins ∧
    (endCheck f col row s).ctl = s.ctl ∧ (endCheck f col row s).pwr = s.pwr ∧ (endCheck f col row s).otp = s.otp ∧ (endCheck f col row s).flash =
    s.flash ∧ (endCheck f col row s).gateh = s.gateh ∧ (endCheck f col row s).mbx = s.mbx ∧ (endCheck f col row s).evt = s.evt ∧ (endCheck f col row
    s).job = s.job ∧ (endCheck f col row s).chans = s.chans ∧ (endCheck f col row s).flds = s.flds ∧ (endCheck f col row s).grid = s.grid ∧
    (endCheck f col row s).bridges = s.bridges ∧ (endCheck f col row s).hbm = s.hbm ∧ (endCheck f col row s).links = s.links ∧ (endCheck f col row
    s).mesh = s.mesh ∧ (endCheck f col row s).test = s.test ∧ (endCheck f col row s).health = s.health ∧ (endCheck f col row s).free = s.free := by
  unfold endCheck
  (repeat' split) <;> simp

@[simp] theorem fenceCore_keeps (f col row cause : Nat) (s : State) : (fenceCore f col row cause s).pending = s.pending ∧ (fenceCore f col row cause
    s).pins = s.pins ∧ (fenceCore f col row cause s).ctl = s.ctl ∧ (fenceCore f col row cause s).pwr = s.pwr ∧ (fenceCore f col row cause s).otp =
    s.otp ∧ (fenceCore f col row cause s).flash = s.flash ∧ (fenceCore f col row cause s).gateh = s.gateh ∧ (fenceCore f col row cause s).mbx =
    s.mbx ∧ (fenceCore f col row cause s).evt = s.evt ∧ (fenceCore f col row cause s).job = s.job ∧ (fenceCore f col row cause s).chans = s.chans ∧
    (fenceCore f col row cause s).grid = s.grid ∧ (fenceCore f col row cause s).bridges = s.bridges ∧ (fenceCore f col row cause s).hbm = s.hbm ∧
    (fenceCore f col row cause s).links = s.links ∧ (fenceCore f col row cause s).mesh = s.mesh ∧ (fenceCore f col row cause s).test = s.test ∧
    (fenceCore f col row cause s).health = s.health ∧ (fenceCore f col row cause s).free = s.free := by
  unfold fenceCore
  simp

@[simp] theorem noteRecovered_keeps (f col row cause : Nat) (s : State) : (noteRecovered f col row cause s).pending = s.pending ∧ (noteRecovered f
    col row cause s).pins = s.pins ∧ (noteRecovered f col row cause s).ctl = s.ctl ∧ (noteRecovered f col row cause s).pwr = s.pwr ∧ (noteRecovered
    f col row cause s).otp = s.otp ∧ (noteRecovered f col row cause s).gateh = s.gateh ∧ (noteRecovered f col row cause s).mbx = s.mbx ∧
    (noteRecovered f col row cause s).job = s.job ∧ (noteRecovered f col row cause s).chans = s.chans ∧ (noteRecovered f col row cause s).grid =
    s.grid ∧ (noteRecovered f col row cause s).bridges = s.bridges ∧ (noteRecovered f col row cause s).hbm = s.hbm ∧ (noteRecovered f col row cause
    s).links = s.links ∧ (noteRecovered f col row cause s).mesh = s.mesh ∧ (noteRecovered f col row cause s).test = s.test ∧ (noteRecovered f col
    row cause s).free = s.free := by
  unfold noteRecovered
  dsimp only
  (repeat' split) <;> simp

@[simp] theorem noteSliceRecovered_keeps (p i cause : Nat) (s : State) : (noteSliceRecovered p i cause s).pending = s.pending ∧ (noteSliceRecovered
    p i cause s).pins = s.pins ∧ (noteSliceRecovered p i cause s).ctl = s.ctl ∧ (noteSliceRecovered p i cause s).pwr = s.pwr ∧ (noteSliceRecovered p
    i cause s).otp = s.otp ∧ (noteSliceRecovered p i cause s).gateh = s.gateh ∧ (noteSliceRecovered p i cause s).mbx = s.mbx ∧ (noteSliceRecovered p
    i cause s).job = s.job ∧ (noteSliceRecovered p i cause s).chans = s.chans ∧ (noteSliceRecovered p i cause s).grid = s.grid ∧ (noteSliceRecovered
    p i cause s).bridges = s.bridges ∧ (noteSliceRecovered p i cause s).hbm = s.hbm ∧ (noteSliceRecovered p i cause s).links = s.links ∧
    (noteSliceRecovered p i cause s).mesh = s.mesh ∧ (noteSliceRecovered p i cause s).test = s.test ∧ (noteSliceRecovered p i cause s).free = s.free
    := by
  unfold noteSliceRecovered
  simp

@[simp] theorem fenceSliceCore_keeps (p i cause : Nat) (s : State) : (fenceSliceCore p i cause s).pending = s.pending ∧ (fenceSliceCore p i cause
    s).pins = s.pins ∧ (fenceSliceCore p i cause s).ctl = s.ctl ∧ (fenceSliceCore p i cause s).pwr = s.pwr ∧ (fenceSliceCore p i cause s).otp =
    s.otp ∧ (fenceSliceCore p i cause s).flash = s.flash ∧ (fenceSliceCore p i cause s).gateh = s.gateh ∧ (fenceSliceCore p i cause s).mbx = s.mbx ∧
    (fenceSliceCore p i cause s).evt = s.evt ∧ (fenceSliceCore p i cause s).job = s.job ∧ (fenceSliceCore p i cause s).chans = s.chans ∧
    (fenceSliceCore p i cause s).grid = s.grid ∧ (fenceSliceCore p i cause s).bridges = s.bridges ∧ (fenceSliceCore p i cause s).hbm = s.hbm ∧
    (fenceSliceCore p i cause s).links = s.links ∧ (fenceSliceCore p i cause s).mesh = s.mesh ∧ (fenceSliceCore p i cause s).test = s.test ∧
    (fenceSliceCore p i cause s).health = s.health ∧ (fenceSliceCore p i cause s).free = s.free := by
  unfold fenceSliceCore
  simp

@[simp] theorem haltPlot_keeps (p : Nat) (s : State) : (haltPlot p s).pending = s.pending ∧ (haltPlot p s).pins = s.pins ∧ (haltPlot p s).ctl =
    s.ctl ∧ (haltPlot p s).pwr = s.pwr ∧ (haltPlot p s).otp = s.otp ∧ (haltPlot p s).flash = s.flash ∧ (haltPlot p s).gateh = s.gateh ∧ (haltPlot p
    s).mbx = s.mbx ∧ (haltPlot p s).evt = s.evt ∧ (haltPlot p s).job = s.job ∧ (haltPlot p s).chans = s.chans ∧ (haltPlot p s).grid = s.grid ∧
    (haltPlot p s).bridges = s.bridges ∧ (haltPlot p s).hbm = s.hbm ∧ (haltPlot p s).links = s.links ∧ (haltPlot p s).mesh = s.mesh ∧ (haltPlot p
    s).test = s.test ∧ (haltPlot p s).health = s.health ∧ (haltPlot p s).free = s.free := by
  unfold haltPlot
  simp

@[simp] theorem notePlotFence_keeps (f pos origin : Nat) (p : Option Nat) (s : State) : (notePlotFence f pos origin p s).pending = s.pending ∧
    (notePlotFence f pos origin p s).pins = s.pins ∧ (notePlotFence f pos origin p s).ctl = s.ctl ∧ (notePlotFence f pos origin p s).pwr = s.pwr ∧
    (notePlotFence f pos origin p s).otp = s.otp ∧ (notePlotFence f pos origin p s).gateh = s.gateh ∧ (notePlotFence f pos origin p s).mbx = s.mbx ∧
    (notePlotFence f pos origin p s).job = s.job ∧ (notePlotFence f pos origin p s).chans = s.chans ∧ (notePlotFence f pos origin p s).plots =
    s.plots ∧ (notePlotFence f pos origin p s).flds = s.flds ∧ (notePlotFence f pos origin p s).grid = s.grid ∧ (notePlotFence f pos origin p
    s).bridges = s.bridges ∧ (notePlotFence f pos origin p s).hbm = s.hbm ∧ (notePlotFence f pos origin p s).links = s.links ∧ (notePlotFence f pos
    origin p s).mesh = s.mesh ∧ (notePlotFence f pos origin p s).test = s.test ∧ (notePlotFence f pos origin p s).health = s.health ∧ (notePlotFence
    f pos origin p s).free = s.free := by
  unfold notePlotFence
  simp

@[simp] theorem plotFence_keeps (f pos origin : Nat) (s : State) : (plotFence f pos origin s).pending = s.pending ∧ (plotFence f pos origin s).pins
    = s.pins ∧ (plotFence f pos origin s).ctl = s.ctl ∧ (plotFence f pos origin s).pwr = s.pwr ∧ (plotFence f pos origin s).otp = s.otp ∧ (plotFence
    f pos origin s).gateh = s.gateh ∧ (plotFence f pos origin s).mbx = s.mbx ∧ (plotFence f pos origin s).job = s.job ∧ (plotFence f pos origin
    s).chans = s.chans ∧ (plotFence f pos origin s).bridges = s.bridges ∧ (plotFence f pos origin s).hbm = s.hbm ∧ (plotFence f pos origin s).links
    = s.links ∧ (plotFence f pos origin s).mesh = s.mesh ∧ (plotFence f pos origin s).test = s.test ∧ (plotFence f pos origin s).health = s.health ∧
    (plotFence f pos origin s).free = s.free := by
  unfold plotFence
  (repeat' split) <;> simp

@[simp] theorem plotLost_keeps (p cause : Nat) (s : State) : (plotLost p cause s).pending = s.pending ∧ (plotLost p cause s).pins = s.pins ∧
    (plotLost p cause s).pwr = s.pwr ∧ (plotLost p cause s).otp = s.otp ∧ (plotLost p cause s).gateh = s.gateh ∧ (plotLost p cause s).mbx = s.mbx ∧
    (plotLost p cause s).grid = s.grid ∧ (plotLost p cause s).bridges = s.bridges ∧ (plotLost p cause s).hbm = s.hbm ∧ (plotLost p cause s).test =
    s.test ∧ (plotLost p cause s).health = s.health ∧ (plotLost p cause s).free = s.free := by
  unfold plotLost
  simp

@[simp] theorem chooseTarget_keeps (f pos : Nat) (e : ReplaceEnv) (fuel : Nat) (s : State) : (chooseTarget f pos e fuel s).1.pending = s.pending ∧
    (chooseTarget f pos e fuel s).1.pins = s.pins ∧ (chooseTarget f pos e fuel s).1.ctl = s.ctl ∧ (chooseTarget f pos e fuel s).1.pwr = s.pwr ∧
    (chooseTarget f pos e fuel s).1.otp = s.otp ∧ (chooseTarget f pos e fuel s).1.gateh = s.gateh ∧ (chooseTarget f pos e fuel s).1.mbx = s.mbx ∧
    (chooseTarget f pos e fuel s).1.job = s.job ∧ (chooseTarget f pos e fuel s).1.chans = s.chans ∧ (chooseTarget f pos e fuel s).1.plots = s.plots
    ∧ (chooseTarget f pos e fuel s).1.grid = s.grid ∧ (chooseTarget f pos e fuel s).1.bridges = s.bridges ∧ (chooseTarget f pos e fuel s).1.hbm =
    s.hbm ∧ (chooseTarget f pos e fuel s).1.links = s.links ∧ (chooseTarget f pos e fuel s).1.mesh = s.mesh ∧ (chooseTarget f pos e fuel s).1.test =
    s.test ∧ (chooseTarget f pos e fuel s).1.health = s.health ∧ (chooseTarget f pos e fuel s).1.free = s.free := by
  fun_induction chooseTarget f pos e fuel s <;> simp_all +zetaDelta

@[simp] theorem abandonChecks_keeps (p : Nat) (s : State) : (abandonChecks p s).pending = s.pending ∧ (abandonChecks p s).pins = s.pins ∧
    (abandonChecks p s).ctl = s.ctl ∧ (abandonChecks p s).pwr = s.pwr ∧ (abandonChecks p s).otp = s.otp ∧ (abandonChecks p s).flash = s.flash ∧
    (abandonChecks p s).gateh = s.gateh ∧ (abandonChecks p s).mbx = s.mbx ∧ (abandonChecks p s).evt = s.evt ∧ (abandonChecks p s).job = s.job ∧
    (abandonChecks p s).chans = s.chans ∧ (abandonChecks p s).grid = s.grid ∧ (abandonChecks p s).bridges = s.bridges ∧ (abandonChecks p s).hbm =
    s.hbm ∧ (abandonChecks p s).links = s.links ∧ (abandonChecks p s).mesh = s.mesh ∧ (abandonChecks p s).test = s.test ∧ (abandonChecks p s).health
    = s.health ∧ (abandonChecks p s).free = s.free := by
  unfold abandonChecks
  simp

@[simp] theorem correctQueue_keeps (ch : Channel) (words : List Nat) (s : State) : (correctQueue ch words s).pending = s.pending ∧ (correctQueue ch
    words s).pins = s.pins ∧ (correctQueue ch words s).ctl = s.ctl ∧ (correctQueue ch words s).pwr = s.pwr ∧ (correctQueue ch words s).otp = s.otp ∧
    (correctQueue ch words s).gateh = s.gateh ∧ (correctQueue ch words s).mbx = s.mbx ∧ (correctQueue ch words s).job = s.job ∧ (correctQueue ch
    words s).chans = s.chans ∧ (correctQueue ch words s).flds = s.flds ∧ (correctQueue ch words s).grid = s.grid ∧ (correctQueue ch words s).bridges
    = s.bridges ∧ (correctQueue ch words s).hbm = s.hbm ∧ (correctQueue ch words s).links = s.links ∧ (correctQueue ch words s).mesh = s.mesh ∧
    (correctQueue ch words s).test = s.test ∧ (correctQueue ch words s).health = s.health ∧ (correctQueue ch words s).free = s.free := by
  unfold correctQueue
  simp (disch := (intros; first | (simp; done) | ((repeat' split) <;> simp; done) | (dsimp only; (repeat' split) <;> simp; done)))

@[simp] theorem noteQueueUe_keeps (ch : Channel) (words : List Nat) (reader i : Nat) (s : State) : (noteQueueUe ch words reader i s).pending =
    s.pending ∧ (noteQueueUe ch words reader i s).pins = s.pins ∧ (noteQueueUe ch words reader i s).ctl = s.ctl ∧ (noteQueueUe ch words reader i
    s).pwr = s.pwr ∧ (noteQueueUe ch words reader i s).otp = s.otp ∧ (noteQueueUe ch words reader i s).gateh = s.gateh ∧ (noteQueueUe ch words
    reader i s).mbx = s.mbx ∧ (noteQueueUe ch words reader i s).job = s.job ∧ (noteQueueUe ch words reader i s).chans = s.chans ∧ (noteQueueUe ch
    words reader i s).plots = s.plots ∧ (noteQueueUe ch words reader i s).flds = s.flds ∧ (noteQueueUe ch words reader i s).grid = s.grid ∧
    (noteQueueUe ch words reader i s).bridges = s.bridges ∧ (noteQueueUe ch words reader i s).hbm = s.hbm ∧ (noteQueueUe ch words reader i s).links
    = s.links ∧ (noteQueueUe ch words reader i s).mesh = s.mesh ∧ (noteQueueUe ch words reader i s).test = s.test ∧ (noteQueueUe ch words reader i
    s).health = s.health ∧ (noteQueueUe ch words reader i s).free = s.free := by
  unfold noteQueueUe
  simp

@[simp] theorem strikeQueue_keeps (ch : Channel) (c w : Nat) (s : State) : (strikeQueue ch c w s).pending = s.pending ∧ (strikeQueue ch c w s).pins
    = s.pins ∧ (strikeQueue ch c w s).ctl = s.ctl ∧ (strikeQueue ch c w s).pwr = s.pwr ∧ (strikeQueue ch c w s).otp = s.otp ∧ (strikeQueue ch c w
    s).gateh = s.gateh ∧ (strikeQueue ch c w s).mbx = s.mbx ∧ (strikeQueue ch c w s).job = s.job ∧ (strikeQueue ch c w s).flds = s.flds ∧
    (strikeQueue ch c w s).grid = s.grid ∧ (strikeQueue ch c w s).bridges = s.bridges ∧ (strikeQueue ch c w s).hbm = s.hbm ∧ (strikeQueue ch c w
    s).links = s.links ∧ (strikeQueue ch c w s).mesh = s.mesh ∧ (strikeQueue ch c w s).test = s.test ∧ (strikeQueue ch c w s).health = s.health ∧
    (strikeQueue ch c w s).free = s.free := by
  unfold strikeQueue
  simp

@[simp] theorem strikeAcc_keeps (p i k : Nat) (s : State) : (strikeAcc p i k s).pending = s.pending ∧ (strikeAcc p i k s).pins = s.pins ∧ (strikeAcc
    p i k s).ctl = s.ctl ∧ (strikeAcc p i k s).pwr = s.pwr ∧ (strikeAcc p i k s).otp = s.otp ∧ (strikeAcc p i k s).gateh = s.gateh ∧ (strikeAcc p i
    k s).mbx = s.mbx ∧ (strikeAcc p i k s).job = s.job ∧ (strikeAcc p i k s).chans = s.chans ∧ (strikeAcc p i k s).flds = s.flds ∧ (strikeAcc p i k
    s).grid = s.grid ∧ (strikeAcc p i k s).bridges = s.bridges ∧ (strikeAcc p i k s).hbm = s.hbm ∧ (strikeAcc p i k s).links = s.links ∧ (strikeAcc
    p i k s).mesh = s.mesh ∧ (strikeAcc p i k s).test = s.test ∧ (strikeAcc p i k s).health = s.health ∧ (strikeAcc p i k s).free = s.free := by
  unfold strikeAcc
  simp

@[simp] theorem scanState_keeps (p i : Nat) (e : ScanEnv) (s : State) : (scanState p i e s).pending = s.pending ∧ (scanState p i e s).pins = s.pins
    ∧ (scanState p i e s).ctl = s.ctl ∧ (scanState p i e s).pwr = s.pwr ∧ (scanState p i e s).otp = s.otp ∧ (scanState p i e s).gateh = s.gateh ∧
    (scanState p i e s).mbx = s.mbx ∧ (scanState p i e s).job = s.job ∧ (scanState p i e s).flds = s.flds ∧ (scanState p i e s).grid = s.grid ∧
    (scanState p i e s).bridges = s.bridges ∧ (scanState p i e s).hbm = s.hbm ∧ (scanState p i e s).links = s.links ∧ (scanState p i e s).mesh =
    s.mesh ∧ (scanState p i e s).test = s.test ∧ (scanState p i e s).health = s.health ∧ (scanState p i e s).free = s.free := by
  unfold scanState
  simp

@[simp] theorem markThrough_keeps (f col row : Nat) (s : State) : (markThrough f col row s).pending = s.pending ∧ (markThrough f col row s).pins =
    s.pins ∧ (markThrough f col row s).ctl = s.ctl ∧ (markThrough f col row s).pwr = s.pwr ∧ (markThrough f col row s).otp = s.otp ∧ (markThrough f
    col row s).flash = s.flash ∧ (markThrough f col row s).gateh = s.gateh ∧ (markThrough f col row s).mbx = s.mbx ∧ (markThrough f col row s).evt =
    s.evt ∧ (markThrough f col row s).job = s.job ∧ (markThrough f col row s).chans = s.chans ∧ (markThrough f col row s).plots = s.plots ∧
    (markThrough f col row s).grid = s.grid ∧ (markThrough f col row s).bridges = s.bridges ∧ (markThrough f col row s).hbm = s.hbm ∧ (markThrough f
    col row s).links = s.links ∧ (markThrough f col row s).mesh = s.mesh ∧ (markThrough f col row s).test = s.test ∧ (markThrough f col row
    s).health = s.health ∧ (markThrough f col row s).free = s.free := by
  unfold markThrough
  simp

@[simp] theorem markFenced_keeps (f col row : Nat) (s : State) : (markFenced f col row s).pending = s.pending ∧ (markFenced f col row s).pins =
    s.pins ∧ (markFenced f col row s).ctl = s.ctl ∧ (markFenced f col row s).pwr = s.pwr ∧ (markFenced f col row s).otp = s.otp ∧ (markFenced f col
    row s).flash = s.flash ∧ (markFenced f col row s).gateh = s.gateh ∧ (markFenced f col row s).mbx = s.mbx ∧ (markFenced f col row s).evt = s.evt
    ∧ (markFenced f col row s).job = s.job ∧ (markFenced f col row s).chans = s.chans ∧ (markFenced f col row s).plots = s.plots ∧ (markFenced f col
    row s).grid = s.grid ∧ (markFenced f col row s).bridges = s.bridges ∧ (markFenced f col row s).hbm = s.hbm ∧ (markFenced f col row s).links =
    s.links ∧ (markFenced f col row s).mesh = s.mesh ∧ (markFenced f col row s).test = s.test ∧ (markFenced f col row s).health = s.health ∧
    (markFenced f col row s).free = s.free := by
  unfold markFenced
  simp

@[simp] theorem shiftGaps_keeps (f col row : Nat) (s : State) : (shiftGaps f col row s).pending = s.pending ∧ (shiftGaps f col row s).pins = s.pins
    ∧ (shiftGaps f col row s).ctl = s.ctl ∧ (shiftGaps f col row s).pwr = s.pwr ∧ (shiftGaps f col row s).otp = s.otp ∧ (shiftGaps f col row
    s).flash = s.flash ∧ (shiftGaps f col row s).gateh = s.gateh ∧ (shiftGaps f col row s).mbx = s.mbx ∧ (shiftGaps f col row s).evt = s.evt ∧
    (shiftGaps f col row s).job = s.job ∧ (shiftGaps f col row s).chans = s.chans ∧ (shiftGaps f col row s).flds = s.flds ∧ (shiftGaps f col row
    s).grid = s.grid ∧ (shiftGaps f col row s).bridges = s.bridges ∧ (shiftGaps f col row s).hbm = s.hbm ∧ (shiftGaps f col row s).links = s.links ∧
    (shiftGaps f col row s).mesh = s.mesh ∧ (shiftGaps f col row s).test = s.test ∧ (shiftGaps f col row s).health = s.health ∧ (shiftGaps f col row
    s).free = s.free := by
  unfold shiftGaps
  simp (disch := (intros; first | (simp; done) | ((repeat' split) <;> simp; done) | (dsimp only; (repeat' split) <;> simp; done)))

@[simp] theorem scanMoved_keeps (l : List (Nat × Nat)) (e : SlideEnv) (s : State) : (scanMoved l e s).pending = s.pending ∧ (scanMoved l e s).pins =
    s.pins ∧ (scanMoved l e s).ctl = s.ctl ∧ (scanMoved l e s).pwr = s.pwr ∧ (scanMoved l e s).otp = s.otp ∧ (scanMoved l e s).gateh = s.gateh ∧
    (scanMoved l e s).mbx = s.mbx ∧ (scanMoved l e s).job = s.job ∧ (scanMoved l e s).flds = s.flds ∧ (scanMoved l e s).grid = s.grid ∧ (scanMoved l
    e s).bridges = s.bridges ∧ (scanMoved l e s).hbm = s.hbm ∧ (scanMoved l e s).links = s.links ∧ (scanMoved l e s).mesh = s.mesh ∧ (scanMoved l e
    s).test = s.test ∧ (scanMoved l e s).health = s.health ∧ (scanMoved l e s).free = s.free := by
  unfold scanMoved
  simp

@[simp] theorem slide_keeps (f col row cause : Nat) (e : SlideEnv) (s : State) : (slide f col row cause e s).pending = s.pending ∧ (slide f col row
    cause e s).pins = s.pins ∧ (slide f col row cause e s).ctl = s.ctl ∧ (slide f col row cause e s).pwr = s.pwr ∧ (slide f col row cause e s).otp =
    s.otp ∧ (slide f col row cause e s).gateh = s.gateh ∧ (slide f col row cause e s).mbx = s.mbx ∧ (slide f col row cause e s).bridges = s.bridges
    ∧ (slide f col row cause e s).hbm = s.hbm ∧ (slide f col row cause e s).links = s.links ∧ (slide f col row cause e s).mesh = s.mesh ∧ (slide f
    col row cause e s).test = s.test ∧ (slide f col row cause e s).free = s.free := by
  unfold slide
  dsimp only
  (repeat' split) <;> simp

@[simp] theorem fenceOwner_keeps (f col row cause : Nat) (s : State) : (fenceOwner f col row cause s).pending = s.pending ∧ (fenceOwner f col row
    cause s).pins = s.pins ∧ (fenceOwner f col row cause s).ctl = s.ctl ∧ (fenceOwner f col row cause s).pwr = s.pwr ∧ (fenceOwner f col row cause
    s).otp = s.otp ∧ (fenceOwner f col row cause s).gateh = s.gateh ∧ (fenceOwner f col row cause s).mbx = s.mbx ∧ (fenceOwner f col row cause
    s).job = s.job ∧ (fenceOwner f col row cause s).chans = s.chans ∧ (fenceOwner f col row cause s).bridges = s.bridges ∧ (fenceOwner f col row
    cause s).hbm = s.hbm ∧ (fenceOwner f col row cause s).links = s.links ∧ (fenceOwner f col row cause s).mesh = s.mesh ∧ (fenceOwner f col row
    cause s).test = s.test ∧ (fenceOwner f col row cause s).health = s.health ∧ (fenceOwner f col row cause s).free = s.free := by
  unfold fenceOwner
  (repeat' split) <;> simp

@[simp] theorem fenceSpare_keeps (f col row cause : Nat) (s : State) : (fenceSpare f col row cause s).pending = s.pending ∧ (fenceSpare f col row
    cause s).pins = s.pins ∧ (fenceSpare f col row cause s).ctl = s.ctl ∧ (fenceSpare f col row cause s).pwr = s.pwr ∧ (fenceSpare f col row cause
    s).otp = s.otp ∧ (fenceSpare f col row cause s).gateh = s.gateh ∧ (fenceSpare f col row cause s).mbx = s.mbx ∧ (fenceSpare f col row cause
    s).job = s.job ∧ (fenceSpare f col row cause s).chans = s.chans ∧ (fenceSpare f col row cause s).plots = s.plots ∧ (fenceSpare f col row cause
    s).grid = s.grid ∧ (fenceSpare f col row cause s).bridges = s.bridges ∧ (fenceSpare f col row cause s).hbm = s.hbm ∧ (fenceSpare f col row cause
    s).links = s.links ∧ (fenceSpare f col row cause s).mesh = s.mesh ∧ (fenceSpare f col row cause s).test = s.test ∧ (fenceSpare f col row cause
    s).free = s.free := by
  unfold fenceSpare
  simp

@[simp] theorem coreFence_keeps (f col row cause : Nat) (e : SlideEnv) (s : State) : (coreFence f col row cause e s).pending = s.pending ∧
    (coreFence f col row cause e s).pins = s.pins ∧ (coreFence f col row cause e s).pwr = s.pwr ∧ (coreFence f col row cause e s).otp = s.otp ∧
    (coreFence f col row cause e s).gateh = s.gateh ∧ (coreFence f col row cause e s).mbx = s.mbx ∧ (coreFence f col row cause e s).bridges =
    s.bridges ∧ (coreFence f col row cause e s).hbm = s.hbm ∧ (coreFence f col row cause e s).links = s.links ∧ (coreFence f col row cause e s).mesh
    = s.mesh ∧ (coreFence f col row cause e s).test = s.test ∧ (coreFence f col row cause e s).free = s.free := by
  unfold coreFence
  dsimp only
  (repeat' split) <;> simp

@[simp] theorem runSlide_keeps (f col row : Nat) (e : SlideEnv) (s : State) : (runSlide f col row e s).pending = s.pending ∧ (runSlide f col row e
    s).pins = s.pins ∧ (runSlide f col row e s).pwr = s.pwr ∧ (runSlide f col row e s).otp = s.otp ∧ (runSlide f col row e s).gateh = s.gateh ∧
    (runSlide f col row e s).mbx = s.mbx ∧ (runSlide f col row e s).bridges = s.bridges ∧ (runSlide f col row e s).hbm = s.hbm ∧ (runSlide f col row
    e s).links = s.links ∧ (runSlide f col row e s).mesh = s.mesh ∧ (runSlide f col row e s).test = s.test ∧ (runSlide f col row e s).free = s.free
    := by
  unfold runSlide
  (repeat' split) <;> simp

/-! ## FieldTest -/

@[simp] theorem noteWork_keeps (p i : Nat) (s : State) : (noteWork p i s).pending = s.pending ∧ (noteWork p i s).pins = s.pins ∧ (noteWork p i
    s).ctl = s.ctl ∧ (noteWork p i s).pwr = s.pwr ∧ (noteWork p i s).otp = s.otp ∧ (noteWork p i s).flash = s.flash ∧ (noteWork p i s).gateh =
    s.gateh ∧ (noteWork p i s).mbx = s.mbx ∧ (noteWork p i s).evt = s.evt ∧ (noteWork p i s).job = s.job ∧ (noteWork p i s).chans = s.chans ∧
    (noteWork p i s).flds = s.flds ∧ (noteWork p i s).grid = s.grid ∧ (noteWork p i s).bridges = s.bridges ∧ (noteWork p i s).hbm = s.hbm ∧
    (noteWork p i s).links = s.links ∧ (noteWork p i s).mesh = s.mesh ∧ (noteWork p i s).test = s.test ∧ (noteWork p i s).health = s.health ∧
    (noteWork p i s).free = s.free := by
  unfold noteWork
  simp

@[simp] theorem closeChunk_keeps (f col row : Nat) (us : Nat) (cut : Bool) (s : State) : (closeChunk f col row us cut s).pending = s.pending ∧
    (closeChunk f col row us cut s).pins = s.pins ∧ (closeChunk f col row us cut s).ctl = s.ctl ∧ (closeChunk f col row us cut s).pwr = s.pwr ∧
    (closeChunk f col row us cut s).otp = s.otp ∧ (closeChunk f col row us cut s).flash = s.flash ∧ (closeChunk f col row us cut s).gateh = s.gateh
    ∧ (closeChunk f col row us cut s).mbx = s.mbx ∧ (closeChunk f col row us cut s).evt = s.evt ∧ (closeChunk f col row us cut s).job = s.job ∧
    (closeChunk f col row us cut s).chans = s.chans ∧ (closeChunk f col row us cut s).plots = s.plots ∧ (closeChunk f col row us cut s).grid =
    s.grid ∧ (closeChunk f col row us cut s).bridges = s.bridges ∧ (closeChunk f col row us cut s).hbm = s.hbm ∧ (closeChunk f col row us cut
    s).links = s.links ∧ (closeChunk f col row us cut s).mesh = s.mesh ∧ (closeChunk f col row us cut s).test = s.test ∧ (closeChunk f col row us
    cut s).health = s.health ∧ (closeChunk f col row us cut s).free = s.free := by
  unfold closeChunk
  (repeat' split) <;> simp

/-! ## Array -/

@[simp] theorem fire_keeps (n : NodeRef) (fr : Firing) (res : Arr → Arr) (s : State) : (fire n fr res s).pending = s.pending ∧ (fire n fr res
    s).pins = s.pins ∧ (fire n fr res s).ctl = s.ctl ∧ (fire n fr res s).pwr = s.pwr ∧ (fire n fr res s).otp = s.otp ∧ (fire n fr res s).flash =
    s.flash ∧ (fire n fr res s).gateh = s.gateh ∧ (fire n fr res s).mbx = s.mbx ∧ (fire n fr res s).evt = s.evt ∧ (fire n fr res s).job = s.job ∧
    (fire n fr res s).chans = s.chans ∧ (fire n fr res s).flds = s.flds ∧ (fire n fr res s).grid = s.grid ∧ (fire n fr res s).bridges = s.bridges ∧
    (fire n fr res s).hbm = s.hbm ∧ (fire n fr res s).links = s.links ∧ (fire n fr res s).mesh = s.mesh ∧ (fire n fr res s).test = s.test ∧ (fire n
    fr res s).health = s.health ∧ (fire n fr res s).free = s.free := by
  unfold fire
  simp

@[simp] theorem fireResult_keeps (n : NodeRef) (fr : Firing) (lanes : List U32) (s : State) : (fireResult n fr lanes s).pending = s.pending ∧
    (fireResult n fr lanes s).pins = s.pins ∧ (fireResult n fr lanes s).ctl = s.ctl ∧ (fireResult n fr lanes s).pwr = s.pwr ∧ (fireResult n fr lanes
    s).otp = s.otp ∧ (fireResult n fr lanes s).flash = s.flash ∧ (fireResult n fr lanes s).gateh = s.gateh ∧ (fireResult n fr lanes s).mbx = s.mbx ∧
    (fireResult n fr lanes s).evt = s.evt ∧ (fireResult n fr lanes s).job = s.job ∧ (fireResult n fr lanes s).chans = s.chans ∧ (fireResult n fr
    lanes s).flds = s.flds ∧ (fireResult n fr lanes s).grid = s.grid ∧ (fireResult n fr lanes s).bridges = s.bridges ∧ (fireResult n fr lanes s).hbm
    = s.hbm ∧ (fireResult n fr lanes s).links = s.links ∧ (fireResult n fr lanes s).mesh = s.mesh ∧ (fireResult n fr lanes s).test = s.test ∧
    (fireResult n fr lanes s).health = s.health ∧ (fireResult n fr lanes s).free = s.free := by
  unfold fireResult
  simp

@[simp] theorem fireLanes_keeps (n : NodeRef) (positions : List Nat) (op : Nat) (f : Node → List (List U32) → List U32) (s : State) : (fireLanes n
    positions op f s).pending = s.pending ∧ (fireLanes n positions op f s).pins = s.pins ∧ (fireLanes n positions op f s).ctl = s.ctl ∧ (fireLanes n
    positions op f s).pwr = s.pwr ∧ (fireLanes n positions op f s).otp = s.otp ∧ (fireLanes n positions op f s).flash = s.flash ∧ (fireLanes n
    positions op f s).gateh = s.gateh ∧ (fireLanes n positions op f s).mbx = s.mbx ∧ (fireLanes n positions op f s).evt = s.evt ∧ (fireLanes n
    positions op f s).job = s.job ∧ (fireLanes n positions op f s).chans = s.chans ∧ (fireLanes n positions op f s).flds = s.flds ∧ (fireLanes n
    positions op f s).grid = s.grid ∧ (fireLanes n positions op f s).bridges = s.bridges ∧ (fireLanes n positions op f s).hbm = s.hbm ∧ (fireLanes n
    positions op f s).links = s.links ∧ (fireLanes n positions op f s).mesh = s.mesh ∧ (fireLanes n positions op f s).test = s.test ∧ (fireLanes n
    positions op f s).health = s.health ∧ (fireLanes n positions op f s).free = s.free := by
  unfold fireLanes
  (repeat' split) <;> simp

@[simp] theorem noteCompute_keeps (n : NodeRef) (op cause : Nat) (s : State) : (noteCompute n op cause s).pending = s.pending ∧ (noteCompute n op
    cause s).pins = s.pins ∧ (noteCompute n op cause s).ctl = s.ctl ∧ (noteCompute n op cause s).pwr = s.pwr ∧ (noteCompute n op cause s).otp =
    s.otp ∧ (noteCompute n op cause s).gateh = s.gateh ∧ (noteCompute n op cause s).mbx = s.mbx ∧ (noteCompute n op cause s).job = s.job ∧
    (noteCompute n op cause s).chans = s.chans ∧ (noteCompute n op cause s).plots = s.plots ∧ (noteCompute n op cause s).flds = s.flds ∧
    (noteCompute n op cause s).grid = s.grid ∧ (noteCompute n op cause s).bridges = s.bridges ∧ (noteCompute n op cause s).hbm = s.hbm ∧
    (noteCompute n op cause s).links = s.links ∧ (noteCompute n op cause s).mesh = s.mesh ∧ (noteCompute n op cause s).test = s.test ∧ (noteCompute
    n op cause s).health = s.health ∧ (noteCompute n op cause s).free = s.free := by
  unfold noteCompute
  simp

@[simp] theorem residueFault_pending (n : NodeRef) (fr : Firing) (op misses : Nat) (go : State → State) (s : State) (h1 : ∀ t, (go t).pending =
    t.pending) : (residueFault n fr op misses go s).pending = s.pending := by
  unfold residueFault
  (repeat' split) <;> simp [h1]

@[simp] theorem residueFault_pins (n : NodeRef) (fr : Firing) (op misses : Nat) (go : State → State) (s : State) (h1 : ∀ t, (go t).pins = t.pins) :
    (residueFault n fr op misses go s).pins = s.pins := by
  unfold residueFault
  (repeat' split) <;> simp [h1]

@[simp] theorem residueFault_pwr (n : NodeRef) (fr : Firing) (op misses : Nat) (go : State → State) (s : State) (h1 : ∀ t, (go t).pwr = t.pwr) :
    (residueFault n fr op misses go s).pwr = s.pwr := by
  unfold residueFault
  (repeat' split) <;> simp [h1]

@[simp] theorem residueFault_otp (n : NodeRef) (fr : Firing) (op misses : Nat) (go : State → State) (s : State) (h1 : ∀ t, (go t).otp = t.otp) :
    (residueFault n fr op misses go s).otp = s.otp := by
  unfold residueFault
  (repeat' split) <;> simp [h1]

@[simp] theorem residueFault_gateh (n : NodeRef) (fr : Firing) (op misses : Nat) (go : State → State) (s : State) (h1 : ∀ t, (go t).gateh = t.gateh)
    : (residueFault n fr op misses go s).gateh = s.gateh := by
  unfold residueFault
  (repeat' split) <;> simp [h1]

@[simp] theorem residueFault_mbx (n : NodeRef) (fr : Firing) (op misses : Nat) (go : State → State) (s : State) (h1 : ∀ t, (go t).mbx = t.mbx) :
    (residueFault n fr op misses go s).mbx = s.mbx := by
  unfold residueFault
  (repeat' split) <;> simp [h1]

@[simp] theorem residueFault_chans (n : NodeRef) (fr : Firing) (op misses : Nat) (go : State → State) (s : State) (h1 : ∀ t, (go t).chans = t.chans)
    : (residueFault n fr op misses go s).chans = s.chans := by
  unfold residueFault
  (repeat' split) <;> simp [h1]

@[simp] theorem residueFault_grid (n : NodeRef) (fr : Firing) (op misses : Nat) (go : State → State) (s : State) (h1 : ∀ t, (go t).grid = t.grid) :
    (residueFault n fr op misses go s).grid = s.grid := by
  unfold residueFault
  (repeat' split) <;> simp [h1]

@[simp] theorem residueFault_bridges (n : NodeRef) (fr : Firing) (op misses : Nat) (go : State → State) (s : State) (h1 : ∀ t, (go t).bridges =
    t.bridges) : (residueFault n fr op misses go s).bridges = s.bridges := by
  unfold residueFault
  (repeat' split) <;> simp [h1]

@[simp] theorem residueFault_hbm (n : NodeRef) (fr : Firing) (op misses : Nat) (go : State → State) (s : State) (h1 : ∀ t, (go t).hbm = t.hbm) :
    (residueFault n fr op misses go s).hbm = s.hbm := by
  unfold residueFault
  (repeat' split) <;> simp [h1]

@[simp] theorem residueFault_links (n : NodeRef) (fr : Firing) (op misses : Nat) (go : State → State) (s : State) (h1 : ∀ t, (go t).links = t.links)
    : (residueFault n fr op misses go s).links = s.links := by
  unfold residueFault
  (repeat' split) <;> simp [h1]

@[simp] theorem residueFault_mesh (n : NodeRef) (fr : Firing) (op misses : Nat) (go : State → State) (s : State) (h1 : ∀ t, (go t).mesh = t.mesh) :
    (residueFault n fr op misses go s).mesh = s.mesh := by
  unfold residueFault
  (repeat' split) <;> simp [h1]

@[simp] theorem residueFault_test (n : NodeRef) (fr : Firing) (op misses : Nat) (go : State → State) (s : State) (h1 : ∀ t, (go t).test = t.test) :
    (residueFault n fr op misses go s).test = s.test := by
  unfold residueFault
  (repeat' split) <;> simp [h1]

@[simp] theorem residueFault_free (n : NodeRef) (fr : Firing) (op misses : Nat) (go : State → State) (s : State) (h1 : ∀ t, (go t).free = t.free) :
    (residueFault n fr op misses go s).free = s.free := by
  unfold residueFault
  (repeat' split) <;> simp [h1]

@[simp] theorem fireChecked_keeps (n : NodeRef) (op : Nat) (q : Residue) (f : List (List U32) → List U32) (s : State) : (fireChecked n op q f
    s).pending = s.pending ∧ (fireChecked n op q f s).pins = s.pins ∧ (fireChecked n op q f s).pwr = s.pwr ∧ (fireChecked n op q f s).otp = s.otp ∧
    (fireChecked n op q f s).gateh = s.gateh ∧ (fireChecked n op q f s).mbx = s.mbx ∧ (fireChecked n op q f s).chans = s.chans ∧ (fireChecked n op q
    f s).grid = s.grid ∧ (fireChecked n op q f s).bridges = s.bridges ∧ (fireChecked n op q f s).hbm = s.hbm ∧ (fireChecked n op q f s).links =
    s.links ∧ (fireChecked n op q f s).mesh = s.mesh ∧ (fireChecked n op q f s).test = s.test ∧ (fireChecked n op q f s).free = s.free := by
  unfold fireChecked
  (repeat' split) <;> simp

@[simp] theorem alu_keeps (n : NodeRef) (op : Nat) (f : List (List U32) → List U32) (s : State) : (alu n op f s).pending = s.pending ∧ (alu n op f
    s).pins = s.pins ∧ (alu n op f s).ctl = s.ctl ∧ (alu n op f s).pwr = s.pwr ∧ (alu n op f s).otp = s.otp ∧ (alu n op f s).flash = s.flash ∧ (alu
    n op f s).gateh = s.gateh ∧ (alu n op f s).mbx = s.mbx ∧ (alu n op f s).evt = s.evt ∧ (alu n op f s).job = s.job ∧ (alu n op f s).chans =
    s.chans ∧ (alu n op f s).flds = s.flds ∧ (alu n op f s).grid = s.grid ∧ (alu n op f s).bridges = s.bridges ∧ (alu n op f s).hbm = s.hbm ∧ (alu n
    op f s).links = s.links ∧ (alu n op f s).mesh = s.mesh ∧ (alu n op f s).test = s.test ∧ (alu n op f s).health = s.health ∧ (alu n op f s).free =
    s.free := by
  unfold alu
  simp

@[simp] theorem fireCvt_keeps (n : NodeRef) (op : Nat) (f : Node → List U32 → List U32) (s : State) : (fireCvt n op f s).pending = s.pending ∧
    (fireCvt n op f s).pins = s.pins ∧ (fireCvt n op f s).ctl = s.ctl ∧ (fireCvt n op f s).pwr = s.pwr ∧ (fireCvt n op f s).otp = s.otp ∧ (fireCvt n
    op f s).flash = s.flash ∧ (fireCvt n op f s).gateh = s.gateh ∧ (fireCvt n op f s).mbx = s.mbx ∧ (fireCvt n op f s).evt = s.evt ∧ (fireCvt n op f
    s).job = s.job ∧ (fireCvt n op f s).chans = s.chans ∧ (fireCvt n op f s).flds = s.flds ∧ (fireCvt n op f s).grid = s.grid ∧ (fireCvt n op f
    s).bridges = s.bridges ∧ (fireCvt n op f s).hbm = s.hbm ∧ (fireCvt n op f s).links = s.links ∧ (fireCvt n op f s).mesh = s.mesh ∧ (fireCvt n op
    f s).test = s.test ∧ (fireCvt n op f s).health = s.health ∧ (fireCvt n op f s).free = s.free := by
  unfold fireCvt
  (repeat' split) <;> simp

@[simp] theorem fireSfu_keeps (n : NodeRef) (op : Nat) (s : State) : (fireSfu n op s).pending = s.pending ∧ (fireSfu n op s).pins = s.pins ∧
    (fireSfu n op s).ctl = s.ctl ∧ (fireSfu n op s).pwr = s.pwr ∧ (fireSfu n op s).otp = s.otp ∧ (fireSfu n op s).flash = s.flash ∧ (fireSfu n op
    s).gateh = s.gateh ∧ (fireSfu n op s).mbx = s.mbx ∧ (fireSfu n op s).evt = s.evt ∧ (fireSfu n op s).job = s.job ∧ (fireSfu n op s).chans =
    s.chans ∧ (fireSfu n op s).flds = s.flds ∧ (fireSfu n op s).grid = s.grid ∧ (fireSfu n op s).bridges = s.bridges ∧ (fireSfu n op s).hbm = s.hbm
    ∧ (fireSfu n op s).links = s.links ∧ (fireSfu n op s).mesh = s.mesh ∧ (fireSfu n op s).test = s.test ∧ (fireSfu n op s).health = s.health ∧
    (fireSfu n op s).free = s.free := by
  unfold fireSfu
  simp

@[simp] theorem fireAcc_keeps (n : NodeRef) (op : Nat) (f : U32 → U32 → U32) (s : State) : (fireAcc n op f s).pending = s.pending ∧ (fireAcc n op f
    s).pins = s.pins ∧ (fireAcc n op f s).ctl = s.ctl ∧ (fireAcc n op f s).pwr = s.pwr ∧ (fireAcc n op f s).otp = s.otp ∧ (fireAcc n op f s).flash =
    s.flash ∧ (fireAcc n op f s).gateh = s.gateh ∧ (fireAcc n op f s).mbx = s.mbx ∧ (fireAcc n op f s).evt = s.evt ∧ (fireAcc n op f s).job = s.job
    ∧ (fireAcc n op f s).chans = s.chans ∧ (fireAcc n op f s).flds = s.flds ∧ (fireAcc n op f s).grid = s.grid ∧ (fireAcc n op f s).bridges =
    s.bridges ∧ (fireAcc n op f s).hbm = s.hbm ∧ (fireAcc n op f s).links = s.links ∧ (fireAcc n op f s).mesh = s.mesh ∧ (fireAcc n op f s).test =
    s.test ∧ (fireAcc n op f s).health = s.health ∧ (fireAcc n op f s).free = s.free := by
  unfold fireAcc
  (repeat' split) <;> simp

@[simp] theorem fireSteer_keeps (n : NodeRef) (op : Nat) (f : Firing → List Dest × List U32) (s : State) : (fireSteer n op f s).pending = s.pending
    ∧ (fireSteer n op f s).pins = s.pins ∧ (fireSteer n op f s).ctl = s.ctl ∧ (fireSteer n op f s).pwr = s.pwr ∧ (fireSteer n op f s).otp = s.otp ∧
    (fireSteer n op f s).flash = s.flash ∧ (fireSteer n op f s).gateh = s.gateh ∧ (fireSteer n op f s).mbx = s.mbx ∧ (fireSteer n op f s).evt =
    s.evt ∧ (fireSteer n op f s).job = s.job ∧ (fireSteer n op f s).chans = s.chans ∧ (fireSteer n op f s).flds = s.flds ∧ (fireSteer n op f s).grid
    = s.grid ∧ (fireSteer n op f s).bridges = s.bridges ∧ (fireSteer n op f s).hbm = s.hbm ∧ (fireSteer n op f s).links = s.links ∧ (fireSteer n op
    f s).mesh = s.mesh ∧ (fireSteer n op f s).test = s.test ∧ (fireSteer n op f s).health = s.health ∧ (fireSteer n op f s).free = s.free := by
  unfold fireSteer
  (repeat' split) <;> simp

/-! ## Access -/

@[simp] theorem accessFault_keeps (n : NodeRef) (op : Nat) (s : State) : (accessFault n op s).pending = s.pending ∧ (accessFault n op s).pins =
    s.pins ∧ (accessFault n op s).pwr = s.pwr ∧ (accessFault n op s).otp = s.otp ∧ (accessFault n op s).gateh = s.gateh ∧ (accessFault n op s).mbx =
    s.mbx ∧ (accessFault n op s).chans = s.chans ∧ (accessFault n op s).flds = s.flds ∧ (accessFault n op s).grid = s.grid ∧ (accessFault n op
    s).bridges = s.bridges ∧ (accessFault n op s).hbm = s.hbm ∧ (accessFault n op s).links = s.links ∧ (accessFault n op s).mesh = s.mesh ∧
    (accessFault n op s).test = s.test ∧ (accessFault n op s).health = s.health ∧ (accessFault n op s).free = s.free := by
  unfold accessFault
  simp

@[simp] theorem gatherLanes_keeps (n : NodeRef) (nd : Node) (j : Nat) (l : List U32) (s : State) : (gatherLanes n nd j l s).1.pending = s.pending ∧
    (gatherLanes n nd j l s).1.pins = s.pins ∧ (gatherLanes n nd j l s).1.ctl = s.ctl ∧ (gatherLanes n nd j l s).1.pwr = s.pwr ∧ (gatherLanes n nd j
    l s).1.otp = s.otp ∧ (gatherLanes n nd j l s).1.mbx = s.mbx ∧ (gatherLanes n nd j l s).1.job = s.job ∧ (gatherLanes n nd j l s).1.chans =
    s.chans ∧ (gatherLanes n nd j l s).1.flds = s.flds ∧ (gatherLanes n nd j l s).1.grid = s.grid ∧ (gatherLanes n nd j l s).1.bridges = s.bridges ∧
    (gatherLanes n nd j l s).1.hbm = s.hbm ∧ (gatherLanes n nd j l s).1.links = s.links ∧ (gatherLanes n nd j l s).1.mesh = s.mesh ∧ (gatherLanes n
    nd j l s).1.test = s.test ∧ (gatherLanes n nd j l s).1.health = s.health := by
  fun_induction gatherLanes n nd j l s <;> simp_all +zetaDelta

@[simp] theorem scatterLane_keeps (n : NodeRef) (j x : Nat) (d dir : Nat) (s : State) : (scatterLane n j x d dir s).1.pending = s.pending ∧
    (scatterLane n j x d dir s).1.pins = s.pins ∧ (scatterLane n j x d dir s).1.ctl = s.ctl ∧ (scatterLane n j x d dir s).1.pwr = s.pwr ∧
    (scatterLane n j x d dir s).1.otp = s.otp ∧ (scatterLane n j x d dir s).1.mbx = s.mbx ∧ (scatterLane n j x d dir s).1.job = s.job ∧ (scatterLane
    n j x d dir s).1.chans = s.chans ∧ (scatterLane n j x d dir s).1.flds = s.flds ∧ (scatterLane n j x d dir s).1.grid = s.grid ∧ (scatterLane n j
    x d dir s).1.bridges = s.bridges ∧ (scatterLane n j x d dir s).1.hbm = s.hbm ∧ (scatterLane n j x d dir s).1.links = s.links ∧ (scatterLane n j
    x d dir s).1.mesh = s.mesh ∧ (scatterLane n j x d dir s).1.test = s.test ∧ (scatterLane n j x d dir s).1.health = s.health := by
  unfold scatterLane
  (repeat' split) <;> simp

@[simp] theorem scatterLanes_keeps (n : NodeRef) (nd : Node) (j : Nat) (l : List (U32 × U32)) (s : State) : (scatterLanes n nd j l s).1.pending =
    s.pending ∧ (scatterLanes n nd j l s).1.pins = s.pins ∧ (scatterLanes n nd j l s).1.ctl = s.ctl ∧ (scatterLanes n nd j l s).1.pwr = s.pwr ∧
    (scatterLanes n nd j l s).1.otp = s.otp ∧ (scatterLanes n nd j l s).1.mbx = s.mbx ∧ (scatterLanes n nd j l s).1.job = s.job ∧ (scatterLanes n nd
    j l s).1.chans = s.chans ∧ (scatterLanes n nd j l s).1.flds = s.flds ∧ (scatterLanes n nd j l s).1.grid = s.grid ∧ (scatterLanes n nd j l
    s).1.bridges = s.bridges ∧ (scatterLanes n nd j l s).1.hbm = s.hbm ∧ (scatterLanes n nd j l s).1.links = s.links ∧ (scatterLanes n nd j l
    s).1.mesh = s.mesh ∧ (scatterLanes n nd j l s).1.test = s.test ∧ (scatterLanes n nd j l s).1.health = s.health := by
  fun_induction scatterLanes n nd j l s <;> simp_all +zetaDelta

/-! ## Channels -/

@[simp] theorem sendRemote_keeps (ch : Channel) (padAt : Option Nat) (t seq : Nat) (payload : List Byte) (from_ : Nat × Site) (s : State) :
    (sendRemote ch padAt t seq payload from_ s).pending = s.pending ∧ (sendRemote ch padAt t seq payload from_ s).pins = s.pins ∧ (sendRemote ch
    padAt t seq payload from_ s).ctl = s.ctl ∧ (sendRemote ch padAt t seq payload from_ s).pwr = s.pwr ∧ (sendRemote ch padAt t seq payload from_
    s).otp = s.otp ∧ (sendRemote ch padAt t seq payload from_ s).gateh = s.gateh ∧ (sendRemote ch padAt t seq payload from_ s).mbx = s.mbx ∧
    (sendRemote ch padAt t seq payload from_ s).job = s.job ∧ (sendRemote ch padAt t seq payload from_ s).chans = s.chans ∧ (sendRemote ch padAt t
    seq payload from_ s).plots = s.plots ∧ (sendRemote ch padAt t seq payload from_ s).flds = s.flds ∧ (sendRemote ch padAt t seq payload from_
    s).bridges = s.bridges ∧ (sendRemote ch padAt t seq payload from_ s).hbm = s.hbm ∧ (sendRemote ch padAt t seq payload from_ s).test = s.test ∧
    (sendRemote ch padAt t seq payload from_ s).health = s.health ∧ (sendRemote ch padAt t seq payload from_ s).free = s.free := by
  unfold sendRemote
  simp

@[simp] theorem messageFault_keeps (c seq p i : Nat) (s : State) : (messageFault c seq p i s).pending = s.pending ∧ (messageFault c seq p i s).pins
    = s.pins ∧ (messageFault c seq p i s).pwr = s.pwr ∧ (messageFault c seq p i s).otp = s.otp ∧ (messageFault c seq p i s).gateh = s.gateh ∧
    (messageFault c seq p i s).mbx = s.mbx ∧ (messageFault c seq p i s).chans = s.chans ∧ (messageFault c seq p i s).flds = s.flds ∧ (messageFault c
    seq p i s).grid = s.grid ∧ (messageFault c seq p i s).bridges = s.bridges ∧ (messageFault c seq p i s).hbm = s.hbm ∧ (messageFault c seq p i
    s).links = s.links ∧ (messageFault c seq p i s).mesh = s.mesh ∧ (messageFault c seq p i s).test = s.test ∧ (messageFault c seq p i s).health =
    s.health ∧ (messageFault c seq p i s).free = s.free := by
  unfold messageFault
  simp

@[simp] theorem failMessage_keeps (c : Nat) (ch : Channel) (m : QMsg) (i : Nat) (double : List Nat) (s : State) : (failMessage c ch m i double
    s).pending = s.pending ∧ (failMessage c ch m i double s).pins = s.pins ∧ (failMessage c ch m i double s).pwr = s.pwr ∧ (failMessage c ch m i
    double s).otp = s.otp ∧ (failMessage c ch m i double s).gateh = s.gateh ∧ (failMessage c ch m i double s).mbx = s.mbx ∧ (failMessage c ch m i
    double s).flds = s.flds ∧ (failMessage c ch m i double s).grid = s.grid ∧ (failMessage c ch m i double s).bridges = s.bridges ∧ (failMessage c
    ch m i double s).hbm = s.hbm ∧ (failMessage c ch m i double s).links = s.links ∧ (failMessage c ch m i double s).mesh = s.mesh ∧ (failMessage c
    ch m i double s).test = s.test ∧ (failMessage c ch m i double s).health = s.health ∧ (failMessage c ch m i double s).free = s.free := by
  unfold failMessage
  simp

theorem trySend_keeps (c : Nat) (ch : Channel) (at_ : Nat × Site) (payload : List Byte) (s t : State)
    (h : trySend c ch at_ payload s = some t) :
    t.pending = s.pending ∧ t.pins = s.pins ∧ t.pwr = s.pwr ∧ t.otp = s.otp ∧ t.gateh = s.gateh ∧ t.mbx = s.mbx ∧ t.flds = s.flds ∧
    t.bridges = s.bridges ∧ t.hbm = s.hbm ∧ t.test = s.test ∧ t.health = s.health ∧ t.free = s.free := by
  unfold trySend at h
  dsimp only at h
  split at h
  · cases h
  · split at h
    · cases h; simp
    · split at h
      · cases h
      · cases h; cases ch.outbound <;> simp

@[simp] theorem grantFirst_keeps (c : Nat) (ch : Channel) (l : List Waiter) (s : State) : (grantFirst c ch l s).pending = s.pending ∧
    (grantFirst c ch l s).pins = s.pins ∧ (grantFirst c ch l s).pwr = s.pwr ∧ (grantFirst c ch l s).otp = s.otp ∧
    (grantFirst c ch l s).gateh = s.gateh ∧ (grantFirst c ch l s).mbx = s.mbx ∧ (grantFirst c ch l s).flds = s.flds ∧
    (grantFirst c ch l s).bridges = s.bridges ∧ (grantFirst c ch l s).hbm = s.hbm ∧
    (grantFirst c ch l s).test = s.test ∧ (grantFirst c ch l s).health = s.health ∧ (grantFirst c ch l s).free = s.free := by
  induction l with
  | nil => simp [grantFirst]
  | cons w r ih =>
    unfold grantFirst
    split
    · simpa using trySend_keeps _ _ _ _ _ _ (by assumption)
    · exact ih

@[simp] theorem dropRemote_keeps (src : U16) (s : State) : (dropRemote src s).pending = s.pending ∧ (dropRemote src s).pins = s.pins ∧ (dropRemote
    src s).ctl = s.ctl ∧ (dropRemote src s).pwr = s.pwr ∧ (dropRemote src s).otp = s.otp ∧ (dropRemote src s).flash = s.flash ∧ (dropRemote src
    s).mbx = s.mbx ∧ (dropRemote src s).evt = s.evt ∧ (dropRemote src s).job = s.job ∧ (dropRemote src s).chans = s.chans ∧ (dropRemote src s).plots
    = s.plots ∧ (dropRemote src s).flds = s.flds ∧ (dropRemote src s).grid = s.grid ∧ (dropRemote src s).bridges = s.bridges ∧ (dropRemote src
    s).hbm = s.hbm ∧ (dropRemote src s).links = s.links ∧ (dropRemote src s).mesh = s.mesh ∧ (dropRemote src s).test = s.test ∧ (dropRemote src
    s).health = s.health ∧ (dropRemote src s).free = s.free := by
  unfold dropRemote
  simp

@[simp] theorem landMessage_keeps (m : RemoteMsg) (s : State) : (landMessage m s).pending = s.pending ∧ (landMessage m s).pins = s.pins ∧
    (landMessage m s).ctl = s.ctl ∧ (landMessage m s).pwr = s.pwr ∧ (landMessage m s).otp = s.otp ∧ (landMessage m s).flash = s.flash ∧ (landMessage
    m s).gateh = s.gateh ∧ (landMessage m s).mbx = s.mbx ∧ (landMessage m s).evt = s.evt ∧ (landMessage m s).job = s.job ∧ (landMessage m s).flds =
    s.flds ∧ (landMessage m s).grid = s.grid ∧ (landMessage m s).bridges = s.bridges ∧ (landMessage m s).hbm = s.hbm ∧ (landMessage m s).links =
    s.links ∧ (landMessage m s).mesh = s.mesh ∧ (landMessage m s).test = s.test ∧ (landMessage m s).health = s.health ∧ (landMessage m s).free =
    s.free := by
  unfold landMessage
  (repeat' split) <;> simp

@[simp] theorem closeOutbound_keeps (c : Nat) (ch : Channel) (s : State) : (closeOutbound c ch s).pending = s.pending ∧ (closeOutbound c ch s).pins
    = s.pins ∧ (closeOutbound c ch s).pwr = s.pwr ∧ (closeOutbound c ch s).otp = s.otp ∧ (closeOutbound c ch s).gateh = s.gateh ∧ (closeOutbound c
    ch s).mbx = s.mbx ∧ (closeOutbound c ch s).flds = s.flds ∧ (closeOutbound c ch s).grid = s.grid ∧ (closeOutbound c ch s).bridges = s.bridges ∧
    (closeOutbound c ch s).hbm = s.hbm ∧ (closeOutbound c ch s).links = s.links ∧ (closeOutbound c ch s).mesh = s.mesh ∧ (closeOutbound c ch s).test
    = s.test ∧ (closeOutbound c ch s).health = s.health ∧ (closeOutbound c ch s).free = s.free := by
  unfold closeOutbound
  simp

/-! ## Sections -/

@[simp] theorem flushArray_keeps (p : Nat) (s : State) : (flushArray p s).pending = s.pending ∧ (flushArray p s).pins = s.pins ∧ (flushArray p
    s).ctl = s.ctl ∧ (flushArray p s).pwr = s.pwr ∧ (flushArray p s).otp = s.otp ∧ (flushArray p s).flash = s.flash ∧ (flushArray p s).gateh =
    s.gateh ∧ (flushArray p s).mbx = s.mbx ∧ (flushArray p s).evt = s.evt ∧ (flushArray p s).job = s.job ∧ (flushArray p s).flds = s.flds ∧
    (flushArray p s).grid = s.grid ∧ (flushArray p s).bridges = s.bridges ∧ (flushArray p s).hbm = s.hbm ∧ (flushArray p s).links = s.links ∧
    (flushArray p s).mesh = s.mesh ∧ (flushArray p s).test = s.test ∧ (flushArray p s).health = s.health ∧ (flushArray p s).free = s.free := by
  unfold flushArray
  simp

@[simp] theorem closeOnSwitch_keeps (p : Nat) (s : State) : (closeOnSwitch p s).pending = s.pending ∧ (closeOnSwitch p s).pins = s.pins ∧
    (closeOnSwitch p s).pwr = s.pwr ∧ (closeOnSwitch p s).otp = s.otp ∧ (closeOnSwitch p s).gateh = s.gateh ∧ (closeOnSwitch p s).mbx = s.mbx ∧
    (closeOnSwitch p s).flds = s.flds ∧ (closeOnSwitch p s).grid = s.grid ∧ (closeOnSwitch p s).bridges = s.bridges ∧ (closeOnSwitch p s).hbm =
    s.hbm ∧ (closeOnSwitch p s).test = s.test ∧ (closeOnSwitch p s).health = s.health ∧ (closeOnSwitch p s).free = s.free := by
  unfold closeOnSwitch
  (repeat' split) <;> simp

@[simp] theorem activateSection_keeps (p slot : Nat) (s : State) : (activateSection p slot s).pending = s.pending ∧ (activateSection p slot s).pins
    = s.pins ∧ (activateSection p slot s).pwr = s.pwr ∧ (activateSection p slot s).otp = s.otp ∧ (activateSection p slot s).gateh = s.gateh ∧
    (activateSection p slot s).mbx = s.mbx ∧ (activateSection p slot s).flds = s.flds ∧ (activateSection p slot s).grid = s.grid ∧ (activateSection
    p slot s).bridges = s.bridges ∧ (activateSection p slot s).hbm = s.hbm ∧ (activateSection p slot s).test = s.test ∧ (activateSection p slot
    s).health = s.health ∧ (activateSection p slot s).free = s.free := by
  unfold activateSection
  simp

@[simp] theorem passBarrier_keeps (p : Nat) (s : State) : (passBarrier p s).pending = s.pending ∧ (passBarrier p s).pins = s.pins ∧ (passBarrier p
    s).pwr = s.pwr ∧ (passBarrier p s).otp = s.otp ∧ (passBarrier p s).gateh = s.gateh ∧ (passBarrier p s).mbx = s.mbx ∧ (passBarrier p s).flds =
    s.flds ∧ (passBarrier p s).grid = s.grid ∧ (passBarrier p s).bridges = s.bridges ∧ (passBarrier p s).hbm = s.hbm ∧ (passBarrier p s).test =
    s.test ∧ (passBarrier p s).health = s.health ∧ (passBarrier p s).free = s.free := by
  unfold passBarrier
  dsimp only
  (repeat' split) <;> simp

/-! ## Sequencer -/

@[simp] theorem haltRun_keeps (f k : Nat) (s : State) : (haltRun f k s).pending = s.pending ∧ (haltRun f k s).pins = s.pins ∧ (haltRun f k s).ctl =
    s.ctl ∧ (haltRun f k s).pwr = s.pwr ∧ (haltRun f k s).otp = s.otp ∧ (haltRun f k s).flash = s.flash ∧ (haltRun f k s).gateh = s.gateh ∧ (haltRun
    f k s).mbx = s.mbx ∧ (haltRun f k s).evt = s.evt ∧ (haltRun f k s).job = s.job ∧ (haltRun f k s).chans = s.chans ∧ (haltRun f k s).plots =
    s.plots ∧ (haltRun f k s).grid = s.grid ∧ (haltRun f k s).bridges = s.bridges ∧ (haltRun f k s).hbm = s.hbm ∧ (haltRun f k s).links = s.links ∧
    (haltRun f k s).mesh = s.mesh ∧ (haltRun f k s).test = s.test ∧ (haltRun f k s).health = s.health ∧ (haltRun f k s).free = s.free := by
  unfold haltRun
  simp

@[simp] theorem issueFault_keeps (p i d : Nat) (dd : Desc) (code tile : Nat) (s : State) : (issueFault p i d dd code tile s).pending = s.pending ∧
    (issueFault p i d dd code tile s).pins = s.pins ∧ (issueFault p i d dd code tile s).pwr = s.pwr ∧ (issueFault p i d dd code tile s).otp = s.otp
    ∧ (issueFault p i d dd code tile s).gateh = s.gateh ∧ (issueFault p i d dd code tile s).mbx = s.mbx ∧ (issueFault p i d dd code tile s).chans =
    s.chans ∧ (issueFault p i d dd code tile s).grid = s.grid ∧ (issueFault p i d dd code tile s).bridges = s.bridges ∧ (issueFault p i d dd code
    tile s).hbm = s.hbm ∧ (issueFault p i d dd code tile s).links = s.links ∧ (issueFault p i d dd code tile s).mesh = s.mesh ∧ (issueFault p i d dd
    code tile s).test = s.test ∧ (issueFault p i d dd code tile s).health = s.health ∧ (issueFault p i d dd code tile s).free = s.free := by
  unfold issueFault
  simp

@[simp] theorem joinRun_keeps (p c d : Nat) (dd : Desc) (s : State) : (joinRun p c d dd s).pending = s.pending ∧ (joinRun p c d dd s).pins = s.pins
    ∧ (joinRun p c d dd s).ctl = s.ctl ∧ (joinRun p c d dd s).pwr = s.pwr ∧ (joinRun p c d dd s).otp = s.otp ∧ (joinRun p c d dd s).flash = s.flash
    ∧ (joinRun p c d dd s).gateh = s.gateh ∧ (joinRun p c d dd s).mbx = s.mbx ∧ (joinRun p c d dd s).evt = s.evt ∧ (joinRun p c d dd s).job = s.job
    ∧ (joinRun p c d dd s).chans = s.chans ∧ (joinRun p c d dd s).grid = s.grid ∧ (joinRun p c d dd s).bridges = s.bridges ∧ (joinRun p c d dd
    s).hbm = s.hbm ∧ (joinRun p c d dd s).links = s.links ∧ (joinRun p c d dd s).mesh = s.mesh ∧ (joinRun p c d dd s).test = s.test ∧ (joinRun p c d
    dd s).health = s.health ∧ (joinRun p c d dd s).free = s.free := by
  unfold joinRun
  simp

@[simp] theorem setCounter_keeps (p : Nat) (dd : Desc) (v : Nat) (s : State) : (setCounter p dd v s).pending = s.pending ∧ (setCounter p dd v
    s).pins = s.pins ∧ (setCounter p dd v s).ctl = s.ctl ∧ (setCounter p dd v s).pwr = s.pwr ∧ (setCounter p dd v s).otp = s.otp ∧ (setCounter p dd
    v s).flash = s.flash ∧ (setCounter p dd v s).gateh = s.gateh ∧ (setCounter p dd v s).mbx = s.mbx ∧ (setCounter p dd v s).evt = s.evt ∧
    (setCounter p dd v s).job = s.job ∧ (setCounter p dd v s).chans = s.chans ∧ (setCounter p dd v s).grid = s.grid ∧ (setCounter p dd v s).bridges
    = s.bridges ∧ (setCounter p dd v s).hbm = s.hbm ∧ (setCounter p dd v s).links = s.links ∧ (setCounter p dd v s).mesh = s.mesh ∧ (setCounter p dd
    v s).test = s.test ∧ (setCounter p dd v s).health = s.health ∧ (setCounter p dd v s).free = s.free := by
  unfold setCounter
  (repeat' split) <;> simp

@[simp] theorem moveChains_keeps (st p d : Nat) (g : Chain → Chain) (s : State) : (moveChains st p d g s).pending = s.pending ∧ (moveChains st p d g
    s).pins = s.pins ∧ (moveChains st p d g s).ctl = s.ctl ∧ (moveChains st p d g s).pwr = s.pwr ∧ (moveChains st p d g s).otp = s.otp ∧ (moveChains
    st p d g s).flash = s.flash ∧ (moveChains st p d g s).gateh = s.gateh ∧ (moveChains st p d g s).mbx = s.mbx ∧ (moveChains st p d g s).evt =
    s.evt ∧ (moveChains st p d g s).job = s.job ∧ (moveChains st p d g s).chans = s.chans ∧ (moveChains st p d g s).flds = s.flds ∧ (moveChains st p
    d g s).grid = s.grid ∧ (moveChains st p d g s).bridges = s.bridges ∧ (moveChains st p d g s).hbm = s.hbm ∧ (moveChains st p d g s).links =
    s.links ∧ (moveChains st p d g s).mesh = s.mesh ∧ (moveChains st p d g s).test = s.test ∧ (moveChains st p d g s).health = s.health ∧
    (moveChains st p d g s).free = s.free := by
  unfold moveChains
  simp

@[simp] theorem stopSlice_keeps (p i d : Nat) (dd : Desc) (s : State) : (stopSlice p i d dd s).pending = s.pending ∧ (stopSlice p i d dd s).pins =
    s.pins ∧ (stopSlice p i d dd s).ctl = s.ctl ∧ (stopSlice p i d dd s).pwr = s.pwr ∧ (stopSlice p i d dd s).otp = s.otp ∧ (stopSlice p i d dd
    s).flash = s.flash ∧ (stopSlice p i d dd s).gateh = s.gateh ∧ (stopSlice p i d dd s).mbx = s.mbx ∧ (stopSlice p i d dd s).evt = s.evt ∧
    (stopSlice p i d dd s).job = s.job ∧ (stopSlice p i d dd s).chans = s.chans ∧ (stopSlice p i d dd s).grid = s.grid ∧ (stopSlice p i d dd
    s).bridges = s.bridges ∧ (stopSlice p i d dd s).hbm = s.hbm ∧ (stopSlice p i d dd s).links = s.links ∧ (stopSlice p i d dd s).mesh = s.mesh ∧
    (stopSlice p i d dd s).test = s.test ∧ (stopSlice p i d dd s).health = s.health ∧ (stopSlice p i d dd s).free = s.free := by
  unfold stopSlice
  dsimp only
  (repeat' split) <;> simp

@[simp] theorem denied_keeps (f t : Nat) (tr : Transfer) (off n cause : Nat) (scope : VScope) (s : State) : (denied f t tr off n cause scope
    s).pending = s.pending ∧ (denied f t tr off n cause scope s).pins = s.pins ∧ (denied f t tr off n cause scope s).ctl = s.ctl ∧ (denied f t tr
    off n cause scope s).pwr = s.pwr ∧ (denied f t tr off n cause scope s).otp = s.otp ∧ (denied f t tr off n cause scope s).mbx = s.mbx ∧ (denied f
    t tr off n cause scope s).job = s.job ∧ (denied f t tr off n cause scope s).chans = s.chans ∧ (denied f t tr off n cause scope s).grid = s.grid
    ∧ (denied f t tr off n cause scope s).bridges = s.bridges ∧ (denied f t tr off n cause scope s).hbm = s.hbm ∧ (denied f t tr off n cause scope
    s).links = s.links ∧ (denied f t tr off n cause scope s).mesh = s.mesh ∧ (denied f t tr off n cause scope s).test = s.test ∧ (denied f t tr off
    n cause scope s).health = s.health ∧ (denied f t tr off n cause scope s).free = s.free := by
  unfold denied
  (repeat' split) <;> simp

@[simp] theorem performAccess_keeps (f rid : Nat) (s : State) : (performAccess f rid s).pending = s.pending ∧ (performAccess f rid s).pins = s.pins
    ∧ (performAccess f rid s).ctl = s.ctl ∧ (performAccess f rid s).pwr = s.pwr ∧ (performAccess f rid s).otp = s.otp ∧ (performAccess f rid s).mbx
    = s.mbx ∧ (performAccess f rid s).job = s.job ∧ (performAccess f rid s).chans = s.chans ∧ (performAccess f rid s).bridges = s.bridges ∧
    (performAccess f rid s).hbm = s.hbm ∧ (performAccess f rid s).links = s.links ∧ (performAccess f rid s).mesh = s.mesh ∧ (performAccess f rid
    s).test = s.test ∧ (performAccess f rid s).health = s.health ∧ (performAccess f rid s).free = s.free := by
  unfold performAccess
  (repeat' split) <;> simp

/-! ## Tiles -/

@[simp] theorem rewindSlot_keeps (p i slot part : Nat) (s : State) : (rewindSlot p i slot part s).pending = s.pending ∧ (rewindSlot p i slot part
    s).pins = s.pins ∧ (rewindSlot p i slot part s).ctl = s.ctl ∧ (rewindSlot p i slot part s).pwr = s.pwr ∧ (rewindSlot p i slot part s).otp =
    s.otp ∧ (rewindSlot p i slot part s).flash = s.flash ∧ (rewindSlot p i slot part s).gateh = s.gateh ∧ (rewindSlot p i slot part s).mbx = s.mbx ∧
    (rewindSlot p i slot part s).evt = s.evt ∧ (rewindSlot p i slot part s).job = s.job ∧ (rewindSlot p i slot part s).chans = s.chans ∧ (rewindSlot
    p i slot part s).grid = s.grid ∧ (rewindSlot p i slot part s).bridges = s.bridges ∧ (rewindSlot p i slot part s).hbm = s.hbm ∧ (rewindSlot p i
    slot part s).links = s.links ∧ (rewindSlot p i slot part s).mesh = s.mesh ∧ (rewindSlot p i slot part s).test = s.test ∧ (rewindSlot p i slot
    part s).health = s.health ∧ (rewindSlot p i slot part s).free = s.free := by
  unfold rewindSlot
  simp

@[simp] theorem rewind_keeps (p i : Nat) (dd : Desc) (part : Nat → Nat) (s : State) : (rewind p i dd part s).pending = s.pending ∧ (rewind p i dd
    part s).pins = s.pins ∧ (rewind p i dd part s).ctl = s.ctl ∧ (rewind p i dd part s).pwr = s.pwr ∧ (rewind p i dd part s).otp = s.otp ∧ (rewind p
    i dd part s).flash = s.flash ∧ (rewind p i dd part s).gateh = s.gateh ∧ (rewind p i dd part s).mbx = s.mbx ∧ (rewind p i dd part s).evt = s.evt
    ∧ (rewind p i dd part s).job = s.job ∧ (rewind p i dd part s).chans = s.chans ∧ (rewind p i dd part s).grid = s.grid ∧ (rewind p i dd part
    s).bridges = s.bridges ∧ (rewind p i dd part s).hbm = s.hbm ∧ (rewind p i dd part s).links = s.links ∧ (rewind p i dd part s).mesh = s.mesh ∧
    (rewind p i dd part s).test = s.test ∧ (rewind p i dd part s).health = s.health ∧ (rewind p i dd part s).free = s.free := by
  unfold rewind
  simp

@[simp] theorem replayIssue_keeps (p i d : Nat) (dd : Desc) (r : Run) (n place code cause : Nat) (restart : Bool) (part : Nat → Nat) (s : State) :
    (replayIssue p i d dd r n place code cause restart part s).pending = s.pending ∧ (replayIssue p i d dd r n place code cause restart part s).pins
    = s.pins ∧ (replayIssue p i d dd r n place code cause restart part s).pwr = s.pwr ∧ (replayIssue p i d dd r n place code cause restart part
    s).otp = s.otp ∧ (replayIssue p i d dd r n place code cause restart part s).gateh = s.gateh ∧ (replayIssue p i d dd r n place code cause restart
    part s).mbx = s.mbx ∧ (replayIssue p i d dd r n place code cause restart part s).chans = s.chans ∧ (replayIssue p i d dd r n place code cause
    restart part s).grid = s.grid ∧ (replayIssue p i d dd r n place code cause restart part s).bridges = s.bridges ∧ (replayIssue p i d dd r n place
    code cause restart part s).hbm = s.hbm ∧ (replayIssue p i d dd r n place code cause restart part s).links = s.links ∧ (replayIssue p i d dd r n
    place code cause restart part s).mesh = s.mesh ∧ (replayIssue p i d dd r n place code cause restart part s).test = s.test ∧ (replayIssue p i d
    dd r n place code cause restart part s).health = s.health ∧ (replayIssue p i d dd r n place code cause restart part s).free = s.free := by
  unfold replayIssue
  dsimp only
  (repeat' split) <;> simp

@[simp] theorem tileFailed_keeps (p i d : Nat) (dd : Desc) (r : Run) (n place code cause : Nat) (part : Nat → Nat) (s : State) : (tileFailed p i d
    dd r n place code cause part s).pending = s.pending ∧ (tileFailed p i d dd r n place code cause part s).pins = s.pins ∧ (tileFailed p i d dd r n
    place code cause part s).pwr = s.pwr ∧ (tileFailed p i d dd r n place code cause part s).otp = s.otp ∧ (tileFailed p i d dd r n place code cause
    part s).gateh = s.gateh ∧ (tileFailed p i d dd r n place code cause part s).mbx = s.mbx ∧ (tileFailed p i d dd r n place code cause part
    s).chans = s.chans ∧ (tileFailed p i d dd r n place code cause part s).grid = s.grid ∧ (tileFailed p i d dd r n place code cause part s).bridges
    = s.bridges ∧ (tileFailed p i d dd r n place code cause part s).hbm = s.hbm ∧ (tileFailed p i d dd r n place code cause part s).links = s.links
    ∧ (tileFailed p i d dd r n place code cause part s).mesh = s.mesh ∧ (tileFailed p i d dd r n place code cause part s).test = s.test ∧
    (tileFailed p i d dd r n place code cause part s).health = s.health ∧ (tileFailed p i d dd r n place code cause part s).free = s.free := by
  unfold tileFailed
  (repeat' split) <;> simp

@[simp] theorem countTile_keeps (f k tile : Nat) (s : State) : (countTile f k tile s).pending = s.pending ∧ (countTile f k tile s).pins = s.pins ∧
    (countTile f k tile s).ctl = s.ctl ∧ (countTile f k tile s).pwr = s.pwr ∧ (countTile f k tile s).otp = s.otp ∧ (countTile f k tile s).flash =
    s.flash ∧ (countTile f k tile s).gateh = s.gateh ∧ (countTile f k tile s).mbx = s.mbx ∧ (countTile f k tile s).evt = s.evt ∧ (countTile f k tile
    s).job = s.job ∧ (countTile f k tile s).chans = s.chans ∧ (countTile f k tile s).plots = s.plots ∧ (countTile f k tile s).grid = s.grid ∧
    (countTile f k tile s).bridges = s.bridges ∧ (countTile f k tile s).hbm = s.hbm ∧ (countTile f k tile s).links = s.links ∧ (countTile f k tile
    s).mesh = s.mesh ∧ (countTile f k tile s).test = s.test ∧ (countTile f k tile s).health = s.health ∧ (countTile f k tile s).free = s.free := by
  unfold countTile
  simp

@[simp] theorem createCommit_keeps (p i d : Nat) (dd : Desc) (r : Run) (place part : Nat) (s : State) : (createCommit p i d dd r place part
    s).pending = s.pending ∧ (createCommit p i d dd r place part s).pins = s.pins ∧ (createCommit p i d dd r place part s).ctl = s.ctl ∧
    (createCommit p i d dd r place part s).pwr = s.pwr ∧ (createCommit p i d dd r place part s).otp = s.otp ∧ (createCommit p i d dd r place part
    s).flash = s.flash ∧ (createCommit p i d dd r place part s).gateh = s.gateh ∧ (createCommit p i d dd r place part s).mbx = s.mbx ∧ (createCommit
    p i d dd r place part s).evt = s.evt ∧ (createCommit p i d dd r place part s).job = s.job ∧ (createCommit p i d dd r place part s).chans =
    s.chans ∧ (createCommit p i d dd r place part s).plots = s.plots ∧ (createCommit p i d dd r place part s).grid = s.grid ∧ (createCommit p i d dd
    r place part s).bridges = s.bridges ∧ (createCommit p i d dd r place part s).hbm = s.hbm ∧ (createCommit p i d dd r place part s).links =
    s.links ∧ (createCommit p i d dd r place part s).mesh = s.mesh ∧ (createCommit p i d dd r place part s).test = s.test ∧ (createCommit p i d dd r
    place part s).health = s.health ∧ (createCommit p i d dd r place part s).free = s.free := by
  unfold createCommit
  simp

@[simp] theorem forgetTile_keeps (p i d tile : Nat) (s : State) : (forgetTile p i d tile s).pending = s.pending ∧ (forgetTile p i d tile s).pins =
    s.pins ∧ (forgetTile p i d tile s).ctl = s.ctl ∧ (forgetTile p i d tile s).pwr = s.pwr ∧ (forgetTile p i d tile s).otp = s.otp ∧ (forgetTile p i
    d tile s).flash = s.flash ∧ (forgetTile p i d tile s).gateh = s.gateh ∧ (forgetTile p i d tile s).mbx = s.mbx ∧ (forgetTile p i d tile s).evt =
    s.evt ∧ (forgetTile p i d tile s).job = s.job ∧ (forgetTile p i d tile s).chans = s.chans ∧ (forgetTile p i d tile s).flds = s.flds ∧
    (forgetTile p i d tile s).grid = s.grid ∧ (forgetTile p i d tile s).bridges = s.bridges ∧ (forgetTile p i d tile s).hbm = s.hbm ∧ (forgetTile p
    i d tile s).links = s.links ∧ (forgetTile p i d tile s).mesh = s.mesh ∧ (forgetTile p i d tile s).test = s.test ∧ (forgetTile p i d tile
    s).health = s.health ∧ (forgetTile p i d tile s).free = s.free := by
  unfold forgetTile
  simp

/-! ## Commits -/

@[simp] theorem startWrite_keeps (f c : Nat) (v : Commit) (s : State) : (startWrite f c v s).pending = s.pending ∧ (startWrite f c v s).pins =
    s.pins ∧ (startWrite f c v s).ctl = s.ctl ∧ (startWrite f c v s).pwr = s.pwr ∧ (startWrite f c v s).otp = s.otp ∧ (startWrite f c v s).flash =
    s.flash ∧ (startWrite f c v s).gateh = s.gateh ∧ (startWrite f c v s).mbx = s.mbx ∧ (startWrite f c v s).evt = s.evt ∧ (startWrite f c v s).job
    = s.job ∧ (startWrite f c v s).chans = s.chans ∧ (startWrite f c v s).plots = s.plots ∧ (startWrite f c v s).grid = s.grid ∧ (startWrite f c v
    s).bridges = s.bridges ∧ (startWrite f c v s).hbm = s.hbm ∧ (startWrite f c v s).links = s.links ∧ (startWrite f c v s).mesh = s.mesh ∧
    (startWrite f c v s).test = s.test ∧ (startWrite f c v s).health = s.health ∧ (startWrite f c v s).free = s.free := by
  unfold startWrite
  simp

@[simp] theorem treat_keeps (f c : Nat) (s : State) : (treat f c s).pending = s.pending ∧ (treat f c s).pins = s.pins ∧ (treat f c s).ctl = s.ctl ∧
    (treat f c s).pwr = s.pwr ∧ (treat f c s).otp = s.otp ∧ (treat f c s).flash = s.flash ∧ (treat f c s).gateh = s.gateh ∧ (treat f c s).mbx =
    s.mbx ∧ (treat f c s).evt = s.evt ∧ (treat f c s).job = s.job ∧ (treat f c s).chans = s.chans ∧ (treat f c s).plots = s.plots ∧ (treat f c
    s).grid = s.grid ∧ (treat f c s).bridges = s.bridges ∧ (treat f c s).hbm = s.hbm ∧ (treat f c s).links = s.links ∧ (treat f c s).mesh = s.mesh ∧
    (treat f c s).test = s.test ∧ (treat f c s).health = s.health := by
  unfold treat
  dsimp only
  (repeat' split) <;> simp

@[simp] theorem endCommit_keeps (f c : Nat) (v : Commit) (s : State) : (endCommit f c v s).pending = s.pending ∧ (endCommit f c v s).pins = s.pins ∧
    (endCommit f c v s).ctl = s.ctl ∧ (endCommit f c v s).pwr = s.pwr ∧ (endCommit f c v s).otp = s.otp ∧ (endCommit f c v s).flash = s.flash ∧
    (endCommit f c v s).gateh = s.gateh ∧ (endCommit f c v s).mbx = s.mbx ∧ (endCommit f c v s).evt = s.evt ∧ (endCommit f c v s).job = s.job ∧
    (endCommit f c v s).chans = s.chans ∧ (endCommit f c v s).plots = s.plots ∧ (endCommit f c v s).grid = s.grid ∧ (endCommit f c v s).bridges =
    s.bridges ∧ (endCommit f c v s).hbm = s.hbm ∧ (endCommit f c v s).links = s.links ∧ (endCommit f c v s).mesh = s.mesh ∧ (endCommit f c v s).test
    = s.test ∧ (endCommit f c v s).health = s.health ∧ (endCommit f c v s).free = s.free := by
  unfold endCommit
  simp

@[simp] theorem readCommit_keeps (v : Commit) (s : State) : (readCommit v s).pending = s.pending ∧ (readCommit v s).pins = s.pins ∧ (readCommit v
    s).ctl = s.ctl ∧ (readCommit v s).pwr = s.pwr ∧ (readCommit v s).otp = s.otp ∧ (readCommit v s).gateh = s.gateh ∧ (readCommit v s).mbx = s.mbx ∧
    (readCommit v s).job = s.job ∧ (readCommit v s).chans = s.chans ∧ (readCommit v s).flds = s.flds ∧ (readCommit v s).grid = s.grid ∧ (readCommit
    v s).bridges = s.bridges ∧ (readCommit v s).hbm = s.hbm ∧ (readCommit v s).links = s.links ∧ (readCommit v s).mesh = s.mesh ∧ (readCommit v
    s).test = s.test ∧ (readCommit v s).health = s.health ∧ (readCommit v s).free = s.free := by
  unfold readCommit
  (repeat' split) <;> simp

/-! ## Load -/

@[simp] theorem openChannel_keeps (c : Nat) (ch : Channel) (s : State) : (openChannel c ch s).pending = s.pending ∧ (openChannel c ch s).pins =
    s.pins ∧ (openChannel c ch s).ctl = s.ctl ∧ (openChannel c ch s).pwr = s.pwr ∧ (openChannel c ch s).otp = s.otp ∧ (openChannel c ch s).gateh =
    s.gateh ∧ (openChannel c ch s).mbx = s.mbx ∧ (openChannel c ch s).job = s.job ∧ (openChannel c ch s).flds = s.flds ∧ (openChannel c ch s).grid =
    s.grid ∧ (openChannel c ch s).bridges = s.bridges ∧ (openChannel c ch s).hbm = s.hbm ∧ (openChannel c ch s).test = s.test ∧ (openChannel c ch
    s).health = s.health ∧ (openChannel c ch s).free = s.free := by
  unfold openChannel
  (repeat' split) <;> simp

@[simp] theorem resetJob_keeps (s : State) : (resetJob s).pending = s.pending ∧ (resetJob s).pins = s.pins ∧ (resetJob s).ctl = s.ctl ∧ (resetJob
    s).pwr = s.pwr ∧ (resetJob s).otp = s.otp ∧ (resetJob s).flash = s.flash ∧ (resetJob s).gateh = s.gateh ∧ (resetJob s).mbx = s.mbx ∧ (resetJob
    s).evt = s.evt ∧ (resetJob s).grid = s.grid ∧ (resetJob s).bridges = s.bridges ∧ (resetJob s).links = s.links ∧ (resetJob s).mesh = s.mesh ∧
    (resetJob s).test = s.test ∧ (resetJob s).health = s.health ∧ (resetJob s).free = s.free := by
  unfold resetJob
  simp

@[simp] theorem startArray_keeps (p : Nat) (s : State) : (startArray p s).pending = s.pending ∧ (startArray p s).pins = s.pins ∧ (startArray p
    s).pwr = s.pwr ∧ (startArray p s).otp = s.otp ∧ (startArray p s).gateh = s.gateh ∧ (startArray p s).mbx = s.mbx ∧ (startArray p s).flds = s.flds
    ∧ (startArray p s).grid = s.grid ∧ (startArray p s).bridges = s.bridges ∧ (startArray p s).hbm = s.hbm ∧ (startArray p s).test = s.test ∧
    (startArray p s).health = s.health ∧ (startArray p s).free = s.free := by
  unfold startArray
  (repeat' split) <;> simp

@[simp] theorem startJob_keeps (s : State) : (startJob s).pending = s.pending ∧ (startJob s).pins = s.pins ∧ (startJob s).pwr = s.pwr ∧ (startJob
    s).otp = s.otp ∧ (startJob s).gateh = s.gateh ∧ (startJob s).mbx = s.mbx ∧ (startJob s).grid = s.grid ∧ (startJob s).bridges = s.bridges ∧
    (startJob s).test = s.test ∧ (startJob s).health = s.health ∧ (startJob s).free = s.free := by
  unfold startJob
  simp

/-! ## Mailbox -/

@[simp] theorem storeTail_keeps (mb tail : Nat) (s : State) : (storeTail mb tail s).pending = s.pending ∧ (storeTail mb tail s).pins = s.pins ∧
    (storeTail mb tail s).ctl = s.ctl ∧ (storeTail mb tail s).pwr = s.pwr ∧ (storeTail mb tail s).otp = s.otp ∧ (storeTail mb tail s).flash =
    s.flash ∧ (storeTail mb tail s).gateh = s.gateh ∧ (storeTail mb tail s).evt = s.evt ∧ (storeTail mb tail s).job = s.job ∧ (storeTail mb tail
    s).chans = s.chans ∧ (storeTail mb tail s).plots = s.plots ∧ (storeTail mb tail s).flds = s.flds ∧ (storeTail mb tail s).grid = s.grid ∧
    (storeTail mb tail s).bridges = s.bridges ∧ (storeTail mb tail s).hbm = s.hbm ∧ (storeTail mb tail s).links = s.links ∧ (storeTail mb tail
    s).mesh = s.mesh ∧ (storeTail mb tail s).test = s.test ∧ (storeTail mb tail s).health = s.health ∧ (storeTail mb tail s).free = s.free := by
  unfold storeTail
  (repeat' split) <;> simp

@[simp] theorem storeHead_keeps (mb head : Nat) (s : State) : (storeHead mb head s).pending = s.pending ∧ (storeHead mb head s).pins = s.pins ∧
    (storeHead mb head s).ctl = s.ctl ∧ (storeHead mb head s).pwr = s.pwr ∧ (storeHead mb head s).otp = s.otp ∧ (storeHead mb head s).flash =
    s.flash ∧ (storeHead mb head s).gateh = s.gateh ∧ (storeHead mb head s).evt = s.evt ∧ (storeHead mb head s).job = s.job ∧ (storeHead mb head
    s).chans = s.chans ∧ (storeHead mb head s).plots = s.plots ∧ (storeHead mb head s).flds = s.flds ∧ (storeHead mb head s).grid = s.grid ∧
    (storeHead mb head s).bridges = s.bridges ∧ (storeHead mb head s).hbm = s.hbm ∧ (storeHead mb head s).links = s.links ∧ (storeHead mb head
    s).mesh = s.mesh ∧ (storeHead mb head s).test = s.test ∧ (storeHead mb head s).health = s.health ∧ (storeHead mb head s).free = s.free := by
  unfold storeHead
  (repeat' split) <;> simp

@[simp] theorem writeRegister_keeps (a : Nat) (v : Byte) (s : State) : (writeRegister a v s).pending = s.pending ∧ (writeRegister a v s).pins =
    s.pins ∧ (writeRegister a v s).ctl = s.ctl ∧ (writeRegister a v s).pwr = s.pwr ∧ (writeRegister a v s).otp = s.otp ∧ (writeRegister a v s).flash
    = s.flash ∧ (writeRegister a v s).gateh = s.gateh ∧ (writeRegister a v s).evt = s.evt ∧ (writeRegister a v s).job = s.job ∧ (writeRegister a v
    s).chans = s.chans ∧ (writeRegister a v s).plots = s.plots ∧ (writeRegister a v s).flds = s.flds ∧ (writeRegister a v s).grid = s.grid ∧
    (writeRegister a v s).bridges = s.bridges ∧ (writeRegister a v s).hbm = s.hbm ∧ (writeRegister a v s).links = s.links ∧ (writeRegister a v
    s).mesh = s.mesh ∧ (writeRegister a v s).test = s.test ∧ (writeRegister a v s).health = s.health ∧ (writeRegister a v s).free = s.free := by
  unfold writeRegister
  dsimp only
  (repeat' split) <;> simp

@[simp] theorem writeRegisters_keeps (a : Nat) (bs : List Byte) (s : State) : (writeRegisters a bs s).pending = s.pending ∧ (writeRegisters a bs
    s).pins = s.pins ∧ (writeRegisters a bs s).ctl = s.ctl ∧ (writeRegisters a bs s).pwr = s.pwr ∧ (writeRegisters a bs s).otp = s.otp ∧
    (writeRegisters a bs s).flash = s.flash ∧ (writeRegisters a bs s).gateh = s.gateh ∧ (writeRegisters a bs s).evt = s.evt ∧ (writeRegisters a bs
    s).job = s.job ∧ (writeRegisters a bs s).chans = s.chans ∧ (writeRegisters a bs s).plots = s.plots ∧ (writeRegisters a bs s).flds = s.flds ∧
    (writeRegisters a bs s).grid = s.grid ∧ (writeRegisters a bs s).bridges = s.bridges ∧ (writeRegisters a bs s).hbm = s.hbm ∧ (writeRegisters a bs
    s).links = s.links ∧ (writeRegisters a bs s).mesh = s.mesh ∧ (writeRegisters a bs s).test = s.test ∧ (writeRegisters a bs s).health = s.health ∧
    (writeRegisters a bs s).free = s.free := by
  fun_induction writeRegisters a bs s <;> simp_all +zetaDelta

@[simp] theorem hostWrite_keeps (id : Nat) (r : Region) (lo hi a : Nat) (bs : List Byte) (es : List WordErrors) (fuel : Nat) (s : State) :
    (hostWrite id r lo hi a bs es fuel s).pending = s.pending ∧ (hostWrite id r lo hi a bs es fuel s).pins = s.pins ∧ (hostWrite id r lo hi a bs es
    fuel s).ctl = s.ctl ∧ (hostWrite id r lo hi a bs es fuel s).pwr = s.pwr ∧ (hostWrite id r lo hi a bs es fuel s).otp = s.otp ∧ (hostWrite id r lo
    hi a bs es fuel s).mbx = s.mbx ∧ (hostWrite id r lo hi a bs es fuel s).job = s.job ∧ (hostWrite id r lo hi a bs es fuel s).chans = s.chans ∧
    (hostWrite id r lo hi a bs es fuel s).bridges = s.bridges ∧ (hostWrite id r lo hi a bs es fuel s).test = s.test ∧ (hostWrite id r lo hi a bs es
    fuel s).health = s.health := by
  fun_induction hostWrite id r lo hi a bs es fuel s <;> simp_all +zetaDelta

@[simp] theorem hostRead_keeps (id : Nat) (r : Region) (a n : Nat) (es : List WordErrors) (fuel : Nat) (s : State) : (hostRead id r a n es fuel
    s).1.pending = s.pending ∧ (hostRead id r a n es fuel s).1.pins = s.pins ∧ (hostRead id r a n es fuel s).1.ctl = s.ctl ∧ (hostRead id r a n es
    fuel s).1.pwr = s.pwr ∧ (hostRead id r a n es fuel s).1.otp = s.otp ∧ (hostRead id r a n es fuel s).1.mbx = s.mbx ∧ (hostRead id r a n es fuel
    s).1.job = s.job ∧ (hostRead id r a n es fuel s).1.chans = s.chans ∧ (hostRead id r a n es fuel s).1.bridges = s.bridges ∧ (hostRead id r a n es
    fuel s).1.test = s.test ∧ (hostRead id r a n es fuel s).1.health = s.health := by
  fun_induction hostRead id r a n es fuel s <;> simp_all +zetaDelta

@[simp] theorem answerHost_keeps (bs : List Byte) (poison : Bool) (s : State) : (answerHost bs poison s).pending = s.pending ∧ (answerHost bs poison
    s).pins = s.pins ∧ (answerHost bs poison s).ctl = s.ctl ∧ (answerHost bs poison s).pwr = s.pwr ∧ (answerHost bs poison s).otp = s.otp ∧
    (answerHost bs poison s).flash = s.flash ∧ (answerHost bs poison s).gateh = s.gateh ∧ (answerHost bs poison s).mbx = s.mbx ∧ (answerHost bs
    poison s).evt = s.evt ∧ (answerHost bs poison s).job = s.job ∧ (answerHost bs poison s).chans = s.chans ∧ (answerHost bs poison s).plots =
    s.plots ∧ (answerHost bs poison s).flds = s.flds ∧ (answerHost bs poison s).grid = s.grid ∧ (answerHost bs poison s).bridges = s.bridges ∧
    (answerHost bs poison s).hbm = s.hbm ∧ (answerHost bs poison s).mesh = s.mesh ∧ (answerHost bs poison s).test = s.test ∧ (answerHost bs poison
    s).health = s.health ∧ (answerHost bs poison s).free = s.free := by
  unfold answerHost
  simp

end Sys2Proof.Machine
end

