-- ==== Sys2Proof/Laws/Trellis.lean ====
section
/-! SUPPORT. What carrying a packet can do: it is kept where it enters the trellis, or it arrives with its outputs granted; and that a receiver opens what a
sender sealed. -/

namespace Sys2Proof.Machine

open Sys2Proof

/-! ## Holds do not change where outputs are granted -/

/-- Granting outputs changes the turns of a trellis alone. -/
theorem trellisOf_grantHops (cls : Nat) (l : List Hop) (s : State) (f : Nat) :
    ∃ t, trellisOf (grantHops cls l s) f = { trellisOf s f with turns := t } := by
  unfold grantHops
  induction l generalizing s with
  | nil => exact ⟨(trellisOf s f).turns, rfl⟩
  | cons h r ih =>
    obtain ⟨t, ht⟩ := ih (updTrellis h.field (fun t => { t with turns := Tab.set t.turns h.key (h.code cls) }) s)
    refine ⟨t, ht.trans ?_⟩
    by_cases e : f = h.field
    · subst e; simp [trellisOf, updTrellis]
    · simp [trellisOf, updTrellis, Tab.get_set_ne _ _ _ _ _ e]

theorem grantHops_flds (cls : Nat) (l : List Hop) (s : State) : (grantHops cls l s).flds = s.flds := by
  unfold grantHops
  induction l generalizing s with
  | nil => rfl
  | cons h r ih => exact (ih _).trans rfl

theorem keptBack_grantHops (cls c : Nat) (goal : Goal) (hops : List Hop) (s : State) :
    keptBack (grantHops cls hops s) c goal = keptBack s c goal := by
  funext l
  have hold : ∀ f, (trellisOf (grantHops cls hops s) f).hold = (trellisOf s f).hold := fun f => by
    obtain ⟨t, ht⟩ := trellisOf_grantHops cls hops s f
    rw [ht]
  have stalled : ∀ f, (trellisOf (grantHops cls hops s) f).stalled = (trellisOf s f).stalled := fun f => by
    obtain ⟨t, ht⟩ := trellisOf_grantHops cls hops s f
    rw [ht]
  have pos : ∀ p, plotPosition (grantHops cls hops s) p = plotPosition s p := fun p => by
    simp only [plotPosition, fieldOf, grantHops_flds]
  cases goal <;> simp [keptBack, goalHeld, agentStalls, plotHeld, hold, stalled, pos]

/-! ## A packet carried (R180, R188, R189) -/

/-- A packet whose destination is held, or whose agent stalls, where it enters is kept there. -/
theorem carry_kept {f : Nat} {site : Site} {cls : Nat} {goal : Goal} {cargo : Cargo} {kept deliver : State → State} {s : State} {l : Leg}
    (hd : (legsTo s f site 0 goal).head? = some l) (h : keptBack s cls goal l = true) :
    carry f site cls goal cargo kept deliver s = park ⟨l.field, l.site, l.vc, cls, goal, cargo⟩ (kept s) := by
  unfold carry carryLegs arrive
  rw [keptBack_grantHops]
  generalize legsTo s f site 0 goal = legs at hd
  cases legs with
  | nil => cases hd
  | cons a r =>
    cases hd
    simp [openHops, h, grantHops, forEach]

/-- A packet that is kept nowhere on its way arrives, its outputs granted. -/
theorem carry_open {f : Nat} {site : Site} {cls : Nat} {goal : Goal} {cargo : Cargo} {kept deliver : State → State} {s : State}
    (h : ∀ l ∈ legsTo s f site 0 goal, keptBack s cls goal l = false) :
    carry f site cls goal cargo kept deliver s = deliver (grantHops cls ((legsTo s f site 0 goal).flatMap (·.hops)) s) := by
  unfold carry carryLegs arrive
  rw [keptBack_grantHops]
  generalize legsTo s f site 0 goal = legs at h
  have all : ∀ l ∈ legs, (!keptBack s cls goal l) = true := fun l m => by simp [h l m]
  have none_ : legs.find? (keptBack s cls goal) = none := by simpa [List.find?_eq_none] using h
  have whole : ∀ r : List Leg, (∀ l ∈ r, (!keptBack s cls goal l) = true) → r.takeWhile (fun v => !keptBack s cls goal v) = r := by
    intro r hr
    induction r with
    | nil => rfl
    | cons a r ih => rw [List.takeWhile_cons, if_pos (hr a (by simp)), ih (fun l m => hr l (by simp [m]))]
  simp only [none_, openHops, whole legs all]

/-! ## AES-256-GCM (R293, R308, R366, R367) -/

theorem gcmText_length (key : BitVec 256) (iv : BitVec 96) (bs : List Byte) : (gcmText key iv bs).length = bs.length := by
  simp [gcmText]

/-- The key stream undoes itself. -/
theorem gcmText_gcmText (key : BitVec 256) (iv : BitVec 96) (bs : List Byte) : gcmText key iv (gcmText key iv bs) = bs := by
  apply List.ext_getElem
  · simp [gcmText]
  · intro i h1 h2
    simp [gcmText, BitVec.xor_assoc]

theorem le_length (n v : Nat) : (le n v).length = n := by
  induction n generalizing v with
  | zero => rfl
  | succ n ih => simp [le, ih]

/-- A receiver with the sender's key, IV and authenticated data opens what was sealed. -/
theorem gcmOpen_gcmSeal (n : Nat) (key : BitVec 256) (iv : BitVec 96) (aad bs : List Byte) :
    gcmOpen n key iv aad (gcmSeal n key iv aad bs) = some bs := by
  have tag : ∀ text, (gcmTag key iv aad text).length = 16 := fun text => le_length _ _
  generalize e : bs.take n ++ gcmText key iv (bs.drop n) = text
  have hl : text.length = bs.length := by rw [← e]; simp [gcmText_length]; omega
  have len : (text ++ gcmTag key iv aad text).length - 16 = text.length := by simp [tag]
  have ge : 16 ≤ (text ++ gcmTag key iv aad text).length := by simp [tag]
  have t1 : (text ++ gcmTag key iv aad text).take ((text ++ gcmTag key iv aad text).length - 16) = text := by rw [len]; simp
  have t2 : (text ++ gcmTag key iv aad text).drop ((text ++ gcmTag key iv aad text).length - 16) = gcmTag key iv aad text := by rw [len]; simp
  unfold gcmOpen gcmSeal
  simp only [e]
  rw [t1, t2]
  have keep : text.take n = bs.take n := by
    rw [← e]
    rcases Nat.le_total n bs.length with h | h
    · rw [List.take_append_of_le_length (by simp [h]), List.take_take, Nat.min_self]
    · simp [List.drop_eq_nil_of_le h, gcmText, List.take_of_length_le h]
  have rest : text.drop n = gcmText key iv (bs.drop n) := by
    rw [← e]
    rcases Nat.le_total n bs.length with h | h
    · rw [List.drop_append]; simp [Nat.min_eq_left h]
    · simp [List.drop_eq_nil_of_le h, gcmText, List.take_of_length_le h]
  rw [keep, rest, gcmText_gcmText]
  rw [if_pos (by simpa using ge), List.take_append_drop]

end Sys2Proof.Machine
end

