-- ==== Sys2Proof/WellFormed.lean ====
section
/-! DEFINITION. Which operands a command may carry: the ranges of R7 (numbering), R306 (request header), R247 (flit) and
R274 (packet). A command outside them spells nothing that the outside could send. -/

namespace Sys2Proof

/-- R303, R306: mailbox 0 to 31, an 8-bit `SESSION_ID`, a 32-bit `SEQ`, a 16-bit `PAYLOAD_LEN`. -/
def hdrOk (h : Hdr) : Bool :=
  decide (h.mailbox < 32) && decide (h.session < 256) && decide (h.seq < 2 ^ 32) && decide (h.len < 65536)

/-- R7: plot 0 to 511, slice 0 to 15, position 0 to 7, and R112: node 0 to 15. -/
def nodeOk (n : NodeRef) : Bool :=
  decide (n.plot < 512) && decide (n.slice < 16) && decide (n.pos < 8) && decide (n.node < 16)

/-- R247: the field widths of a flit and its 236 payload bytes. -/
def flitOk (f : Flit) : Bool :=
  decide (f.lane < 8) && decide (f.ftype < 4) && decide (f.cls < 4) && decide (f.payLen < 256) && decide (f.seq < 2 ^ 20)
    && decide (f.hops < 64) && decide (f.rsv < 2 ^ 56) && decide (f.payload.length ≤ 236)

/-- R274: the field widths of a packet, whose body stands as on the wire. -/
def pktOk (p : Pkt) : Bool :=
  decide (p.ptype < 256) && decide (p.cls < 4) && decide (p.window < 4096) && decide (p.reqTag < 65536)
    && decide (p.address < 2 ^ 48) && decide (p.rsv < 2 ^ 21) && p.key.isNone

/-- R203, R476: a 48-bit local address, or a 7-bit target of the management bus. -/
def writerOk : Writer → Bool
  | .host a => decide (a < 2 ^ 48)
  | .bus target => decide (target < 128)

/-- The well-formed commands. -/
def Instr.wf : Instr → Bool
  | .moduleIdentify h => hdrOk h
  | .moduleState h => hdrOk h
  | .moduleWake h => hdrOk h
  | .moduleShutdown h _ => hdrOk h
  | .moduleShutdownTest h _ _ => hdrOk h
  | .moduleRestart h => hdrOk h
  | .moduleFirmwareInstall h _ _ => hdrOk h
  | .sessionOpenHello h m _ => hdrOk h && decide (m.rsv < 2 ^ 96)
  | .sessionOpenFinish h m _ => hdrOk h && decide (m.rsv < 2 ^ 88)
  | .sessionClose h => hdrOk h
  | .attestReport h _ => hdrOk h
  | .ownerClaim h _ _ => hdrOk h
  | .ownerViolationsRead h _ => hdrOk h
  | .ownerSeal h => hdrOk h
  | .ownerUnseal h _ _ => hdrOk h
  | .jobLoad h _ _ => hdrOk h
  | .jobStart h => hdrOk h
  | .jobDrain h => hdrOk h
  | .jobUnload h => hdrOk h
  | .jobStatus h _ => hdrOk h
  | .plotStatus h => hdrOk h
  | .plotPolicySet h _ => hdrOk h
  | .plotPin h _ => hdrOk h
  | .plotUnpin h _ => hdrOk h
  | .plotFence h _ => hdrOk h
  | .memoryRegionDefine h _ _ => hdrOk h
  | .memoryRegionClear h _ => hdrOk h
  | .memoryRegionRelease h _ => hdrOk h
  | .memoryRegionList h _ => hdrOk h
  | .memoryRetirePage h _ => hdrOk h
  | .memoryRetireBank h _ => hdrOk h
  | .memoryRepairRequest h _ _ => hdrOk h
  | .memoryScrubSet h _ _ => hdrOk h
  | .memoryStagingMark h _ => hdrOk h
  | .memoryStagingUnmark h _ => hdrOk h
  | .linkStatus h => hdrOk h
  | .linkWidthPolicy h _ _ => hdrOk h
  | .meshAssign h _ => hdrOk h
  | .meshStatus h => hdrOk h
  | .meshRouteWrite h _ _ _ => hdrOk h
  | .meshTimeRead h => hdrOk h
  | .windowOpen h _ _ _ => hdrOk h
  | .windowClose h _ => hdrOk h
  | .windowFree h _ => hdrOk h
  | .windowList h _ => hdrOk h
  | .testPackInstall h _ _ => hdrOk h
  | .testCadenceSet h _ => hdrOk h
  | .testStatus h => hdrOk h
  | .healthMargins h _ => hdrOk h
  | .healthLogRead h _ _ _ => hdrOk h
  | .healthEventsRead h _ _ => hdrOk h
  | .healthSummaryRead h _ => hdrOk h
  | .healthWarnings h => hdrOk h
  | .otpRead h _ => hdrOk h
  | .otpGenerationWrite h _ _ _ => hdrOk h
  | .ownerKeyChange h _ _ => hdrOk h
  | .powerLimitSet h _ => hdrOk h
  | .powerClockSet h _ _ => hdrOk h
  | .powerStatus h => hdrOk h
  | .debugQueueView h _ => hdrOk h
  | .debugCountersRead h _ => hdrOk h
  | .debugUnlock h _ _ => hdrOk h
  | .debugUartEnable h _ => hdrOk h
  | .reqTailDoorbell mb _ _ => decide (mb < 32)
  | .rspHeadWrite mb _ _ => decide (mb < 32)
  | .registerWrite w bytes _ => writerOk w && decide (1 ≤ bytes.length) && decide (bytes.length ≤ 4096)
  | .hostDmaAccess _ _ _ => true
  | .jtagInstruction _ => true
  | .auxRailApplied _ => true
  | .auxRailRemoved => true
  | .powerGoodRise => true
  | .powerGoodLoss => true
  | .resetAssert => true
  | .resetRelease => true
  | .cableMated port => decide (port < 16)
  | .bootSequence _ => true
  | .portTrainingDone port _ => decide (port < 16)
  | .noPartnerTimeout port => decide (port < 16)
  | .trainTimeout port => decide (port < 16)
  | .latePartnerTraining port _ => decide (port < 16)
  | .trainToReady => true
  | .meshAssignWaitExpiry => true
  | .claimWaitExpiry => true
  | .shutdownTestComplete _ => true
  | .entropyHealthFail => true
  | .keyStoreFail => true
  | .handshakeExpiry handshake => decide (handshake < 65536)
  | .sessionTeardown session => decide (session < 65)
  | .flitReceive port f => decide (port < 16) && flitOk f
  | .controlWordReceive port w => decide (port < 16) && decide (w.rsv < 2 ^ 18)
  | .ackTimeout port => decide (port < 16)
  | .alignmentBlockReceive port _ => decide (port < 16)
  | .laneFailure port _ _ => decide (port < 16)
  | .widthChange port => decide (port < 16)
  | .lossOfSignalAllLanes port => decide (port < 16)
  | .bridgeReplayFail bridge => decide (bridge < 10)
  | .timeProbeSend port => decide (port < 16)
  | .timeProbe port _ => decide (port < 16)
  | .timeReply port _ _ _ => decide (port < 16)
  | .hostHello port _ => decide (port < 16)
  | .hostHelloTimeout port => decide (port < 16)
  | .claim port _ _ claimantPort => decide (port < 16) && decide (claimantPort < 16)
  | .claimAck member port _ => decide (member < 64) && decide (port < 16)
  | .claimRefuse member port _ _ => decide (member < 64) && decide (port < 16)
  | .enum _ port _ => decide (port < 16)
  | .memberTableWrite _ => true
  | .mgmtRouteWrite _ => true
  | .portStateReport member port _ _ _ => decide (member < 64) && decide (port < 16)
  | .memberTableRecompute => true
  | .packetForward a => decide (a.port < 16) && pktOk a.pkt
  | .mailboxRelay p _ => pktOk p && decide (p.body.length ≤ 1 + 32 * 130)
  | .packRelay _ _ => true
  | .packRelayAnswer member status => decide (member < 64) && decide (status < 65536)
  | .packRelayRetry member => decide (member < 64)
  | .windowReadReq p => pktOk p && p.ptype = 1
  | .windowWriteReq p => pktOk p && p.ptype = 2
  | .windowAtomicReq p _ => pktOk p && p.ptype = 3
  | .readResp p => pktOk p && p.ptype = 4
  | .writeAck p => pktOk p && p.ptype = 5
  | .atomicResp p => pktOk p && p.ptype = 6
  | .remoteRequestTimeout reqTag => decide (reqTag < 65536)
  | .channelMsg p => pktOk p && p.ptype = 0x10
  | .channelReport p => pktOk p && p.ptype = 0x11
  | .headReport channel => decide (channel < 255)
  | .dmaRequestIssue field _ => decide (field < 8)
  | .hbmRead field _ _ => decide (field < 8)
  | .hbmWrite field _ _ => decide (field < 8)
  | .fetchAdd _ _ _ _ => true
  | .swap _ _ _ _ => true
  | .compareSwap _ _ _ _ => true
  | .fetchMax _ _ _ _ => true
  | .fetchOr _ _ _ _ => true
  | .granuleFillComplete _ => true
  | .dramReadReturn stack _ _ => decide (stack < 32)
  | .mergeEntryClose stack _ => decide (stack < 32)
  | .patrolScrubRead _ _ _ => true
  | .marginProbe stack _ => decide (stack < 32)
  | .coreSlackReport plot _ => decide (plot < 512)
  | .foresightWarning _ _ _ => true
  | .runOpen plot chain => decide (plot < 512) && decide (chain < 4)
  | .workCounterFetch plot slice desc => decide (plot < 512) && decide (slice < 16) && decide (desc < 256)
  | .fillIssue plot slice desc operand => decide (plot < 512) && decide (slice < 16) && decide (desc < 256) && decide (operand < 4)
  | .dmaTransferComplete field _ => decide (field < 8)
  | .tileIssue plot slice desc => decide (plot < 512) && decide (slice < 16) && decide (desc < 256)
  | .tileDrainCheck plot slice _ => decide (plot < 512) && decide (slice < 16)
  | .confirmationCheckDone plot slice _ => decide (plot < 512) && decide (slice < 16)
  | .commitArrival field _ => decide (field < 8)
  | .ledgerWriteAck field _ => decide (field < 8)
  | .commitAnswer field _ => decide (field < 8)
  | .runClose field run => decide (field < 8) && decide (run < 64)
  | .slotWaitTimeout plot slice slot _ => decide (plot < 512) && decide (slice < 16) && decide (slot < 64)
  | .drainComplete => true
  | .pass n => nodeOk n
  | .fadd n _ => nodeOk n
  | .fsub n _ => nodeOk n
  | .fmul n _ => nodeOk n
  | .ffma n _ => nodeOk n
  | .fmin n => nodeOk n
  | .fmax n => nodeOk n
  | .fabs n => nodeOk n
  | .fneg n => nodeOk n
  | .fsq n _ => nodeOk n
  | .fcmplt n => nodeOk n
  | .fcmple n => nodeOk n
  | .fcmpeq n => nodeOk n
  | .iadd n _ => nodeOk n
  | .isub n _ => nodeOk n
  | .imul n _ => nodeOk n
  | .and n => nodeOk n
  | .or n => nodeOk n
  | .xor n => nodeOk n
  | .shl n => nodeOk n
  | .shr n => nodeOk n
  | .sar n => nodeOk n
  | .icmplt n => nodeOk n
  | .icmpeq n => nodeOk n
  | .cvtI32F32 n => nodeOk n
  | .cvtF32I32 n => nodeOk n
  | .cvtDn n => nodeOk n
  | .cvtUp n => nodeOk n
  | .perm n => nodeOk n
  | .bcast n => nodeOk n
  | .laneid n => nodeOk n
  | .byteEq n => nodeOk n
  | .byteRange n => nodeOk n
  | .exp n => nodeOk n
  | .log n => nodeOk n
  | .rcp n => nodeOk n
  | .rsqrt n => nodeOk n
  | .sin n => nodeOk n
  | .cos n => nodeOk n
  | .erf n => nodeOk n
  | .lsum n => nodeOk n
  | .lmax n => nodeOk n
  | .lmin n => nodeOk n
  | .accSum n => nodeOk n
  | .accMax n => nodeOk n
  | .accMin n => nodeOk n
  | .topk n => nodeOk n
  | .switch n => nodeOk n
  | .gate n => nodeOk n
  | .merge n => nodeOk n
  | .select n => nodeOk n
  | .spread n => nodeOk n
  | .lds n => nodeOk n
  | .sts n => nodeOk n
  | .ld n => nodeOk n
  | .st n => nodeOk n
  | .gather n => nodeOk n
  | .scatter n => nodeOk n
  | .publish n => nodeOk n
  | .release n => nodeOk n
  | .qrd n => nodeOk n
  | .qwr n => nodeOk n
  | .paramRd n => nodeOk n
  | .paramWr n => nodeOk n
  | .sectNext n => nodeOk n
  | .sectLoad n => nodeOk n
  | .sectLoadComplete plot => decide (plot < 512)
  | .drainBarrierReached plot => decide (plot < 512)
  | .drainLimitExpiry plot => decide (plot < 512)
  | .starvationFault plot => decide (plot < 512)
  | .staleTokenDrop plot _ => decide (plot < 512)
  | .queueReservation channel => decide (channel < 255)
  | .messageReadable channel _ => decide (channel < 255)
  | .queueStallTimeout channel side _ => decide (channel < 255) && decide (side < 2)
  | .coreSlide field col row _ => decide (field < 8) && decide (col < 34) && decide (row < 32)
  | .plotReplacement plot _ => decide (plot < 512)
  | .fieldFence field _ => decide (field < 8)
  | .fieldTestChunk field col row => decide (field < 8) && decide (col < 34) && decide (row < 32)
  | .chunkEnd field col row => decide (field < 8) && decide (col < 34) && decide (row < 32)
  | .chunkCut field col row => decide (field < 8) && decide (col < 34) && decide (row < 32)
  | .patternRetest field col row _ _ _ => decide (field < 8) && decide (col < 34) && decide (row < 32)
  | .plotGate plot => decide (plot < 512)
  | .plotWakeComplete plot => decide (plot < 512)
  | .governorInterval _ => true
  | .pressureEpisodeEnd => true
  | .thermalThrottleStep field _ => decide (field < 8)
  | .thermalTrip _ _ => true
  | .droopStretch field => decide (field < 8)
  | .droopRelease field => decide (field < 8)
  | .jtagReset => true

end Sys2Proof
end

