-- ==== Sys2Proof/Tests/Slice0.lean ====
section
/-! SUPPORT. Small checks of the model: ill-formed commands that are refused, values that the spec gives, and for every statement with
hypotheses a state and operands that meet them. -/

namespace Sys2Proof.Tests

open Sys2Proof Sys2Proof.Machine

-- The kernel's evaluations run one after another: each needs the whole environment before it.
set_option Elab.async false

/-! ## Well-formed and ill-formed commands -/

def flit0 : Flit := ⟨0, 1, 0, true, true, 4, 1, 0#16, 0#16, 63, 0, [], 0#32⟩
def pkt0 : Pkt := ⟨0x01, 0, false, false, 5, 9, 0x1000, 0, false, 1, 0x0041#16, 0x0040#16, 63, 0, none, []⟩
def ctrl0 : CtrlWord := ⟨0, false, 0xFF#8, 0, 0, 0, 0, 0, false, 0, 0#16⟩
def node0 : NodeRef := ⟨0, 0, 0, 0, 0#16⟩
def ext0 : Ext := ⟨true, true, true, true, false, none, [], []⟩
/-- What training meets on lane `k - 1`, which receive fibre `17 - k` brings (R243): every test passes; fibre 17 is none. -/
def lane0 (k : Nat) : LaneTrain := ⟨⟨17 - k, 0, 0, 0, false, 100⟩, 0, true, 0, 0⟩
def lanes0 : List LaneTrain := (List.range 8).map (fun k => lane0 (k + 1))
def train0 : TrainResult := ⟨lanes0, 0xFF#8, [], 0#8, 7#96, none, false⟩
def scan0 : ScanEnv := ⟨[], [], [], [], [], []⟩
def slide0 : SlideEnv := ⟨true, true, scan0, 100⟩
def replace0 : ReplaceEnv := ⟨[], [], false, scan0, 100⟩
def align0 : AlignBlock := ⟨0#64, 0, 0, 0x0041#16, 5, 7#96, 0xFF#8, 5⟩

/-- R303, R306: a header with its largest fields, and one field past each. -/
theorem test_wf_header :
    (Instr.moduleState ⟨31, 255, 4294967295, 65535, false⟩).wf = true ∧
    ([Instr.moduleState ⟨32, 0, 0, 0, false⟩, .moduleState ⟨0, 256, 0, 0, true⟩, .moduleState ⟨0, 0, 4294967296, 0, false⟩,
      .moduleState ⟨0, 0, 0, 65536, false⟩, .jobStart ⟨32, 0, 0, 0, false⟩, .reqTailDoorbell 32 0#16 [],
      .rspHeadWrite 32 0#16 []].any Instr.wf) = false := by decide +kernel

/-- R7, R112: nodes of the array. -/
theorem test_wf_node :
    (Instr.pass ⟨511, 15, 7, 15, 0#16⟩).wf = true ∧
    ([Instr.pass ⟨512, 0, 0, 0, 0#16⟩, .pass ⟨0, 16, 0, 0, 0#16⟩, .pass ⟨0, 0, 8, 0, 0#16⟩, .pass ⟨0, 0, 0, 16, 0#16⟩].any Instr.wf) = false := by
  decide +kernel

/-- R203, R476: who writes a register, and how many bytes. -/
theorem test_wf_register :
    ([Instr.registerWrite (.host (2 ^ 48 - 1)) [0#8] [], .registerWrite (.bus 127) (List.replicate 4096 0#8) []].all Instr.wf) = true ∧
    ([Instr.registerWrite (.host (2 ^ 48)) [0#8] [], .registerWrite (.bus 128) [0#8] [], .registerWrite (.bus 0) [] [],
      .registerWrite (.bus 0) (List.replicate 4097 0#8) []].any Instr.wf) = false := by decide +kernel

/-- R10, R360, R362, R250: the reserved bytes of a handshake and the reserved bits of a control word. -/
theorem test_wf_reserved :
    ([Instr.sessionOpenHello ⟨0, 0, 0, 144, true⟩ ⟨0, 1, 0#256, 0#776, 2 ^ 96 - 1⟩ ext0,
      .sessionOpenFinish ⟨0, 0, 0, 256, true⟩ ⟨0, 1, 0#776, 0#768, 0#384, [], 2 ^ 88 - 1⟩ ext0, .controlWordReceive 15 { ctrl0 with rsv := 2 ^ 18 - 1 }].all
        Instr.wf) = true ∧
    ([Instr.sessionOpenHello ⟨0, 0, 0, 144, true⟩ ⟨0, 1, 0#256, 0#776, 2 ^ 96⟩ ext0,
      .sessionOpenFinish ⟨0, 0, 0, 256, true⟩ ⟨0, 1, 0#776, 0#768, 0#384, [], 2 ^ 88⟩ ext0, .controlWordReceive 0 { ctrl0 with rsv := 2 ^ 18 }].any
        Instr.wf) = false := by decide +kernel

/-- R247: a flit's fields. -/
theorem test_wf_flit :
    (Instr.flitReceive 15 { flit0 with payload := List.replicate 236 0#8, payLen := 255, seq := 1048575, ftype := 3, cls := 3 }).wf = true ∧
    ([Instr.flitReceive 16 flit0, .flitReceive 0 { flit0 with lane := 8 }, .flitReceive 0 { flit0 with ftype := 4 }, .flitReceive 0 { flit0 with cls := 4 },
      .flitReceive 0 { flit0 with payLen := 256 }, .flitReceive 0 { flit0 with seq := 1048576 }, .flitReceive 0 { flit0 with hops := 64 }, .flitReceive 0 { flit0 with rsv := 2 ^ 56 },
      .flitReceive 0 { flit0 with payload := List.replicate 237 0#8 }].any Instr.wf) = false := by decide +kernel

/-- R274: a packet's fields. -/
theorem test_wf_packet :
    (Instr.packetForward ⟨15, { pkt0 with ptype := 255, window := 4095, reqTag := 65535, address := 2 ^ 48 - 1, cls := 3 }⟩).wf = true ∧
    ([Instr.packetForward ⟨16, pkt0⟩, .packetForward ⟨0, { pkt0 with ptype := 256 }⟩, .packetForward ⟨0, { pkt0 with cls := 4 }⟩,
      .packetForward ⟨0, { pkt0 with window := 4096 }⟩,
      .windowReadReq { pkt0 with reqTag := 65536 }, .readResp { pkt0 with ptype := 4, address := 2 ^ 48 },
      .packetForward ⟨0, { pkt0 with rsv := 2 ^ 21 }⟩, .packetForward ⟨0, { pkt0 with key := some 0#256 }⟩, .windowWriteReq pkt0, .channelMsg pkt0].any Instr.wf) = false := by decide +kernel

/-- R7: ports, lanes, bridges, fields, stacks, plots, slices, slots, runs, channels, cores, members, handshakes, sessions and chains. -/
theorem test_wf_numbers :
    ([Instr.cableMated 15, .laneFailure 15 0xFF#8 .laser, .bridgeReplayFail 9, .fieldFence 7 1, .marginProbe 31 ⟨0, 0, 0, 0, 0, 0⟩, .plotGate 511,
      .runOpen 511 3, .fillIssue 511 15 255 3, .slotWaitTimeout 511 15 63 true, .runClose 7 63, .queueReservation 254, .queueStallTimeout 254 1 9,
      .coreSlide 7 33 31 slide0, .claimAck 63 15 0#16, .packRelayAnswer 63 65535, .handshakeExpiry 65535, .sessionTeardown 64,
      .remoteRequestTimeout 65535].all Instr.wf) = true ∧
    ([Instr.cableMated 16, .laneFailure 16 1#8 .signal, .bridgeReplayFail 10, .fieldFence 8 1, .marginProbe 32 ⟨0, 0, 0, 0, 0, 0⟩, .plotGate 512,
      .runOpen 0 4, .runOpen 512 0, .fillIssue 0 0 256 0, .fillIssue 0 0 0 4, .tileIssue 0 16 0, .slotWaitTimeout 0 0 64 true, .runClose 0 64,
      .runClose 8 0, .queueReservation 255, .queueStallTimeout 0 2 0, .coreSlide 8 0 0 slide0, .coreSlide 0 34 0 slide0, .coreSlide 0 0 32 slide0,
      .claimAck 64 0 0#16, .claimAck 0 16 0#16, .packRelayAnswer 0 65536, .handshakeExpiry 65536, .sessionTeardown 65, .claim 0 0#16 0#16 16,
      .remoteRequestTimeout 65536].any Instr.wf) = false := by decide +kernel

/-- No row of the table gives bits, so no word spells a command. -/
theorem test_no_word_spells_a_command : decodeTableWord 32 0 = none ∧ State.reset.withFetchWord 32 0 = State.reset := by decide +kernel


/-! ## States and requests -/

def pinsOn : Pins := ⟨true, true, true, true, true, true⟩
def keys0 : SessionKeys := ⟨1#256, 2#256, 3#256⟩
def sessions3 : Tab Session :=
  [(1, ⟨0, 1#384, 1, 5, 0, none, false, keys0⟩), (2, ⟨1, 2#384, 1, 0, 0, none, false, keys0⟩), (3, ⟨2, 3#384, 3, 0, 1000000, none, false, keys0⟩)]
/-- A module in a mode, with a session of each role: the owner's 1, a fleet operator's 2, a tenant's 3. -/
def inMode (m : ModState) : State :=
  { State.reset with pins := pinsOn, ctl := { State.reset.ctl with mode := m }, gateh := { Gate.empty with sessions := sessions3 } }
def ready : State := inMode .ready
/-- A request of session `k`, `n` bytes long. -/
def hd (k n : Nat) : Hdr := ⟨if k = 3 then 3 else 1, k, 5, n, true⟩
def plain (n : Nat) : Hdr := ⟨0, 0, 5, n, false⟩

def acceptedB (c : Instr) (s : State) : Bool :=
  match commandRow c s with
  | none => false
  | some (h, row) => decide (judge h row s = .go)

theorem accepted_of {c : Instr} {s : State} (h : acceptedB c s = true) : Accepted c s := by
  unfold acceptedB at h; unfold Accepted; split at h <;> simp_all

theorem allAccepted {l : List Instr} {s : State} (h : l.all (acceptedB · s) = true) : ∀ c ∈ l, Accepted c s :=
  fun c hc => accepted_of (List.all_eq_true.1 h c hc)

/-- A record of `owner.claim`. -/
def claim0 : ClaimRecord := ⟨7#776, 0#768⟩

/-- Requests that a READY module takes. -/
def readyRequests : List Instr :=
  [.moduleIdentify (plain 0), .moduleState (plain 0), .moduleState (hd 3 0), .moduleShutdown (hd 1 16) 2#64, .moduleShutdownTest (hd 2 16) 4#64 1#64,
   .moduleRestart (hd 1 0), .moduleFirmwareInstall (hd 1 16) ⟨0#64, 0#32⟩ ext0, .sessionClose (hd 3 0), .attestReport (plain 48) 0#384,
   .ownerViolationsRead (hd 1 8) 2#64, .ownerSeal (hd 1 0), .jobLoad (hd 3 16) ⟨0#64, 0#32⟩ ext0, .plotStatus (hd 2 0),
   .plotPolicySet (hd 1 8) 1#64, .memoryRegionDefine (hd 3 32) ⟨0#64, 0#64, 0#64, 0#64⟩ ext0, .memoryRegionClear (hd 3 8) 0#64,
   .memoryRegionRelease (hd 3 8) 0#64, .memoryRegionList (hd 3 8) 1023#64, .memoryRegionList (hd 3 8) 1024#64, .memoryRetirePage (hd 2 16) ⟨0#64, []⟩,
   .memoryRetireBank (hd 2 16) ⟨0#64, []⟩, .memoryRepairRequest (hd 2 16) 0#64 2#64, .memoryRepairRequest (hd 2 16) 0#64 1#64,
   .memoryScrubSet (hd 2 16) 0#64 169#64, .memoryStagingMark (hd 1 16) 0#64, .memoryStagingUnmark (hd 1 16) 0#64, .linkStatus (hd 3 0),
   .linkWidthPolicy (hd 1 16) 0x8001#64 1#64, .meshStatus (hd 3 0), .meshTimeRead (hd 3 0),
   .windowOpen (hd 3 64) ⟨0#64, 0#64, 0#64, 0#64⟩ 0#256 ext0, .windowClose (hd 3 8) 0#64, .windowFree (hd 3 8) 0#64, .windowList (hd 3 8) 4095#64,
   .windowList (hd 3 8) 4096#64, .testPackInstall (hd 1 16) ⟨0#64, 0#32⟩ ext0, .testCadenceSet (hd 2 8) 2#64, .testStatus (hd 1 0),
   .healthMargins (hd 1 8) 0x0F00#64, .healthMargins (hd 1 8) 0x0701#64, .healthMargins (hd 1 8) 0x1000#64, .healthMargins (hd 1 8) 0x0801#64,
   .healthMargins (hd 1 8) 2#64, .healthLogRead (hd 1 24) 7#64 4096#64 0#64, .healthLogRead (hd 1 24) 8#64 0#64 1#64,
   .healthEventsRead (hd 3 16) 0#64 128#64, .healthSummaryRead (hd 1 8) 1#64, .healthSummaryRead (hd 1 8) 2#64, .healthWarnings (hd 1 0),
   .otpRead (hd 1 8) 6#64, .otpRead (hd 1 8) 0x17#64, .otpRead (hd 1 8) 7#64, .otpRead (hd 1 8) 0x18#64, .ownerViolationsRead (hd 1 8) 3#64,
   .otpGenerationWrite (hd 1 16) 3#64 1#64 ext0, .otpGenerationWrite (hd 1 16) 7#64 1#64 ext0, .ownerKeyChange (hd 1 16) 0#64 ext0,
   .powerLimitSet (hd 1 8) 0#64, .powerClockSet (hd 2 16) 3#64 2#64, .powerStatus (hd 3 0), .debugCountersRead (hd 2 8) 0x0F07#64,
   .debugCountersRead (hd 2 8) 0x1007#64, .debugUnlock (hd 1 120) ⟨0#96, 0, 0, 0#32⟩ ext0, .debugUartEnable (hd 1 8) 1#64,
   .debugUartEnable (hd 1 8) 2#64, .ownerClaim (plain 200) claim0 ext0]

theorem ready_requests_accepted : ∀ c ∈ readyRequests, Accepted c ready := allAccepted (by decide +kernel)


/-! ## Hypotheses that are met: queue, requests, mailboxes -/

/-- A plot that is being re-placed, with a stall of its slice 0 that began at time 0. -/
def frozenStall : State := { State.reset with plots := [(0, { Plot.empty with
  sleep := 3
  slices := [(0, { Slice.empty with stalls := [⟨1, 0, true, 0, 0#64, 0⟩] })] })] }

/-- IdleTickCountsLocalTime: the auxiliary rail on and off; a frozen timer, whose count stands still over the tick; a test with two pairs to come, and none. -/
theorem wit_idle_tick : State.reset.pending = [] ∧ State.reset.pins.auxOn = true ∧ timersFrozen State.reset 0 = false ∧
    timersFrozen frozenStall 0 = true ∧ (sliceOf (tick frozenStall) 0 0).stalls = [⟨1, 0, true, 0, 0#64, 1⟩] ∧
    (State.reset.ctl.localTime - 0#64).toNat + 1 < 2 ^ 64 ∧
    (withoutRail State.reset).pending = [] ∧
    (withoutRail State.reset).pins.auxOn = false ∧ State.reset.ctl.mode ≠ .testing ∧ (inMode .testing).test.pairs.length < 2 ∧
    ({ inMode .testing with test := ⟨false, false, [], 2, false, 0#64, [(0, 7), (1, 6)], 0#64⟩ } : State).test.pairs = (0, 7) :: (1, 6) :: [] ∧
    (inMode .testing).ctl.mode = .testing := by (repeat' apply And.intro) <;> decide +kernel

/-- StepKeepsMemoriesAndTables: a state that meets the invariant, with a command in the queue, and its next state. -/
theorem wit_memories : (MemoriesCanonical ready ∧ TablesOrdered ready) ∧
    ∃ t, step { ready with pending := [.registerWrite (.host 0x700000000000) [1#8] []] } = .next t ∧ t.mbx.regs = [(0, 1#8)] ∧ t.pending = [] := by
  unfold MemoriesCanonical TablesOrdered
  refine ⟨by decide +kernel, _, rfl, ?_⟩
  decide +kernel

/-- What the tests of R310 say of a request: mailbox served, authentic, length, principal, state. -/
def judged (c : Instr) (s : State) : Option (List Bool) :=
  (commandRow c s).map (fun e => [servedMailbox e.1.mailbox s, authentic e.1 s,
    decide (e.1.len ≤ maxPayload s ∧ e.1.len = e.2.size), authorised e.1 e.2 s, decide (s.ctl.mode ∈ e.2.legal)])

/-- UnexecutedRequest: a bad tag, a `SEQ` below the least, a closed session, a mailbox that LODGE does not serve; one byte too many, a principal
that may not, a state that is not legal. -/
theorem wit_unexecuted :
    judged (.jobStart ⟨3, 3, 5, 0, false⟩) ready = some [true, false, true, true, false] ∧
    judged (.ownerSeal ⟨1, 1, 4, 0, true⟩) ready = some [true, false, true, true, true] ∧
    judged (.plotStatus ⟨4, 4, 4, 0, true⟩) ready = some [true, false, true, false, true] ∧
    judged (.moduleState (hd 1 0)) State.reset = some [false, false, true, false, true] ∧
    judged (.jobStatus (hd 3 9) 0#64) ready = some [true, true, false, true, false] ∧
    judged (.ownerSeal (hd 3 0)) ready = some [true, true, true, false, true] ∧
    judged (.jobStart (hd 3 0)) ready = some [true, true, true, true, false] := by (repeat' apply And.intro) <;> decide +kernel

def withBox (b : Mailbox) : State := { ready with mbx := ⟨[(0, b)], []⟩ }

/-- ResponseRecord: a record that fits up to the end exactly, one that goes to entry 0 behind a pad, one that finds no room, one behind others. -/
theorem wit_response_record :
    (let b := boxOf (withBox { Mailbox.empty with rspTail := 1019, rspHead := 1 }) 0
     b.delayed = [] ∧ 1 ≤ 1020 - b.rspTail ∧ 1 ≤ b.rspFree) ∧
    (let b := boxOf (withBox { Mailbox.empty with rspTail := 1019, rspHead := 3 }) 0
     b.delayed = [] ∧ 1020 - b.rspTail < 2 ∧ 2 + (1020 - b.rspTail) ≤ b.rspFree ∧ b.rspFree = 3) ∧
    (boxOf (withBox { Mailbox.empty with rspTail := 1019, rspHead := 0 }) 0).rspFree < 1 ∧
    (boxOf (withBox { Mailbox.empty with delayed := [Rsp.padRecord] }) 0).delayed ≠ [] := by (repeat' apply And.intro) <;> decide +kernel

/-- A ring that holds `module.state` in its last entry. -/
def boxed : State := withBox { Mailbox.empty with reqHead := 1019, ring := [(32 * 1019, 1#8), (32 * 1019 + 1, 1#8)] }

/-- The same with a record of session `k` there. -/
def boxedBy (k : Nat) : State := withBox { Mailbox.empty with reqHead := 1019, ring := [(32 * 1019, 1#8), (32 * 1019 + 1, 1#8), (32 * 1019 + 8, BitVec.ofNat 8 k)] }

/-- MailboxPointers: a request in the clear, one of a session that is open and one of a session that is not. -/
theorem wit_open_request :
    ((boxOf boxed 0).headAt 1019).session = 0 ∧
    ((boxOf (boxedBy 3) 0).headAt 1019).session = 3 ∧ (Tab.find (boxedBy 3).gateh.sessions 3).isSome = true ∧
    ((boxOf (boxedBy 9) 0).headAt 1019).session = 9 ∧ Tab.find (boxedBy 9).gateh.sessions 9 = none := by (repeat' apply And.intro) <;> decide +kernel

/-- MailboxPointers: the last entry rung, a doorbell with nothing new, one with a response that waits, a mailbox that is not served, tails and
heads at the bounds, with and without a delayed response. -/
theorem wit_mailbox_pointers :
    (let s1 := updBox 0 Mailbox.skipPad (updBox 0 (fun b => { b with reqTail := 0 }) boxed)
     takeHost boxed = boxed ∧ servedMailbox 0 boxed = true ∧ (boxOf s1 0).delayed = [] ∧ (boxOf s1 0).ready = true ∧
     ((boxOf s1 0).headAt 1019).code = 0x0101) ∧
    (let s1 := updBox 0 Mailbox.skipPad (updBox 0 (fun b => { b with reqTail := 1019 }) boxed)
     (boxOf s1 0).ready = false) ∧
    servedMailbox 1 State.reset = false ∧ servedMailbox 31 ready = true ∧ (0x03FC#16).toNat = 1020 ∧
    (let b := boxOf (withBox { Mailbox.empty with rspTail := 1019, rspHead := 3, delayed := [Rsp.padRecord] }) 0
     (1019 + 1020 - b.rspHead) % 1020 ≤ (b.rspTail + 1020 - b.rspHead) % 1020 ∧ b.delayed ≠ []) ∧
    (let b := boxOf (withBox { Mailbox.empty with rspTail := 2, rspHead := 1019 }) 0
     (0 + 1020 - b.rspHead) % 1020 ≤ (b.rspTail + 1020 - b.rspHead) % 1020 ∧ b.delayed = []) := by
  (repeat' apply And.intro) <;> decide +kernel

/-- RequestCodeSelectsCommand: payloads that select the steps, the kinds and the settings; codes that R323 does not list. -/
theorem wit_request_codes :
    numAt [1#8] 0 1 = 1 ∧ numAt [2#8] 0 1 = 2 ∧ numAt (List.replicate 8 0#8 ++ [0#8]) 8 1 = 0 ∧ numAt (List.replicate 8 0#8 ++ [1#8]) 8 1 = 1 ∧
    (∀ code ∈ [0, 0x00FF, 0x0106, 0x0207, 0x0305, 0x0405, 0x0508, 0x0602, 0x0707, 0x0803, 0x0905, 0x0A02, 0x0B03, 0x0C04, 0xFFFF],
      commandRow (.moduleState (plain 0)) ready ≠ none ∧ code ∉ [0x0100, 0x0101, 0x0105, 0x0206, 0x0304, 0x0404, 0x0507, 0x0601, 0x0706, 0x0802,
        0x0904, 0x0A01, 0x0B02, 0x0C03]) ∧
    servedMailbox 0 ready = true ∧ authentic (plain 0) ready = true := by (repeat' apply And.intro) <;> decide +kernel

/-! ## The module as a whole -/

def unpowered (s : State) : State := { s with pins := { s.pins with powerGood := false } }
def inReset (s : State) : State := { s with pins := { s.pins with resetN := false } }
def autoWake (s : State) : State := burn 6 1 true s

/-- WakeShutdownRestart: the requests are taken; a wake with POWER_GOOD and without; levels 0 and 4. -/
theorem wit_wake_shutdown_restart :
    acceptedB (.moduleWake (plain 0)) (inMode .lodge) = true ∧ powered (inMode .lodge) = true ∧
    acceptedB (.moduleWake (plain 0)) (unpowered (inMode .lodge)) = true ∧ powered (unpowered (inMode .lodge)) = false ∧
    acceptedB (.moduleState (plain 0)) (inMode .lodge) = true ∧
    acceptedB (.moduleShutdown (hd 1 16) 2#64) ready = true ∧ acceptedB (.moduleShutdownTest (hd 1 16) 4#64 0#64) ready = true ∧
    acceptedB (.moduleShutdownTest (hd 1 16) 0#64 1#64) ready = true ∧ acceptedB (.moduleRestart (hd 2 0)) (inMode .loaded) = true := by
  (repeat' apply And.intro) <;> decide +kernel

/-- EntryToBootAndLodge, SealUnsealAndUnlock: a module in service, its tables in order. -/
theorem wit_entries : ready.ctl.mode ≠ .lodge ∧ ready.ctl.mode ≠ .sealed ∧ TablesOrdered ready ∧ acceptedB (.ownerSeal (hd 1 0)) ready = true := by
  unfold TablesOrdered; (repeat' apply And.intro) <;> decide +kernel

/-- PinsRailAndJtag: every case of the rise of POWER_GOOD and the release of RESET, both levels of the rail, JTAG locked and unlocked. -/
theorem wit_pins_rail_jtag :
    (let s := unpowered { inMode .lodge with ctl := { (inMode .lodge).ctl with wakeKept := true } }
     s.pins.powerGood = false ∧ powered { s with pins := { s.pins with powerGood := true } } = true ∧ s.ctl.mode = .lodge ∧ s.ctl.wakeKept = true) ∧
    (let s := unpowered (autoWake (inMode .lodge))
     s.pins.powerGood = false ∧ powered { s with pins := { s.pins with powerGood := true } } = true ∧ s.ctl.wakeKept = false ∧ otpValue s 6 = 1) ∧
    (let s := unpowered (inMode .lodge); s.pins.powerGood = false ∧ s.ctl.wakeKept = false ∧ otpValue s 6 ≠ 1) ∧
    (let s := unpowered (inReset (inMode .lodge))
     s.pins.powerGood = false ∧ powered { s with pins := { s.pins with powerGood := true } } = false) ∧
    ready.pins.powerGood = true ∧ ready.pins.resetN = true ∧
    (let s := inReset { inMode .lodge with ctl := { (inMode .lodge).ctl with wakeKept := true } }
     s.pins.resetN = false ∧ powered { s with pins := { s.pins with resetN := true } } = true ∧ s.ctl.mode = .lodge ∧ s.ctl.wakeKept = true) ∧
    (let s := inReset (autoWake (inMode .lodge))
     s.pins.resetN = false ∧ powered { s with pins := { s.pins with resetN := true } } = true ∧ s.ctl.wakeKept = false ∧ otpValue s 6 = 1) ∧
    (let s := inReset (inMode .lodge); s.pins.resetN = false ∧ s.ctl.wakeKept = false ∧ otpValue s 6 ≠ 1) ∧
    (withoutRail ready).pins.auxOn = false ∧ ready.pins.auxOn = true ∧ ready.gateh.jtagOpen = false ∧ (0x02#8 : Byte) ≠ 0x01#8 := by
  (repeat' apply And.intro) <;> decide +kernel

def boot0 : BootEnv := ⟨[], [], false, [], [], [], [], [], [], [], [], true, []⟩

/-- R399: a record that fails in one copy is taken from the other; one that fails in both is absent. -/
theorem test_record_copies : absentKinds { boot0 with badA := [1, 3], badB := [2, 3] } = [3] := by decide
def test0 : TestEnv := ⟨[], [], [], [], [], true⟩
def booting : State := inMode .boot
def training : State := { inMode .train with mesh := { Mesh.empty with settled := true, addressingDone := true } }

/-- StartSequenceAndTest: a bootable slot with a good and a damaged area, no bootable slot; TRAIN with all settled and not; TESTING. -/
theorem wit_start_sequence :
    booting.ctl.mode = .boot ∧ booting.ctl.bootFromLodge = false ∧ (selectFirmware booting []).isSome = true ∧
    selectFirmware booting [0] = none ∧ training.ctl.mode = .train ∧ portsSettled training = true ∧ training.mesh.settled = true ∧
    training.mesh.addressingDone = true ∧ ready.ctl.mode ≠ .train ∧ portsSettled { inMode .train with links := [(0, { Port.empty with pstate := 3 })] } = false ∧
    (inMode .testing).ctl.mode = .testing ∧ 2 ≤ ({ inMode .testing with test := ⟨false, false, [], 2, false, 0#64, [(0, 7)], 0#64⟩ } : State).test.level := by
  (repeat' apply And.intro) <;> decide +kernel


/-! ## Sessions, ownership, images -/

/-- A claimed module: an owner key hash of 1. -/
def claimed (s : State) : State := burn 1 1 true s
/-- A module claimed under a hash, whatever that is. -/
def claimedBy (k : Digest) (s : State) : State := burn 1 k.toNat true s
theorem ownerHash_claimedBy (k : Digest) (s : State) (h : otpSlots s 1 = []) : ownerHash (claimedBy k s) = some k := by
  have e : otpSlots (claimedBy k s) 1 = [⟨k.toNat, otpTail 1 k.toNat⟩] := by
    unfold otpSlots at h
    simp [claimedBy, otpSlots, burn, Tab.upd, h]
  simp [ownerHash, otpForce, e, lastValid, OtpSlot.valid]
theorem not_next (k : Digest) : k + 1#384 ≠ k := by bv_omega

/-- Bytes placed in HBM where the addresses of a region put them. -/
def placeBytes (f : Nat → Nat) (g : Nat → Byte) (n : Nat) (m : Mem) : Mem := match n with
  | 0 => m
  | n + 1 => Mem.set (placeBytes f g n m) (f n) (g n)
theorem placeBytes_wf (f : Nat → Nat) (g : Nat → Byte) (n : Nat) {m : Mem} (h : Mem.wf m = true) : Mem.wf (placeBytes f g n m) = true := by
  induction n with
  | zero => exact h
  | succ n ih => exact Mem.wf_set _ _ ih
theorem placeBytes_get (f : Nat → Nat) (g : Nat → Byte) {m : Mem} (h : Mem.wf m = true) : ∀ n, (∀ i j, i < n → j < n → f i = f j → i = j) →
    ∀ i, i < n → Mem.get (placeBytes f g n m) (f i) = g i := by
  intro n
  induction n with
  | zero => intro _ i hi; omega
  | succ n ih =>
    intro inj i hi
    by_cases e : i = n
    · subst e; exact Mem.get_set_same _ _ none (placeBytes_wf f g i h)
    · rw [placeBytes, Mem.get_set_ne _ _ _ (fun q => e (inj i n hi (by omega) q))]
      exact ih (fun a b ha hb => inj a b (by omega) (by omega)) i (by omega)

def hello0 : Hello := ⟨0, 1, 0#256, 0#776, 0⟩
def shake0 : Handshake := ⟨0, 1, 0#64, 0#384, ⟨[], [], keys0⟩⟩
def shaken (n : Nat) (s : State) : State :=
  { s with gateh := { s.gateh with handshakes := (List.range n).map (fun i => (i + 1, shake0)) } }
def crowded (n : Nat) (s : State) : State :=
  { s with gateh := { s.gateh with sessions := (List.range n).map (fun i => (i + 1, ⟨0, 1#384, 1, 5, 0, none, false, keys0⟩)) } }
def closing3 (m : ModState) (loaded : Bool) : State :=
  { inMode m with
    gateh := { Gate.empty with sessions := [(3, ⟨2, 3#384, 3, 0, 0, none, true, keys0⟩)] }
    job := { Job.empty with loaded := loaded, session := 3, principal := 3#384 } }

/-- FINISH of the owner for a handshake, with a confirmation. -/
def finish0 (n : Nat) (c : Digest) : Finish := ⟨0, n, 0#776, 0#768, c, [], 0⟩
/-- `CONFIRM_H` as K_CH gives it, and another value. -/
theorem wit_confirm : (finish0 1 (confirmH shake0 (finish0 1 0#384))).confirm = confirmH shake0 (finish0 1 (confirmH shake0 (finish0 1 0#384))) ∧
    (finish0 1 (confirmH shake0 (finish0 1 0#384) + 1#384)).confirm ≠ confirmH shake0 (finish0 1 (confirmH shake0 (finish0 1 0#384) + 1#384)) := by
  refine ⟨rfl, fun h => ?_⟩
  have h2 : confirmH shake0 (finish0 1 0#384) + 1#384 = confirmH shake0 (finish0 1 0#384) := h
  generalize confirmH shake0 (finish0 1 0#384) = c at h2
  bv_omega

/-- Handshake 1 pending on a module whose owner key is that of `finish0`, and on one whose owner key it is not. -/
def finishKey : Digest := principalOf 0#776
def shakenFor (k : Digest) : State := shaken 1 (claimedBy k ready)
/-- The local time 10 s after the birth of `shake0`. -/
def after10 (s : State) : State := mapCtl (fun c => { c with localTime := 250000000#64 }) s

/-- SessionLife: HELLO with room, eight handshakes, sixty-four sessions, eight handshakes of which none is pending any longer; FINISH of a pending handshake and of
none; a close; a teardown that drains, waits, and ends; a handshake 10 s old and one a tick younger. -/
theorem wit_session_life :
    acceptedB (.sessionOpenHello (plain 144) hello0 ext0) (shaken 7 (claimed ready)) = true ∧
    (expireHandshakes (accept (plain 144) (shaken 7 (claimed ready)))).gateh.handshakes.length < 8 ∧
    (crowded 63 ready).gateh.sessions.length < 64 ∧ acceptedB (.sessionOpenHello (plain 144) hello0 ext0) (crowded 63 (claimed ready)) = true ∧
    acceptedB (.sessionOpenHello (plain 144) hello0 ext0) (shaken 8 (claimed ready)) = true ∧
    8 ≤ (expireHandshakes (accept (plain 144) (shaken 8 (claimed ready)))).gateh.handshakes.length ∧
    (expireHandshakes (after10 (shaken 8 (claimed ready)))).gateh.handshakes = [] ∧
    acceptedB (.sessionOpenHello (plain 144) hello0 ext0) (crowded 64 (claimed ready)) = true ∧ 64 ≤ (crowded 64 ready).gateh.sessions.length ∧
    acceptedB (.sessionOpenFinish (plain 256) (finish0 1 0#384) ext0) (shaken 1 (claimed ready)) = true ∧
    acceptedB (.sessionOpenFinish (plain 256) (finish0 2 0#384) ext0) (shaken 1 (claimed ready)) = true ∧
    Tab.find (expireHandshakes (shaken 1 (claimed ready))).gateh.handshakes 2 = none ∧
    Tab.find (expireHandshakes (after10 (shaken 1 (claimed ready)))).gateh.handshakes 1 = none ∧
    Tab.find (shaken 1 ready).gateh.handshakes 1 = some shake0 ∧ 10 * 25000000 ≤ ((after10 (shaken 1 ready)).ctl.localTime - shake0.born).toNat ∧
    ((mapCtl (fun c => { c with localTime := 249999999#64 }) ready).ctl.localTime - shake0.born).toNat < 10 * 25000000 ∧
    acceptedB (.sessionClose (hd 3 0)) ready = true ∧ (Tab.find (accept (hd 3 0) ready).gateh.sessions 3).isSome = true ∧
    (∀ m ∈ [ModState.running, .draining, .loaded], (closing3 m true).job.loaded = true ∧ (closing3 m true).job.session = 3 ∧
      (closing3 m true).ctl.mode = m ∧ (Tab.find (closing3 m true).gateh.sessions 3).any (·.closing) = true) ∧
    (closing3 .running false).job.loaded = false := by (repeat' apply And.intro) <;> decide +kernel

/-- SessionLife, where the owner key counts: the proof of the role holds under the key that the request carries and fails under another; a free session number and none.
The tests of R310 do not read the key. -/
theorem wit_finish :
    (let a := dropHandshake 1 (accept (plain 256) (shakenFor finishKey))
     proofOk a shake0 (finish0 1 0#384) ext0 = true ∧ Tab.lowestFree a.gateh.sessions 1 64 = some 4) ∧
    proofOk (dropHandshake 1 (accept (plain 256) (shakenFor (finishKey + 1#384)))) shake0 (finish0 1 0#384) ext0 = false ∧
    (∀ k c, Accepted (.sessionOpenFinish (plain 256) (finish0 1 c) ext0) (shakenFor k) ∧
      Tab.find (expireHandshakes (shakenFor k)).gateh.handshakes 1 = some shake0) ∧
    Tab.lowestFree (dropHandshake 1 (accept (plain 256) (crowded 64 (shakenFor finishKey)))).gateh.sessions 1 64 = none := by
  have o : ∀ k, ownerHash (dropHandshake 1 (accept (plain 256) (shakenFor k))) = some k := fun k =>
    (show ownerHash (dropHandshake 1 (accept (plain 256) (shakenFor k))) = ownerHash (claimedBy k ready) from rfl).trans
      (ownerHash_claimedBy k ready (by decide +kernel))
  refine ⟨⟨?_, by decide +kernel⟩, ?_, fun k c => ⟨?_, show Tab.find (expireHandshakes (shaken 1 ready)).gateh.handshakes 1 = some shake0 by decide +kernel⟩, by decide +kernel⟩
  · simp [proofOk, o, finish0, shake0, finishKey]
  · have h := not_next finishKey
    simp only [proofOk, o]
    simp [finish0, shake0]
    intro e
    exact h e
  · have p : Tab.find (expireHandshakes (shakenFor k)).gateh.handshakes 1 = some shake0 :=
      show Tab.find (expireHandshakes (shaken 1 ready)).gateh.handshakes 1 = some shake0 by decide +kernel
    have r : roleOpen (shakenFor k) 0 = true := by
      have e : ownerHash (shakenFor k) = some k := ownerHash_claimedBy k ready (by decide +kernel)
      simp [roleOpen, owned, e]
    have row : commandRow (.sessionOpenFinish (plain 256) (finish0 1 c) ext0) (shakenFor k) =
        some (plain 256, ⟨0x0200, 256, true, [], .sealed :: served, true⟩) := by
      simp [commandRow, pendingHandshake, finish0, p, shake0, r]
    simp only [Accepted, row]
    rfl

def region0 : Region := ⟨0, 120, 0, 0, 0, 0, false, 7, 5, 0, 0#8, 0, 3#384, 3, true⟩
def withRegions (l : Tab Region) (s : State) : State :=
  { s with hbm := { s.hbm with regions := l }, gateh := { s.gateh with keySlots := l.map (fun e => (e.2.keySlot, ⟨e.2.owner, 0#512⟩)) } }
def ownersRegion : State := withRegions [(7, { region0 with owner := 1#384 })] (claimed ready)
def fullSetting (k : Nat) (s : State) : State := burn k 0 false (burn k 0 false (burn k 0 false (burn k 0 false s)))

/-- OtpBurns: a claim of an unclaimed module with room, of a claimed one, of one with all four generations spent, a failed read-back on the last but one generation
and on the last; every range of the settings at its bounds; a change of owner key in a staging region up to its last byte and one byte past it. -/
theorem wit_otp_burns :
    acceptedB (.ownerClaim (plain 200) claim0 ext0) ready = true ∧ ownerHash ready = none ∧ (otpSlots ready 1).length < 3 ∧
    acceptedB (.ownerClaim (plain 200) claim0 ext0) (claimed ready) = true ∧ (ownerHash (claimed ready)).isSome = true ∧
    acceptedB (.ownerClaim (plain 200) claim0 ext0) (fullSetting 1 ready) = true ∧ 4 ≤ (otpSlots (fullSetting 1 ready) 1).length ∧
    (let s := burn 1 0 false (burn 1 0 false (burn 1 0 false ready))
     acceptedB (.ownerClaim (plain 200) claim0 ext0) s = true ∧ (otpSlots s 1).length = 3 ∧ ownerHash s = none) ∧
    (otpSlots (burn 1 0 false (burn 1 0 false ready)) 1).length < 3 ∧ ownerHash (burn 1 0 false (burn 1 0 false ready)) = none ∧
    ([0#64, 2#64, 6#64, 7#64].all (fun k => acceptedB (.otpGenerationWrite (hd 1 16) k 1#64 ext0) ready && k.toNat != 1)) = true ∧
    settingOk ready 6 2 = false ∧ settingOk ready 5 1499 = false ∧ settingOk ready 5 1500 = true ∧ otpValue ready 5 ≠ 1500 ∧
    settingOk ready 5 5000 = true ∧ otpValue ready 5 = 5000 ∧ settingOk ready 5 5001 = false ∧ settingOk ready 2 1 = false ∧
    settingOk (fullSetting 6 ready) 6 1 = true ∧ otpValue (fullSetting 6 ready) 6 ≠ 1 ∧ 4 ≤ (otpSlots (fullSetting 6 ready) 6).length ∧
    (otpSlots ready 6).length < 3 ∧ otpValue ready 6 ≠ 1 ∧ settingOk ready 6 1 = true ∧
    (let s := burn 6 0 false (burn 6 0 false ready)
     (otpSlots s 6).length = 3 ∧ otpValue s 6 ≠ 1 ∧ settingOk s 6 1 = true) ∧
    acceptedB (.ownerKeyChange (hd 1 16) 0#64 ext0) ownersRegion = true ∧ claimAddrOk (hd 1 16) 0 (accept (hd 1 16) ownersRegion) = true ∧
    claimAddrOk (hd 1 16) (120 * 65536 - 200) (accept (hd 1 16) ownersRegion) = true ∧
    claimAddrOk (hd 1 16) (120 * 65536 - 199) (accept (hd 1 16) ownersRegion) = false := by
  (repeat' apply And.intro) <;> decide +kernel

/-- The owner's staging region under an owner key hash, with `n` generations of it spent before; and the hash of the record at its first byte. -/
def ownedRegion (k : Digest) (n : Nat) : State := claimedBy k (forEach (List.range n) (fun _ => burn 1 0 false) staged0)
where staged0 : State := withRegions [(7, { region0 with owner := 1#384 })] ready
def recordKey : Digest := Config.sha384 (le 97 (numAt (bulkBytes ownedRegion.staged0 0 200) 0 97 % 2 ^ 776))

/-- OtpBurns: a change to the key in force, and to another key with room, with one generation left, with none. -/
theorem wit_owner_key_change :
    (∀ k, Config.sha384 (le 97 (numAt (bulkBytes (ownedRegion k 0) (0#64 : U64).toNat 200) 0 97 % 2 ^ 776)) = recordKey ∧
      Accepted (.ownerKeyChange (hd 1 16) 0#64 ext0) (ownedRegion k 0) ∧ claimAddrOk (hd 1 16) 0 (accept (hd 1 16) (ownedRegion k 0)) = true ∧
      (otpSlots (ownedRegion k 0) 1).length < 3 ∧ (otpSlots (ownedRegion k 2) 1).length = 3 ∧ 4 ≤ (otpSlots (ownedRegion k 3) 1).length) ∧
    ownerHash (ownedRegion recordKey 0) = some recordKey ∧ ownerHash (ownedRegion (recordKey + 1#384) 0) ≠ some recordKey ∧
    (∀ n ∈ [2, 3], ownerHash (ownedRegion (recordKey + 1#384) n) ≠ some recordKey) := by
  have o : ∀ k, ownerHash (ownedRegion k 0) = some k := fun k => ownerHash_claimedBy k _ (by decide +kernel)
  have spent : ∀ k, ∀ n ∈ [2, 3], ownerHash (ownedRegion k n) = some k := by
    intro k n hn
    have e : otpSlots (ownedRegion k n) 1 = otpSlots (forEach (List.range n) (fun _ => burn 1 0 false) ownedRegion.staged0) 1 ++ [⟨k.toNat, otpTail 1 k.toNat⟩] := by
      simp only [List.mem_cons, List.not_mem_nil, or_false] at hn
      rcases hn with rfl | rfl <;> rfl
    have w : ∀ (l : List OtpSlot) g, ∃ i, lastValid 1 g (l ++ [⟨k.toNat, otpTail 1 k.toNat⟩]) = some (i, k.toNat) := by
      intro l
      induction l with
      | nil => intro g; exact ⟨g, by simp [lastValid, OtpSlot.valid]⟩
      | cons a r ih => intro g; obtain ⟨i, hi⟩ := ih (g + 1); exact ⟨i, by simp [lastValid, hi]⟩
    obtain ⟨i, hi⟩ := w (otpSlots (forEach (List.range n) (fun _ => burn 1 0 false) ownedRegion.staged0) 1) 0
    simp [ownerHash, otpForce, e, hi]
  have ne : ∀ n, ownerHash (ownedRegion (recordKey + 1#384) n) = some (recordKey + 1#384) → ownerHash (ownedRegion (recordKey + 1#384) n) ≠ some recordKey := by
    intro n h e
    rw [h] at e
    exact not_next recordKey (Option.some.inj e)
  have same : ∀ k, bulkBytes (ownedRegion k 0) (0#64 : U64).toNat 200 = bulkBytes ownedRegion.staged0 0 200 := fun k => by
    simp only [bulkBytes, show (ownedRegion k 0).hbm = ownedRegion.staged0.hbm from rfl]
    rfl
  refine ⟨fun k => ⟨by rw [same k]; rfl, ?_, ?_, ?_, ?_, ?_⟩, o _, ne 0 (o _), fun n hn => ne n (spent _ n hn)⟩
  · simp only [Accepted, commandRow]; rfl
  · have c : claimAddrOk (hd 1 16) 0 (accept (hd 1 16) (ownedRegion k 0)) = claimAddrOk (hd 1 16) 0 (accept (hd 1 16) ownedRegion.staged0) := rfl
    rw [c]; decide +kernel
  · show (1 : Nat) < 3; decide
  · rfl
  · show 4 ≤ 4; decide

/-- No serial of a module is zero: its characters are graphic. -/
theorem serial_ne_zero : Config.serial ≠ 0#96 := by
  intro h
  have h1 := congrArg BitVec.toNat h
  simp only [Config.serial, BitVec.toNat_ofNat] at h1
  have h2 : Config.serialText 12 = 0x21 + (Config.serialChar 11).val + 256 * Config.serialText 11 := rfl
  have h3 := (Config.serialChar 11).isLt
  rw [h2] at h1
  omega

/-- SealUnsealAndUnlock: a record of this serial, with the count and epoch kept, one count off, one epoch below, no serial; an unlock token with the
largest scope; the UART at its bounds. -/
theorem wit_unseal_and_unlock :
    (let t : Token := ⟨Config.serial, 0, 0, 1#32⟩
     t.serial ≠ 0#96 ∧ t.serial = Config.serial ∧ t.count = (inMode .sealed).flash.sealCount ∧ (inMode .sealed).flash.ticketEpoch ≤ t.value ∧
     t.count = ready.flash.unlockCount) ∧
    acceptedB (.ownerUnseal (hd 1 120) ⟨0#96, 1, 0, 1#32⟩ ext0) (inMode .sealed) = true ∧
    (let s := mapFlash (fun f => { f with ticketEpoch := 1 }) (inMode .sealed); 0 < s.flash.ticketEpoch ∧ s.flash.sealCount = 0) ∧
    (1 : Nat) ≠ (inMode .sealed).flash.sealCount ∧ TablesOrdered ready ∧
    acceptedB (.debugUnlock (hd 1 120) ⟨0#96, 0, 0, 1#32⟩ ext0) ready = true ∧ (1 : Nat) ≠ ready.flash.unlockCount ∧
    acceptedB (.debugUartEnable (hd 1 8) 1#64) ready = true ∧ (1#64).toNat ≤ 1 ∧ acceptedB (.debugUartEnable (hd 1 8) 2#64) ready = true := by
  refine ⟨⟨serial_ne_zero, rfl, by decide +kernel⟩, ?_⟩
  unfold TablesOrdered
  (repeat' apply And.intro) <;> decide +kernel

/-- The words that a token carries do not matter to the tests of R310: a token of this serial is judged as any other. -/
theorem wit_token_accepted : Accepted (.ownerUnseal (hd 1 120) ⟨Config.serial, 0, 0, 1#32⟩ ext0) (inMode .sealed) ∧
    Accepted (.debugUnlock (hd 1 120) ⟨Config.serial, 0, 0, 1#32⟩ ext0) ready :=
  ⟨accepted_of (by decide +kernel), accepted_of (by decide +kernel)⟩

def staged : State := withRegions [(7, { region0 with owner := 1#384 })] ready
def view0 : FwView := ⟨1, 1, true, false, none⟩
/-- The bytes of a pack of no pattern (R443): header with a version, a format and flags, the digest of what follows the header, an empty directory, a signature. -/
def packBytes (version format retracts : Nat) : List Byte :=
  lay [(4, 0x4B434150), (2, format), (2, 0), (4, version), (4, if retracts = 0 then 0 else 1), (2, 0x00B0), (2, 0), (4, retracts), (4, 0), (4, 0)] ++
    le 48 (Config.sha384 []).toNat ++ List.replicate 48 0#8 ++ List.replicate 96 0#8
def pack1 (sigOk : Bool) : Pack := packAt (packBytes 1 1 0) sigOk
def member5 (s : State) : State := { s with mesh := { s.mesh with addr := some 0x0045#16 } }
def rooted (s : State) : State := { s with mesh := { s.mesh with addr := some 0x0040#16, root := true } }
def relayed (first : U64) (s : State) : State := { s with test := { s.test with relays := [(5, ⟨0, 0, 1, first⟩)] } }


theorem leNat_le (n v : Nat) : leNat (le n v) = v % 256 ^ n := by
  induction n generalizing v with
  | zero => simp [le, leNat, Nat.mod_one]
  | succ n ih =>
    simp only [le, leNat, ih, BitVec.toNat_ofNat]
    have h : v % 256 ^ (n + 1) = v % 256 + 256 * (v / 256 % 256 ^ n) := by rw [Nat.pow_succ, Nat.mul_comm, Nat.mod_mul]
    rw [h]

/-- A staging region of the owner with bytes at its start. -/
def withData (m : Mem) (s : State) : State := mapHbm (fun h => { h with data := m }) s
def holding (bs : List Byte) (r : Region) (s : State) : State := withData (placeBytes r.phys (fun i => bs.getD i 0#8) bs.length []) s

theorem phys0 (i : Nat) (h : i < 20000) : region0.phys i = i / 4096 % 4 * 2 ^ 36 + i / 4096 / 4 * 2 ^ 31 + i % 4096 := by
  simp only [Region.phys, region0, physAddr]
  have : i / 4096 = 0 ∨ i / 4096 = 1 ∨ i / 4096 = 2 ∨ i / 4096 = 3 ∨ i / 4096 = 4 := by omega
  omega

theorem bulk_holding {bs : List Byte} {r : Region} {s : State} {id : Nat} (h : bs.length ≤ 20000) (hr : regionAt s.hbm.regions 0 = some (id, r))
    (hp : ∀ i, r.phys i = region0.phys i) : bulkBytes (holding bs r s) 0 bs.length = bs := by
  have e : (holding bs r s).hbm.regions = s.hbm.regions := rfl
  have d : (holding bs r s).hbm.data = placeBytes r.phys (fun i => bs.getD i 0#8) bs.length [] := rfl
  have inj : ∀ i j, i < bs.length → j < bs.length → r.phys i = r.phys j → i = j := by
    intro i j hi hj q
    rw [hp i, hp j, phys0 i (by omega), phys0 j (by omega)] at q
    omega
  simp only [bulkBytes, e, hr, d, Nat.zero_add]
  apply List.ext_getElem (by simp)
  intro i h1 h2
  simp only [List.getElem_map, List.getElem_range]
  rw [placeBytes_get r.phys (fun i => bs.getD i 0#8) (m := []) rfl bs.length inj i h2]
  simp [h2]

/-- The owner's staging region with a pack in it. -/
def packed (v f r : Nat) : State := holding (packBytes v f r) { region0 with owner := 1#384 } staged
theorem packed_data (v f r : Nat) : bulkData ⟨0#64, 224#32⟩ (accept (hd 1 16) (packed v f r)) = packBytes v f r := by
  have l : (packBytes v f r).length = 224 := rfl
  have h := bulk_holding (bs := packBytes v f r) (r := { region0 with owner := 1#384 }) (s := staged) (id := 7) (by rw [l]; decide) (by decide +kernel) (fun _ => rfl)
  rw [l] at h
  exact h

theorem pack_digest (v f r : Nat) (b : Bool) :
    (packAt (packBytes v f r) b).bodyDigest = Config.sha384 (packBody (packAt (packBytes v f r) b)) := by
  have e : ((packBytes v f r).drop 0x20).take 48 = le 48 (Config.sha384 []).toNat := rfl
  have d : packBody (packAt (packBytes v f r) b) = [] := by
    have n : (packAt (packBytes v f r) b).bodyLen = 0 := rfl
    simp [packBody, n]
  have lt : (Config.sha384 []).toNat < 256 ^ 48 := Nat.lt_of_lt_of_eq (Config.sha384 []).isLt (by decide)
  rw [d]
  simp only [packAt, numAt, e, leNat_le, Nat.mod_eq_of_lt lt, BitVec.ofNat_toNat, BitVec.setWidth_eq]

theorem pack_status : packStatus staged (pack1 true) = 0x0000 ∧ packStatus staged (pack1 false) = 0x0021 := by
  have ok : ∀ b, packFormOk (pack1 b) = true := by
    intro b
    unfold packFormOk
    rw [Bool.and_eq_true]
    refine ⟨?_, decide_eq_true (pack_digest 1 1 0 b)⟩
    cases b <;> decide +kernel
  simp only [packStatus, ok]
  decide +kernel

/-- InstalledImages: a descriptor in a staging region up to its last byte and past it; an image that verifies and one that is older; a pack of every
verdict, two of them in the staging region; a member and a root with a relay that waits for 1 h less a tick, and for 1 h. -/
theorem wit_installed_images :
    acceptedB (.moduleFirmwareInstall (hd 1 16) ⟨0#64, 7864320#32⟩ ext0) staged = true ∧ bulkOk (hd 1 16) ⟨0#64, 7864320#32⟩ (accept (hd 1 16) staged) = true ∧
    bulkOk (hd 1 16) ⟨0#64, 7864321#32⟩ (accept (hd 1 16) staged) = false ∧ bulkOk (hd 1 16) ⟨0#64, 0#32⟩ (accept (hd 1 16) staged) = false ∧
    (∀ data, bootable staged (fwImage data view0) = true ∧ bootable (burn 2 2 true staged) (fwImage data view0) = false) ∧
    acceptedB (.testCadenceSet (hd 2 8) 2#64) staged = true ∧ acceptedB (.testPackInstall (hd 1 16) ⟨0#64, 224#32⟩ ext0) staged = true ∧
    bulkOk (hd 1 16) ⟨0#64, 224#32⟩ (accept (hd 1 16) staged) = true ∧
    packStatus staged (packAt (packBytes 1 2 0) true) = 0x0020 ∧
    staged.mesh.root = false ∧
    (member5 staged).mesh.addr = some 0x0045#16 ∧ (member5 staged).mesh.root = false ∧ (member5 staged).ctl.mode ∈ active ∧
    (member5 (inMode .testing)).ctl.mode ∉ active ∧ staged.mesh.addr = none ∧ (rooted staged).mesh.root = true ∧
    Tab.find (relayed 0#64 (rooted staged)).test.relays 5 = some ⟨0, 0, 1, 0#64⟩ ∧
    (({ relayed 0#64 (rooted staged) with ctl := { staged.ctl with localTime := 89999999999#64 } } : State).ctl.localTime - 0#64).toNat < 3600 * 25000000 ∧
    3600 * 25000000 ≤ (({ relayed 0#64 (rooted staged) with ctl := { staged.ctl with localTime := 90000000000#64 } } : State).ctl.localTime - 0#64).toNat := by
  have b : ∀ data, bootable staged (fwImage data view0) = true ∧ bootable (burn 2 2 true staged) (fwImage data view0) = false := fun data => by
    have e1 : owned staged = false := by decide +kernel
    have e2 : otpValue staged 2 ≤ 1 := by decide +kernel
    have e3 : ¬otpValue (burn 2 2 true staged) 2 ≤ 1 := by decide +kernel
    simp [bootable, fwImage, view0, e1, e2, e3]
  refine ⟨?_, ?_, ?_, ?_, b, ?_⟩ <;> (repeat' apply And.intro) <;> decide +kernel

/-- InstalledImages: the packs of `wit_installed_images` as the requests read them. -/
theorem wit_packs_read (v f r : Nat) : packAt (bulkData ⟨0#64, 224#32⟩ (accept (hd 1 16) (packed v f r))) true = packAt (packBytes v f r) true ∧
    Accepted (.testPackInstall (hd 1 16) ⟨0#64, 224#32⟩ ext0) (packed v f r) ∧ bulkOk (hd 1 16) ⟨0#64, 224#32⟩ (accept (hd 1 16) (packed v f r)) = true ∧
    (∀ k, packStatus (packed v f r) k = packStatus staged k) := by
  have j : ∀ m row, judge (hd 1 16) row (withData m staged) = judge (hd 1 16) row staged := fun _ _ => rfl
  have c : ∀ m, bulkOk (hd 1 16) ⟨0#64, 224#32⟩ (accept (hd 1 16) (withData m staged)) = bulkOk (hd 1 16) ⟨0#64, 224#32⟩ (accept (hd 1 16) staged) := fun _ => rfl
  have p : ∀ m k, packStatus (withData m staged) k = packStatus staged k := fun _ _ => rfl
  refine ⟨by rw [packed_data], ?_, ?_, fun k => by unfold packed holding; exact p _ k⟩
  · simp only [Accepted, commandRow, packed, holding, j]
    decide +kernel
  · unfold packed holding
    rw [c]; decide +kernel

/-! ## Queries -/

def loaded3 (m : ModState) : State :=
  { inMode m with
    job := { Job.empty with loaded := true, session := 3, principal := 3#384, plots := [0], channels := [] }
    plots := [(0, { Plot.empty with assigned := true, slices := (List.range 16).map (fun i => (i, Slice.empty)) })]
    flds := (List.range 8).map (fun f => (f, { Field.empty with remap := (List.range 64).map (fun i => (i, ⟨i, decide (i < 60), if i < 60 then 0 else 1, 0⟩)) })) }

/-- QueriesAnswer and FailedFieldExecutesNothing: each query is taken in READY, LOADED or RUNNING; objects at their bounds name something, one past
them nothing. -/
theorem wit_queries :
    ([Instr.moduleIdentify (plain 0), .plotStatus (hd 3 0), .linkStatus (hd 3 0), .meshStatus (hd 3 0), .meshTimeRead (hd 3 0), .jobStatus (hd 3 8) 0#64,
      .testStatus (hd 1 0), .healthWarnings (hd 1 0), .powerStatus (hd 3 0), .attestReport (plain 48) 0#384, .memoryRegionList (hd 3 8) 1023#64,
      .windowList (hd 3 8) 4095#64, .healthLogRead (hd 1 24) 7#64 0#64 0#64, .healthEventsRead (hd 3 16) 0#64 0#64, .healthSummaryRead (hd 1 8) 1#64,
      .otpRead (hd 1 8) 0x17#64, .ownerViolationsRead (hd 1 8) 2#64, .healthMargins (hd 1 8) 0x0F00#64, .healthMargins (hd 1 8) 0x0701#64,
      .debugQueueView (hd 3 8) 0x0F00#64, .debugQueueView (hd 3 8) 0x1000#64, .debugCountersRead (hd 3 8) 0x0F01#64, .debugCountersRead (hd 3 8) 0x1001#64,
      .memoryRegionClear (hd 3 8) 0#64, .memoryRegionRelease (hd 3 8) 1024#64, .memoryStagingMark (hd 3 16) 0#64, .memoryStagingUnmark (hd 3 16) 0#64,
      .memoryRepairRequest (hd 2 16) 0#64 1#64, .windowClose (hd 3 8) 0#64, .windowFree (hd 3 8) 4095#64, .plotPin (hd 3 8) 1#64, .plotUnpin (hd 3 8) 512#64,
      .plotFence (hd 1 8) 60#64].all (acceptedB · (loaded3 .running))) = true ∧
    (queueView (loaded3 .running) 0 15).isSome = true ∧ queueView (loaded3 .running) 0 16 = none ∧ (queueView (loaded3 .running) 1 0).isSome = true ∧
    (scopeCounters (loaded3 .running) 1 15).isSome = true ∧ scopeCounters (loaded3 .running) 1 16 = none ∧
    ownRegion (hd 3 8) 0 (loaded3 .running) = none ∧ stagingRegion (hd 3 16) 0 (loaded3 .running) = none ∧
    ownWindow (hd 3 8) 4095 (loaded3 .running) = none ∧ ownPlot (hd 3 8) 1 (loaded3 .running) = false ∧ ownPlot (hd 3 8) 512 (loaded3 .running) = false ∧
    assignable (loaded3 .running) 59 = true ∧ assignable (loaded3 .running) 60 = false := by (repeat' apply And.intro) <;> decide +kernel

/-! ## Power -/

def withPwr (f : Power → Power) (s : State) : State := { s with pwr := f s.pwr }
def droopAt (t : U64) (s : State) : State := updClock 0 (fun c => { c with droop := some t }) s

/-- PowerAndThermalLoops: every case of an interval of the governor at its bounds, one where it does not act, a field lowered by its droop guard and none lowered, a hot, a warm and a cool field, sensors at their limits, a stretch,
its release, an episode that ends and one that goes on, every state of sleep. -/
theorem wit_power_loops :
    acceptedB (.powerLimitSet (hd 1 8) 1499#64) ready = true ∧ acceptedB (.powerClockSet (hd 1 16) 3#64 0#64) ready = true ∧
    governs ready = true ∧ limitInForce ready = 1500 ∧ targetMhz ready = 2100 ∧
    (limitInForce ready < 1501 ∧ 1000 < ready.pwr.govMhz) ∧
    (let s := withPwr (fun w => { w with govMhz := 1000 }) ready; limitInForce s < 1501 ∧ s.pwr.govMhz ≤ 1000) ∧
    (let s := withPwr (fun w => { w with govMhz := 2150 }) ready; 1500 ≤ limitInForce s ∧ targetMhz s < s.pwr.govMhz) ∧
    (1500 ≤ limitInForce ready ∧ 97 * limitInForce ready ≤ 100 * 1455 ∧ ready.pwr.govMhz ≤ targetMhz ready) ∧
    (100 * 1454 < 97 * limitInForce ready ∧ ready.pwr.calm < 99) ∧
    (let s := withPwr (fun w => { w with calm := 99, throttle16 := 1 }) ready; 99 ≤ s.pwr.calm ∧ 0 < s.pwr.throttle16 ∧ s.pwr.govMhz ≤ targetMhz s) ∧
    (let s := withPwr (fun w => { w with calm := 99, govMhz := 2099 }) ready; 99 ≤ s.pwr.calm ∧ s.pwr.throttle16 = 0 ∧ s.pwr.govMhz < targetMhz s) ∧
    (let s := withPwr (fun w => { w with calm := 99 }) ready; s.pwr.throttle16 = 0 ∧ s.pwr.govMhz = targetMhz s) ∧
    (fieldOf ready 0).fenced = false ∧ (1000 : Int) < 1001 ∧ (clockOf ready 0).hot = false ∧
    (let s := updClock 0 (fun c => { c with hot := true }) ready; (clockOf s 0).hot = true ∧ (970 : Int) ≤ 970) ∧
    ready.ctl.mode ≠ .lodge ∧ tripLimit 256 < 1101 ∧ tripLimit 257 < 951 ∧ 950 ≤ tripLimit 257 ∧ (inMode .lodge).ctl.mode = .lodge ∧
    (clockOf ready 0).droop = none ∧ longDroop (droopAt 0#64 ready) 0 = false ∧
    longDroop (droopAt 0#64 { ready with ctl := { ready.ctl with localTime := 25000#64 } }) 0 = true ∧
    (let s := withPwr (fun w => { w with pressure := true, pin := true }) ready
     s.pwr.pressure = true ∧ (∀ f, f < 8 → fieldClocked s f = true → loopLowers s (targetMhz s) f = false)) ∧
    (let s := withPwr (fun w => { w with pressure := true, govMhz := 2050 }) ready; ∃ f, f < 8 ∧ fieldClocked s f = true ∧ loopLowers s (targetMhz s) f = true) ∧
    (governs (inMode .testing) = false ∧ (inMode .testing).ctl.mode ≠ .lodge ∧ fieldClocked ready 0 = true ∧ (clockOf (droopAt 0#64 ready) 0).droop.isSome = true ∧
      (∀ f, f < 8 → (clockOf ready f).droop = none) ∧ fieldClocked (inMode .testing) 3 = false ∧ (inMode .boot).ctl.mode = .boot ∧
      (match exec (.governorInterval 1455) ready with
       | .next t => (List.range 8).all (fun f => decide (targetMhz ready ≤ fieldMhz t f))
       | _ => false) = true) ∧
    ready.pwr.pressure = false ∧
    (∀ k ∈ [0, 1, 2, 3], (plotOf (updPlot 0 (fun pl => { pl with sleep := k }) ready) 0).sleep = k) ∧ plotIdle ready 0 = true ∧
    plotIdle (updPlot 0 (fun pl => { pl with arr := { pl.arr with active := some 0, stopped := false } }) (loaded3 .running)) 0 = false := by
  (repeat' apply And.intro) <;> decide +kernel

/-! ## Memory commands and windows -/

/-- 120 units of 64 KiB at 0, FIELD 0, key slot 5; and two units less. -/
def rec0 : Rec4 := ⟨0#64, 120#64, 5#64, 0#64⟩
def tenants (n : Nat) : State := withRegions ((List.range n).map (fun i => (i, { region0 with base := (i + 1) * 2 ^ 23, start := 16 * i, staging := decide (i < 4) }))) ready
def shaped (w : Rec4) (s : State) : Region :=
  { regionInput w with size := (clampStripe (regionInput w)).value, owner := issuerHash (hd 3 32) s, session := 3 }

/-- RegionsDefineClearRelease: a record that breaks no rule, one that breaks a rule, a principal over its quota, a memory without a place. -/
theorem wit_region_define :
    acceptedB (.memoryRegionDefine (hd 3 32) rec0 ext0) ready = true ∧
    regionFault ready rec0 (shaped rec0 ready) 3#384 false = none ∧ issuerHash (hd 3 32) ready = 3#384 ∧
    overQuota ready (shaped rec0 ready) 3#384 2 1000000 = false ∧ pickRegionId ready.hbm.regions none = some 0 ∧
    placeRegion ready.hbm.regions (shaped rec0 ready) none = some 0 ∧
    (regionFault ready { rec0 with w1 := 0#64 } (shaped { rec0 with w1 := 0#64 } ready) 3#384 false).isSome = true ∧
    overQuota ready (shaped rec0 ready) 3#384 2 0 = true ∧
    (let big : Rec4 := ⟨0#64, 3863041#64, 5#64, 0#64⟩
     regionFault ready big (shaped big ready) 3#384 false = none ∧ placeRegion ready.hbm.regions (shaped big ready) none = none) := by
  (repeat' apply And.intro) <;> decide +kernel

/-- RegionsDefineClearRelease: a region of the issuer that shares its key slot, and one that is the last to use it. -/
theorem wit_region_clear_release :
    acceptedB (.memoryRegionClear (hd 3 8) 0#64) (tenants 1) = true ∧ acceptedB (.memoryRegionRelease (hd 3 8) 0#64) (tenants 2) = true ∧
    (ownRegion (hd 3 8) 0 (accept (hd 3 8) (tenants 1))).isSome = true ∧ (regionOf (tenants 1) 0).isSome = true ∧ TablesOrdered (tenants 2) ∧
    (teardownRegion 0 (tenants 1)).hbm.regions.any (fun e => e.2.keySlot = 5) = false ∧
    (teardownRegion 0 (tenants 2)).hbm.regions.any (fun e => e.2.keySlot = 5) = true ∧
    region0.holdsGranule (granuleOf 65535) = true ∧ (fieldOf (tenants 1) 0).fenced = false ∧ region0.usesField 0 = true ∧
    (fieldOf (updField 0 (fun v => { v with fenced := true }) (tenants 1)) 0).fenced = true := by
  unfold TablesOrdered; (repeat' apply And.intro) <;> decide +kernel

/-- A location word: stack, channel, pseudo-channel, bank, row. -/
def repairs (n : Nat) : State := mapFlash (fun fl => { fl with repairs := (List.range n).map (fun i => (0, BitVec.ofNat 64 (i + 1))) }) ready

/-- A region with its first granule written. -/
def wordy : State := mapHbm (fun m => { m with written := [0] }) (tenants 1)

/-- A field whose run 0 has counted tile 5, so that the first granule of its ledger area is written. -/
def ledgerSet : State := updField 0 (fun v => { v with runs := [(0, { Run.empty with bits := [5] })] }) ready

/-- MemoryMaintenance: locations that can be retired and those that cannot, a page with a word that does not decode, of a region and of a ledger, a bank retired before, repairs with room, the same again and none left,
scrub intervals past both ends, marks up to four. -/
theorem wit_memory_maintenance :
    acceptedB (.memoryRetirePage (hd 2 16) ⟨0#64, []⟩) ready = true ∧ (memLoc 0#64).channel ≠ 15 ∧ (memLoc 0#64).bank ≠ 63 ∧ (memLoc 0#64).page < 515584 ∧
    (nextSpare ready.hbm (memLoc 0#64).pcIndex).isSome = true ∧
    ((memLoc 0x7FFFFFFF#64).bank = 63 ∨ (memLoc 0x7FFFFFFF#64).channel = 15) ∧
    acceptedB (.memoryRetirePage (hd 2 16) ⟨0#64, [(63, { lanes := 3 })]⟩) wordy = true ∧ pcOfPhys (63 * 64) = (memLoc 0#64).pcIndex ∧
    pageOfPhys (63 * 64) = (memLoc 0#64).page ∧ wordy.hbm.isWritten (granuleOf (63 * 64)) = true ∧
    (fieldOf wordy (stackOfPhys (63 * 64) / 4)).fenced = false ∧
    inSystemArea (63 * 64) = false ∧
    (wordRegion wordy (63 * 64)).any (fun e => e.2.decodeWord wordy.hbm.poison (63 * 64) { lanes := 3 } = .failed) = true ∧
    (let x := physAddr 0 0 (515072 * 4096)
     acceptedB (.memoryRetirePage (hd 2 16) ⟨0x7FBCF800#64, [(x / 64, { lanes := 3 })]⟩) ledgerSet = true ∧ pcOfPhys x = (memLoc 0x7FBCF800#64).pcIndex ∧
     pageOfPhys x = (memLoc 0x7FBCF800#64).page ∧ (memLoc 0x7FBCF800#64).channel ≠ 15 ∧ (memLoc 0x7FBCF800#64).bank ≠ 63 ∧ inSystemArea x = true ∧
     systemWritten ledgerSet x = true ∧ (wordRegion ledgerSet x).any (fun e => e.2.decodeWord ledgerSet.hbm.poison x { lanes := 3 } = .failed) = true) ∧
    acceptedB (.memoryRetireBank (hd 2 16) ⟨0#64, []⟩) ready = true ∧ ready.hbm.banks = [] ∧
    (∃ b ∈ (mapHbm (fun m => { m with banks := [⟨(memLoc 0#64).pcIndex, 3⟩] }) ready).hbm.banks, b.pc = (memLoc 0#64).pcIndex) ∧
    acceptedB (.memoryRepairRequest (hd 2 16) 0#64 2#64) (repairs 15) = true ∧
    ((0, 0#64) ∉ (repairs 15).flash.repairs ∧ ((repairs 15).flash.repairs.filter (fun e => e.1 = (memLoc 0#64).stack)).length < 16) ∧
    (0, 1#64) ∈ (repairs 15).flash.repairs ∧ 16 ≤ ((repairs 16).flash.repairs.filter (fun e => e.1 = (memLoc 0#64).stack)).length ∧
    acceptedB (.memoryScrubSet (hd 2 16) 0#64 169#64) ready = true ∧ acceptedB (.memoryStagingMark (hd 3 16) 4#64) (tenants 5) = true ∧
    (stagingRegion (hd 3 16) 4 (accept (hd 3 16) (tenants 5))).map (·.staging) = some false ∧
    4 ≤ (regionsWhere (tenants 5) (fun u => u.owner = 3#384 && u.staging)).length ∧
    (stagingRegion (hd 3 16) 3 (accept (hd 3 16) (tenants 5))).map (·.staging) = some true ∧
    (regionsWhere (updRegion 3 (fun u => { u with staging := false }) (tenants 4)) (fun u => u.owner = 3#384 && u.staging)).length < 4 := by
  (repeat' apply And.intro) <;> decide +kernel

/-- A window of 4 KiB at 2^23, with every right, for any peer. -/
def wrec0 : Rec4 := ⟨0x800000#64, 0x1000#64, 0x0000000700000000#64, 0#64⟩
def window0 : Window := { windowInput wrec0 0#256 3#384 3 false with size := 4096 }
def windowed : State := { member5 (tenants 1) with mesh := { (member5 (tenants 1)).mesh with windows := [(9, window0)] } }

/-- WindowOpenCloseFree: a record that passes, one outside the issuer's regions, one before an address; a window of the issuer. -/
theorem wit_windows :
    acceptedB (.windowOpen (hd 3 64) wrec0 0#256 ext0) (member5 (tenants 1)) = true ∧ windowFault (member5 (tenants 1)) wrec0 window0 [] = none ∧
    pickWindowId (member5 (tenants 1)).mesh.windows none = some 0 ∧ (windowFault (member5 ready) wrec0 window0 []).map (·.1) = some 2 ∧
    (windowFault (tenants 1) wrec0 window0 []).map (·.1) = some 4 ∧
    acceptedB (.windowClose (hd 3 8) 9#64) windowed = true ∧ acceptedB (.windowFree (hd 3 8) 0x1009#64) windowed = true ∧
    ownWindow (hd 3 8) 9 (accept (hd 3 8) windowed) = some window0 := by (repeat' apply And.intro) <;> decide +kernel


/-! ## Links, mesh requests, jobs -/

/-- LinkAndMeshRequests: masks and policies past their ends; an addressed root with its own group and another, an unaddressed one before and after its
ports have settled; lists of 0, 1, 511 and 512 entries to the root itself, to a member that is reached and to one that is not. -/
def meshed : State :=
  { rooted ready with
    mesh := { (rooted ready).mesh with members := [(0, ⟨[], [], []⟩), (5, ⟨[2], [], []⟩)], memberTable := [(5, 0x0004#16)] }
    links := [(2, { Port.empty with pstate := 0, active := 0xFF#8, laneMask := 0xFF#8 })] }
def bareRoot (settled : Bool) : State := { ready with mesh := { Mesh.empty with root := true, settled := settled } }
def entries1 : List (Nat × U16) := [(1023, 0x8000#16)]

theorem wit_link_mesh_requests :
    acceptedB (.linkWidthPolicy (hd 1 16) 0x18001#64 2#64) ready = true ∧
    ([0#64, 1#64, 1023#64, 1024#64].all (fun g => acceptedB (.meshAssign (hd 1 8) g) meshed)) = true ∧ meshed.mesh.addr = some 0x0040#16 ∧
    (0x0040#16).toNat / 64 = (clampTo 1023 (1#64).toNat).value ∧ (0x0040#16).toNat / 64 ≠ (clampTo 1023 (1024#64).toNat).value ∧
    acceptedB (.meshAssign (hd 1 8) 1#64) (bareRoot true) = true ∧ (bareRoot true).mesh.addr = none ∧ (bareRoot false).mesh.settled = false ∧
    acceptedB (.meshRouteWrite (hd 1 8) 0#16 [] ext0) meshed = true ∧ acceptedB (.meshRouteWrite (hd 1 16) 0x0045#16 entries1 ext0) meshed = true ∧
    511 < (List.replicate 512 (0, 0#16)).length ∧ (List.replicate 511 (0, 0#16)).length ≤ 511 ∧
    acceptedB (.meshRouteWrite (hd 1 16) 0x0040#16 entries1 ext0) meshed = true ∧
    (0x0045#16).toNat / 64 = (0x0040#16).toNat / 64 ∧ (Tab.find meshed.mesh.members ((0x0045#16).toNat % 64)).isSome = true ∧
    portSet meshed (0x0045#16).toNat ≠ [] ∧ Tab.find meshed.mesh.members ((0x0046#16).toNat % 64) = none ∧
    (0x0085#16).toNat / 64 ≠ (0x0040#16).toNat / 64 := by (repeat' apply And.intro) <;> decide +kernel

/-- A body of 0x4300 bytes: header, one plot record for plot 0, its slot tables (no slot) at 0x180, its parameters at 0x4280 (R327 to R329). -/
def body0 : Mem :=
  [(0x00, 0x54#8), (0x01, 0x41#8), (0x02, 0x53#8), (0x03, 0x4C#8), (0x04, 0x01#8), (0x09, 0x43#8), (0x40, 0x02#8), (0x44, 0x01#8), (0x48, 0x40#8),
   (0x49, 0x01#8), (0x158, 0x80#8), (0x159, 0x01#8), (0x168, 0x80#8), (0x169, 0x42#8)]
/-- The bytes of the body, and the 32-byte header of an envelope (R366). -/
def bodyBytes : List Byte := Mem.read body0 0 0x180 ++ List.replicate 0x4180 0#8
def imageHeader (version bodyLen : Nat) : List Byte := lay [(4, version), (4, 0), (8, 9), (8, bodyLen), (8, 0)]
def loadable : State := { withRegions [(7, region0)] (loaded3 .ready) with job := Job.empty, plots := [] }
def loader3 : Loader := ⟨3#384, 2, 1000000, 3⟩
def loadReq : Bulk := ⟨0#64, 17200#32⟩
/-- An image of 17,200 bytes in the staging region of the session's principal: a header and what stands after it. -/
def loadedWith (header rest : List Byte) : State := holding (header ++ rest) region0 loadable
/-- A body under `K_IMG` of the session, and the same with a tag that is one off. -/
def sealedBody (body : List Byte) : List Byte := gcmSeal 0 keys0.img 9#96 (imageHeader 1 0x4300) body
def forgedBody (body : List Byte) : List Byte :=
  let text := gcmText keys0.img 9#96 body
  text ++ le 16 (Config.gcmTag keys0.img 9#96 (imageHeader 1 0x4300) text + 1#128).toNat

def isOk (r : Except Reply State) : Bool := match r with | .ok _ => true | .error _ => false

/-! ### The image passes every check

Its slot tables are all zero; the proof says so once for every address above the last listed byte, where an evaluation would read 1,024 records. -/

theorem mem_get_above (m : Mem) (a : Nat) (h : ∀ e ∈ m, e.1 < a) : Mem.get m a = 0#8 := by
  induction m with
  | nil => rfl
  | cons e r ih =>
    have h1 := h e (by simp)
    simp only [Mem.get, if_neg (Nat.ne_of_lt h1)]
    exact ih (fun x hx => h x (by simp [hx]))

theorem body0_above (a : Nat) (h : 0x180 ≤ a) : Mem.get body0 a = 0#8 := by
  apply mem_get_above
  have : ∀ e ∈ body0, e.1 < 0x180 := by decide +kernel
  exact fun e he => Nat.lt_of_lt_of_le (this e he) h

theorem body0_zero (a : Nat) (h : 0x180 ≤ a) : n32 body0 a = 0 := by
  simp [n32, Mem.read, leNat, body0_above a h, body0_above (a + 1) (by omega), body0_above (a + 1 + 1) (by omega), body0_above (a + 1 + 1 + 1) (by omega)]

theorem firstIn_none {α : Type} (l : List α) (f : α → Option Diag) (h : ∀ x, f x = none) : firstIn l f = none := by
  induction l with
  | nil => rfl
  | cons a r ih => simp [firstIn, h a, ih]

def plot0Rec : PlotRec := ⟨0, 0, 0, 0, 0, 0, 0x180, 0, 0x4280⟩

theorem body0_slots (i : Nat) : slotTableFault body0 plot0Rec i = none := by
  have z : ∀ a, n32 body0 (plot0Rec.slotTable i + a) = 0 := fun a => body0_zero _ (by simp [PlotRec.slotTable, plot0Rec]; omega)
  have z0 : n32 body0 (plot0Rec.slotTable i) = 0 := z 0
  have s : ∀ k, slotFault body0 plot0Rec i k = none := by
    intro k
    have y : ∀ a, n32 body0 (plot0Rec.slotTable i + 16 + 16 * k + a) = 0 := fun a => by
      rw [show plot0Rec.slotTable i + 16 + 16 * k + a = plot0Rec.slotTable i + (16 + 16 * k + a) by omega]; exact z _
    have y0 : n32 body0 (plot0Rec.slotTable i + 16 + 16 * k) = 0 := y 0
    simp [slotFault, slotRecAt, y, y0, bit, bits, reservedIn]
  simp [slotTableFault, z, z0, bits, reservedIn, thenCheck, firstIn_none _ _ s]

theorem plotsFault_one {s : State} {m : Mem} {a : Nat} {r : PlotRec} (e : entriesOf m 0x02 = [a]) (hr : plotRec m a = r) (hd : r.descCount = 0)
    (f : plotRecFault s m (entriesOf m 0x05).length [] 0 a = none) (t : ∀ i, slotTableFault m r i = none) : plotsFault s m = none := by
  have d : descRefs m [r] = [] := by simp [descRefs, hd]
  simp [plotsFault, e, plotRecs, hr, f, firstIn, thenCheck, firstIn_none _ _ t, d]

theorem checkImage_ok {m : Mem} {who : Loader} {len : Nat} {s : State} (h1 : headerFault m len = none) (h2 : directoryFault m = none)
    (h3 : keyFault m = none) (h4 : entriesOf m 0x08 = []) (h5 : plotsFault s m = none) (h6 : sectionsFault m = none)
    (h7 : channelsFault s.mesh.addr m = none) (h8 : entriesOf m 0x07 = []) (h9 : remotesFault s.mesh.addr m = none) :
    checkImage m who len [] s = .ok s := by
  simp [checkImage, h1, h2, h3, h4, h5, h6, h7, h8, h9, thenCheck, planRegions, planWindows]

theorem body0_ok (d : Mem) : checkImage body0 loader3 0x4300 [] (accept (hd 3 16) (withData d loadable)) = .ok (accept (hd 3 16) (withData d loadable)) := by
  have p : ∀ i a, plotRecFault (accept (hd 3 16) (withData d loadable)) body0 (entriesOf body0 0x05).length [] i a =
      plotRecFault (accept (hd 3 16) loadable) body0 (entriesOf body0 0x05).length [] i a := fun _ _ => rfl
  have a : (accept (hd 3 16) (withData d loadable)).mesh.addr = (accept (hd 3 16) loadable).mesh.addr := rfl
  exact checkImage_ok (by decide +kernel) (by decide +kernel) (by decide +kernel) (by decide +kernel)
    (plotsFault_one (a := 0x140) (r := plot0Rec) (by decide +kernel) (by decide +kernel) rfl (by rw [p]; decide +kernel) body0_slots)
    (by decide +kernel) (by rw [a]; decide +kernel) (by decide +kernel) (by rw [a]; decide +kernel)

theorem body_written : Mem.write [] 0 bodyBytes = body0 := by
  have app : ∀ (a b : List Byte) (m : Mem) (x : Nat), Mem.write m x (a ++ b) = Mem.write (Mem.write m x a) (x + a.length) b := by
    intro a
    induction a with
    | nil => intro b m x; rfl
    | cons c r ih => intro b m x; simp only [List.cons_append, Mem.write, ih, List.length_cons]; congr 1; omega
  have keep : ∀ (m : Mem) (a : Nat), (∀ e ∈ m, e.1 < a) → Mem.set m a 0#8 = m := by
    intro m
    induction m with
    | nil => intro a _; rfl
    | cons e r ih =>
      intro a h
      have h1 := h e (by simp)
      simp only [Mem.set, if_neg (Nat.not_lt.2 (Nat.le_of_lt h1)), if_neg (Nat.ne_of_lt h1)]
      rw [ih a (fun x hx => h x (by simp [hx]))]
  have zeros : ∀ n m a, (∀ e ∈ m, e.1 < a) → Mem.write m a (List.replicate n 0#8) = m := by
    intro n
    induction n with
    | zero => intro m a _; rfl
    | succ n ih =>
      intro m a h
      rw [List.replicate_succ, Mem.write, keep m a h]
      exact ih m (a + 1) (fun e he => Nat.lt_succ_of_lt (h e he))
  have low : ∀ e ∈ body0, e.1 < 0 + (Mem.read body0 0 0x180).length := by decide +kernel
  have first : Mem.write [] 0 (Mem.read body0 0 0x180) = body0 := by decide +kernel
  rw [bodyBytes, app, first]
  exact zeros _ _ _ low

/-- The envelope of `loadedWith` as the module reads it. -/
theorem loaded_data {header rest : List Byte} (h : header.length = 32) (r : rest.length = 17168) :
    bulkData loadReq (accept (hd 3 16) (loadedWith header rest)) = header ++ rest := by
  have n : (header ++ rest).length = 17200 := by simp [h, r]
  have e := bulk_holding (bs := header ++ rest) (r := region0) (s := loadable) (id := 7) (by omega) (by decide +kernel) (fun _ => rfl)
  rw [n] at e
  exact e

theorem header_length (v n : Nat) : (imageHeader v n).length = 32 := rfl
theorem envelope_of (v n : Nat) (hv : v < 2 ^ 32) (hn : n < 2 ^ 64) (rest : List Byte) : envelopeAt (imageHeader v n ++ rest) = ⟨v, 9, n⟩ := by
  have h0 : ((imageHeader v n ++ rest).drop 0).take 4 = le 4 v := rfl
  have h8 : ((imageHeader v n ++ rest).drop 8).take 8 = le 8 9 := rfl
  have h16 : ((imageHeader v n ++ rest).drop 0x10).take 8 = le 8 n := rfl
  simp only [envelopeAt, numAt, h0, h8, h16, leNat_le]
  rw [Nat.mod_eq_of_lt (show v < 256 ^ 4 by omega), Nat.mod_eq_of_lt (show 9 < 256 ^ 8 by decide), Nat.mod_eq_of_lt (show n < 256 ^ 8 by omega)]

theorem sealed_length (body : List Byte) (h : body.length = 0x4300) : (sealedBody body).length = 17168 ∧ (forgedBody body).length = 17168 := by
  simp [sealedBody, forgedBody, gcmSeal, gcmText_length, gcmTag, le_length, h]

/-- JobLoad: a sealed body opens; one with a wrong tag does not. -/
theorem wit_image_opens (body : List Byte) (h : body.length = 0x4300) :
    openImage (accept (hd 3 16) (loadedWith (imageHeader 1 0x4300) (sealedBody body))) 3
      (bulkData loadReq (accept (hd 3 16) (loadedWith (imageHeader 1 0x4300) (sealedBody body)))) = some body ∧
    openImage (accept (hd 3 16) (loadedWith (imageHeader 1 0x4300) (forgedBody body))) 3
      (bulkData loadReq (accept (hd 3 16) (loadedWith (imageHeader 1 0x4300) (forgedBody body)))) = none := by
  have k : ∀ m, (Tab.find (accept (hd 3 16) (withData m loadable)).gateh.sessions 3).map (·.keys.img) = some keys0.img := fun _ => rfl
  have key : ∀ rest, ∃ e, Tab.find (accept (hd 3 16) (loadedWith (imageHeader 1 0x4300) rest)).gateh.sessions 3 = some e ∧ e.keys.img = keys0.img := by
    intro rest
    have q := k (placeBytes region0.phys (fun i => (imageHeader 1 0x4300 ++ rest).getD i 0#8) (imageHeader 1 0x4300 ++ rest).length [])
    rw [Option.map_eq_some_iff] at q
    exact q
  have cut : ∀ rest : List Byte, rest.length = 17168 → (imageHeader 1 0x4300 ++ rest).take 32 = imageHeader 1 0x4300 ∧
      ((imageHeader 1 0x4300 ++ rest).drop 32).take (0x4300 + 16) = rest := by
    intro rest hr
    have hl := header_length 1 0x4300
    constructor
    · rw [List.take_append_of_le_length (by omega), List.take_of_length_le (by omega)]
    · rw [List.drop_append, List.drop_eq_nil_of_le (by omega), hl]
      simp [List.take_of_length_le, hr]
  have go : ∀ rest : List Byte, rest.length = 17168 → openImage (accept (hd 3 16) (loadedWith (imageHeader 1 0x4300) rest)) 3
      (bulkData loadReq (accept (hd 3 16) (loadedWith (imageHeader 1 0x4300) rest))) = gcmOpen 0 keys0.img 9#96 (imageHeader 1 0x4300) rest := by
    intro rest hr
    obtain ⟨e, h1, h2⟩ := key rest
    rw [loaded_data (header_length 1 0x4300) hr]
    simp only [openImage, h1, h2, envelope_of 1 0x4300 (by decide) (by decide), (cut rest hr).1, (cut rest hr).2]
  refine ⟨?_, ?_⟩
  · rw [go _ (sealed_length body h).1]
    exact gcmOpen_gcmSeal 0 _ _ _ _
  · rw [go _ (sealed_length body h).2]
    have l := (sealed_length body h).2
    have t1 : (forgedBody body).take ((forgedBody body).length - 16) = gcmText keys0.img 9#96 body := by
      rw [l, forgedBody, List.take_append_of_le_length (by simp [gcmText_length, h]), List.take_of_length_le (by simp [gcmText_length, h])]
    have t2 : (forgedBody body).drop ((forgedBody body).length - 16) =
        le 16 (Config.gcmTag keys0.img 9#96 (imageHeader 1 0x4300) (gcmText keys0.img 9#96 body) + 1#128).toNat := by
      rw [l, forgedBody, List.drop_append, List.drop_eq_nil_of_le (by simp [gcmText_length, h]), gcmText_length, h]
      rfl
    unfold gcmOpen
    simp only [t1, t2]
    rw [if_neg]
    intro q
    rw [Bool.and_eq_true] at q
    have e : le 16 (Config.gcmTag keys0.img 9#96 (imageHeader 1 0x4300) (gcmText keys0.img 9#96 body) + 1#128).toNat =
        gcmTag keys0.img 9#96 (imageHeader 1 0x4300) (gcmText keys0.img 9#96 body) := of_decide_eq_true q.2
    have f := congrArg leNat e
    simp only [gcmTag, leNat_le] at f
    generalize Config.gcmTag keys0.img 9#96 (imageHeader 1 0x4300) (gcmText keys0.img 9#96 body) = t at f
    rw [Nat.mod_eq_of_lt (Nat.lt_of_lt_of_eq (t + 1#128).isLt (by decide)), Nat.mod_eq_of_lt (Nat.lt_of_lt_of_eq t.isLt (by decide))] at f
    bv_omega

/-- JobLoad: the image of `wit_image_opens` in its envelope, a length too short by one, an envelope of a wrong version; a descriptor outside the region. The checks of
a body that passes are `body0_ok`; one with a wrong magic fails them. -/
theorem wit_job_load (rest : List Byte) (h : rest.length = 17168) :
    Accepted (.jobLoad (hd 3 16) loadReq ext0) (loadedWith (imageHeader 1 0x4300) rest) ∧
    bulkOk (hd 3 16) loadReq (accept (hd 3 16) (loadedWith (imageHeader 1 0x4300) rest)) = true ∧
    envelopeAt (bulkData loadReq (accept (hd 3 16) (loadedWith (imageHeader 1 0x4300) rest))) = ⟨1, 9, 0x4300⟩ ∧
    envelopeAt (bulkData loadReq (accept (hd 3 16) (loadedWith (imageHeader 2 0x4300) rest))) = ⟨2, 9, 0x4300⟩ ∧
    envelopeFault (accept (hd 3 16) loadable) 3 17200 ⟨1, 9, 0x4300⟩ = none ∧
    (envelopeFault (accept (hd 3 16) loadable) 3 17199 ⟨1, 9, 0x4300⟩).isSome = true ∧
    (envelopeFault (accept (hd 3 16) loadable) 3 17200 ⟨2, 9, 0x4300⟩).isSome = true ∧
    Mem.write [] 0 bodyBytes = body0 ∧ bodyBytes.length = 0x4300 ∧
    isOk (checkImage (Mem.set body0 0 0#8) loader3 0x4300 [] (accept (hd 3 16) loadable)) = false ∧
    bulkOk (hd 3 16) ⟨64#64, 7864320#32⟩ (accept (hd 3 16) loadable) = false ∧ bulkOk (hd 3 16) ⟨32#64, 64#32⟩ (accept (hd 3 16) loadable) = false := by
  have j : ∀ m row, judge (hd 3 16) row (withData m loadable) = judge (hd 3 16) row loadable := fun _ _ => rfl
  have c : ∀ m, bulkOk (hd 3 16) loadReq (accept (hd 3 16) (withData m loadable)) = bulkOk (hd 3 16) loadReq (accept (hd 3 16) loadable) := fun _ => rfl
  refine ⟨?_, ?_, ?_, ?_, ?_, ?_, ?_, body_written, ?_, ?_, ?_, ?_⟩
  · simp only [Accepted, commandRow, loadedWith, holding, j]
    decide +kernel
  · unfold loadedWith holding
    rw [c]; decide +kernel
  · rw [loaded_data (header_length 1 0x4300) h, envelope_of 1 0x4300 (by decide) (by decide)]
  · rw [loaded_data (header_length 2 0x4300) h, envelope_of 2 0x4300 (by decide) (by decide)]
  · decide +kernel
  · decide +kernel
  · decide +kernel
  · simp only [bodyBytes, List.length_append, List.length_replicate]
    rw [show (Mem.read body0 0 0x180).length = 0x180 by decide +kernel]
  · decide +kernel
  · decide +kernel
  · decide +kernel

def slot0 : SlotDef := ⟨0, 128, 2, false, 0, 0, 0⟩

/-- JobStart: a job whose plots stand, one whose plot is no longer mapped; a slot. -/
theorem wit_job_start :
    acceptedB (.jobStart (hd 3 0)) (loaded3 .loaded) = true ∧ startFault (accept (hd 3 0) (loaded3 .loaded)) = none ∧
    (startFault (mapFlds (fun _ => []) (loaded3 .loaded))).isSome = true ∧ (plotOf (loaded3 .loaded) 0).assigned = true ∧
    Tab.find ({ Slice.empty with slots := [(63, slot0)] } : Slice).slots 63 = some slot0 := by (repeat' apply And.intro) <;> decide +kernel

/-- JobDrainAndUnload: running, draining with all quiet and with a tile under way, loaded. -/
theorem wit_job_drain_unload :
    acceptedB (.jobDrain (hd 2 0)) (loaded3 .running) = true ∧ (loaded3 .running).ctl.mode = .running ∧ (loaded3 .draining).ctl.mode = .draining ∧
    jobQuiet (loaded3 .draining) = true ∧ jobQuiet (updSlice 0 0 (fun sl => { sl with confirm := some 0 }) (loaded3 .draining)) = false ∧
    ready.ctl.mode ≠ .draining ∧ acceptedB (.jobUnload (hd 3 0)) (loaded3 .loaded) = true ∧ (loaded3 .loaded).job.loaded = true := by
  (repeat' apply And.intro) <;> decide +kernel

/-! ## Plots and the fault ladder -/

def fencedPlot (pinned : Bool) : State :=
  updField 0 (fun v => { v with fenceDue := [.plot 0] })
    (updPlot 0 (fun pl => { pl with fencedBy := 3, stopped := true, pinned := pinned }) (loaded3 .running))

/-- PlotCommands: both policies, a plot that may be pinned, one whose re-placement has begun and one whose turn is still to come, a plot to fence, a position without an
assigned plot, alone and behind another fence. -/
theorem wit_plot_commands :
    acceptedB (.plotPolicySet (hd 1 8) 2#64) (loaded3 .ready) = true ∧ (loaded3 .ready).ctl.policyFull = decide ((0#64 : U64) ≠ 0#64) ∧
    (loaded3 .ready).ctl.policyFull ≠ decide ((2#64 : U64) ≠ 0#64) ∧ acceptedB (.plotPin (hd 3 8) 0#64) (loaded3 .running) = true ∧
    ownPlot (hd 3 8) 0 (accept (hd 3 8) (loaded3 .running)) = true ∧ (fieldOf (loaded3 .running) 0).fenceDue.head? ≠ some (.plot 0) ∧
    acceptedB (.plotPin (hd 3 8) 0#64) (fencedPlot false) = true ∧ acceptedB (.plotUnpin (hd 3 8) 0#64) (fencedPlot false) = true ∧
    acceptedB (.plotFence (hd 1 8) 0#64) (fencedPlot false) = true ∧ (fieldOf (fencedPlot false) 0).fenceDue.head? = some (.plot 0) ∧
    (fieldOf (updField 0 (fun v => { v with fenceDue := [.core 3 4 0x0103, .plot 0] }) (fencedPlot false)) 0).fenceDue.head? ≠ some (.plot 0) ∧
    acceptedB (.plotUnpin (hd 3 8) 0#64) (loaded3 .loaded) = true ∧ ownPlot (hd 3 8) 0 (accept (hd 3 8) (loaded3 .loaded)) = true ∧
    acceptedB (.plotFence (hd 1 8) 59#64) (loaded3 .running) = true ∧ assignable (loaded3 .running) 59 = true ∧
    (fieldOf (loaded3 .running) 0).fenced = false ∧ ((fieldOf (loaded3 .running) 0).entry 0).posState ≤ 1 ∧ plotAtPos (loaded3 .running) 0 0 = some 0 ∧
    (plotOf (loaded3 .running) 0).fencedBy = 0 ∧ (plotOf (loaded3 .running) 0).assigned = true ∧ (fieldOf (loaded3 .running) 0).fenceDue = [] ∧
    ((fieldOf (loaded3 .running) 0).entry 1).posState ≤ 1 ∧ plotAtPos (loaded3 .running) 0 1 = some 1 ∧ (plotOf (loaded3 .running) 1).fencedBy = 0 ∧
    (plotOf (loaded3 .running) 1).assigned = false ∧ plotAtPos (loaded3 .running) 0 60 = none ∧
    .position 1 ∉ (fieldOf (fencedPlot false) 0).fenceDue ∧ (fieldOf (fencedPlot false) 0).fenceDue = .plot 0 :: [] := by (repeat' apply And.intro) <;> decide +kernel

/-- PlotReplacement: a pinned plot, the FULL policy, every HELD position bad, a double-bit error in the control state, a HELD position that passes. -/
theorem wit_plot_replacement :
    ((plotOf (fencedPlot true) 0).fencedBy ≠ 0 ∧ (plotOf (fencedPlot true) 0).assigned = true ∧ assignable (fencedPlot true) 0 = true ∧
      (fieldOf (fencedPlot true) (fieldOfPlot 0)).fenced = false ∧ (plotOf (fencedPlot true) 0).pinned = true) ∧
    (plotOf (fencedPlot false) 0).pinned = false ∧ (fencedPlot false).ctl.policyFull = false ∧
    (mapCtl (fun c => { c with policyFull := true }) (fencedPlot false)).ctl.policyFull = true ∧
    (chooseTarget 0 (plotPosition (fencedPlot false) 0) { replace0 with badTargets := [60, 61, 62, 63] } 64 (fencedPlot false)).2 = none ∧
    (chooseTarget 0 (plotPosition (fencedPlot false) 0) replace0 64 (fencedPlot false)).2.isSome = true ∧
    (plotOf (loaded3 .running) 0).fencedBy = 0 ∧ plotPosition (fencedPlot false) 0 ≠ 60 ∧
    (fieldOf (fencedPlot false) 0).fenceDue = .plot 0 :: [] ∧ (trellisOf (fencedPlot false) 0).pools = [] ∧ (trellisOf (fencedPlot false) 0).stalled = [] ∧
    (fieldOf (loaded3 .running) 0).fenceDue.head? ≠ some (.plot 0) := by (repeat' apply And.intro) <;> decide +kernel

def due : State := updField 0 (fun v => { v with fenceDue := [.core 3 4 0x0103] }) (loaded3 .running)

/-- CoreSlide: a core with a finding and one without, one that has gone; a half-row with its spare and one without. -/
theorem wit_core_slide :
    inService due = true ∧ coreLive due 0 3 4 = true ∧ (fieldOf due 0).coreFenced 3 4 = true ∧ (fieldOf due 0).fenceDue = .core 3 4 0x0103 :: [] ∧
    (fieldOf due 0).coreFenced 33 31 = false ∧ (fieldOf due 0).fenceDue.head? = some (.core 3 4 0x0103) ∧ coreLive due 0 33 31 = true ∧ coreLive due 8 0 0 = false ∧
    inService (inMode .boot) = false ∧ (let r := (fieldOf due 0).slideRow 4
      r.lost (eastHalf 3) = false ∧ r.code (eastHalf 3) = 31 ∧ slide0.spareOk = true ∧ slide0.readable = true ∧ (3 : Nat) ≠ 16 ∧ (3 : Nat) ≠ 17) ∧
    (let r := (fieldOf (updField 0 (fun v => { v with slide := [(4, ⟨5, false, 31, false⟩)] }) due) 0).slideRow 4
     r.lost (eastHalf 3) = false ∧ r.code (eastHalf 3) ≠ 31) := by (repeat' apply And.intro) <;> decide +kernel

/-- CoreSlide: a core of a LOST half-row. -/
theorem wit_lost_half_row :
    ((fieldOf (updField 0 (fun v => { v with slide := [(4, ⟨31, true, 31, false⟩)] }) due) 0).slideRow 4).lost (eastHalf 3) = true := by decide +kernel

/-- The fence of another core, and no plot's, stands first. -/
theorem wit_due_head : (∀ cause, (fieldOf due 0).fenceDue.head? ≠ some (.core 33 31 cause)) ∧ (∀ p, (fieldOf due 0).fenceDue.head? ≠ some (.plot p)) := by
  rw [show (fieldOf due 0).fenceDue.head? = some (.core 3 4 0x0103) by decide +kernel]
  exact ⟨fun _ h => by simp at h, fun _ h => by simp at h⟩

/-- A field with margins that warn: 10,001 corrected events of stack 31 within the hour, 449 spare pages of one of its pseudo-channels gone, a spare bank in use. -/
def worn : State := mapHbm (fun h => { h with sparesGone := List.replicate 449 ⟨992, 515584⟩, banks := [⟨993, 5⟩] })
  (updField 7 (fun v => { v with corrected := [(31, List.replicate 10001 0#64)] }) (loaded3 .running))

/-- SlackProbesWarnings: 25, 24, 10 and 9 ps; a third low probe; counted margins past their thresholds; values of the first and the last kind that meet their
conditions, one that does not, a kind that the rule does not list, a margin that has not held for its time, an object past the last. -/
theorem wit_slack_probes_warnings :
    inService (loaded3 .running) = true ∧ assignable (loaded3 .running) 0 = true ∧ (25 : Int) ≤ 25 ∧ ((10 : Int) ≤ 24 ∧ (24 : Int) < 25) ∧ (9 : Int) < 10 ∧
    assignable (loaded3 .running) 511 = false ∧ (loaded3 .running).ctl.mode ∈ served ∧ (fieldOf (loaded3 .running) (31 / 4)).fenced = false ∧
    (let s := updStack 31 (fun k => { k with lowRead := 2, lowWrite := 2 }) (loaded3 .running)
     3 ≤ (stackOf s 31).lowRead + 1 ∧ 3 ≤ (stackOf s 31).lowWrite + 1 ∧ warnHeld s 0x08 31 = false) ∧
    10000 < ceLastHour worn 31 ∧ minSpares worn 31 < 64 ∧ 0 < spareBanksUsed worn 31 ∧
    (warnMet 0x01 127 (warnThreshold 0x01 127 0 + 1) = true ∧ warnHeld ready 0x01 127 = true ∧ 127 < warnObjects 0x01 ∧ ownMargin ready 0x01 127 = none) ∧
    (warnMet 0x0D 0 (-1) = true ∧ ownMargin ready 0x0D 0 = none ∧ warnMet 0x0D 0 1000 = false ∧ warnObjects 0x0D ≤ 512 ∧ warnMet 0x11 0 1000 = false) ∧
    (warnMet 0x0A 31 ((ownMargin worn 0x0A 31).getD 0) = true ∧ warnMet 0x10 7 ((ownMargin ready 0x10 7).getD 99) = false) ∧
    ready.health.any (fun w => w.kind = 1 && w.object = 0) = false ∧
    (mapHealth (fun _ => [⟨1, 4, 0, 5, 4, 0#64, 0#64⟩]) ready).health.any (fun w => w.kind = 1 && w.object = 0) = true := by
  (repeat' apply And.intro) <;> decide +kernel

/-- FieldFenceAndBridge: fields 0 and 7, causes 1 and 5, a fenced field and a cause of the boot, a region of the field; bridge 9 up, down, and out of range. -/
theorem wit_field_fence_bridge :
    inService (loaded3 .running) = true ∧ (inMode .train).ctl.mode = .train ∧ (inMode .sealed).ctl.mode = .sealed ∧
    (fieldOf (loaded3 .running) 7).fenced = false ∧ (1 ≤ 5 ∧ 5 ≤ 5) ∧ 5 < 6 ∧ (fieldOf (updField 7 (fun v => { v with fenced := true }) ready) 7).fenced = true ∧
    (regionOf (tenants 1) 0).map (fun r => r.usesField 0) = some true ∧ ready.ctl.mode ≠ .running ∧ (loaded3 .running).ctl.mode = .running ∧
    ready.ctl.mode ∈ served ∧ Tab.get ready.bridges 9 false = false ∧ Tab.get (mapBridges (fun _ => [(9, true)]) ready).bridges 9 false = true ∧
    (inMode .boot).ctl.mode ∉ served := by (repeat' apply And.intro) <;> decide +kernel

def chunked (cuts : Nat) : State := updCore 0 33 31 (fun c => { c with chunk := some (0#64, 50, false), cuts := cuts }) (loaded3 .running)

/-- FieldTestChunks: a core outside the job whose turn it is and one whose turn it is not, a job core with a gap to use and one without, a core that has gone, a
core with a chunk that ends, a third and a fourth cut, a retest. -/
theorem wit_field_test_chunks :
    inService (loaded3 .running) = true ∧ coreLive (loaded3 .running) 0 0 4 = true ∧
    (fieldOf (loaded3 .running) 0).coreFenced 0 4 = false ∧ chunkRoom (loaded3 .running) 0 0 4 = true ∧
    (chunkLength (loaded3 .running) 0 0 4).isSome = true ∧ jobSlice (loaded3 .running) 0 0 4 = none ∧ testTurn (loaded3 .running) 0 0 4 = true ∧
    coreLive (loaded3 .running) 0 33 31 = true ∧ jobSlice (loaded3 .running) 0 33 31 = none ∧ testTurn (loaded3 .running) 0 33 31 = false ∧
    jobSlice (loaded3 .running) 0 1 1 = some (0, 5) ∧ chunkLength (loaded3 .running) 0 1 1 = none ∧
    (let s := updSlice 0 5 (fun sl => { sl with gaps := [60, 60, 60, 60, 60, 60, 60, 60] }) (mapCtl (fun c => { c with localTime := 25#64 }) (loaded3 .running))
     (chunkLength s 0 1 1).isSome = true ∧ chunkRoom s 0 1 1 = true) ∧
    coreLive (loaded3 .running) 0 34 0 = false ∧ chunkRoom (chunked 0) 0 33 31 = false ∧
    (fieldOf due 0).coreFenced 3 4 = true ∧ inService (inMode .boot) = false ∧
    (coreTest (chunked 0) 0 33 31).chunk = some (0#64, 50, false) ∧ 3 ≤ (coreTest (chunked 3) 0 33 31).cuts := by (repeat' apply And.intro) <;> decide +kernel


/-! ## Optical links -/

def up0 : Port := { Port.empty with pstate := 0, reason := 0, active := 0xFF#8, qualified := 0xFF#8, laneMask := 0xFF#8, partnerSerial := 7#96, lasers := 0xFF#8 }
def portAt (i : Nat) (p : Port) (s : State) : State := { s with links := [(i, p)] }
def unsettled : State := portAt 15 { Port.empty with pstate := 3 } (inMode .train)
def narrowMasks : List (BitVec 8) := [0x01#8, 0x03#8, 0x7F#8, 0xFF#8]
/-- Saved settings for port 15 with a qualified mask, and a fast start. -/
def savedFor (q : BitVec 8) : State :=
  mapFlash (fun fl => { fl with portSettings := [(15, ⟨[], fwSeries, 0#96, 7#96, 8, q, true⟩)] }) (mapCtl (fun c => { c with fastStart := true }) unsettled)

/-- PortTraining: a port that trains, with 1, 2, 7 and 8 lanes, with and without FORBID_DROP; a port that has settled; a late partner, a port down
for another reason. -/
theorem wit_port_training :
    unsettled.ctl.mode = .train ∧ (portOf unsettled 15).pstate = 3 ∧
    narrowMasks.map (fun m => widthOf (laneCount (trained false { train0 with partnerMask := m }).2.2)) = [0, 2, 6, 8] ∧
    lanes0.all (laneQualifies fullBits) = true ∧ laneQualifies 100000 { lane0 1 with corrected := 1, rxPower := 500 } = true ∧
    laneQualifies 99999 { lane0 1 with corrected := 1 } = false ∧ laneQualifies fullBits { lane0 1 with rxPower := -701 } = false ∧
    laneQualifies fullBits (lane0 0) = false ∧ laneQualifies fullBits { lane0 1 with uncorrectable := 1 } = false ∧ bit unsettled.flash.forbidDrop.toNat 15 = false ∧
    bit (mapFlash (fun fl => { fl with forbidDrop := 0x8000#16 }) unsettled).flash.forbidDrop.toNat 15 = true ∧
    (portOf (inMode .train) 15).pstate ≠ 3 ∧ ready.ctl.mode ∈ active ∧
    ((portOf (portAt 0 { Port.empty with reason := 5 } ready) 0).pstate = 2 ∧ (portOf (portAt 0 { Port.empty with reason := 5 } ready) 0).reason = 5) ∧
    (portOf ready 0).reason ≠ 5 ∧ (inMode .train).ctl.mode ∉ active ∧ (portOf (portAt 0 up0 ready) 0).pstate ≠ 2 ∧
    (savedTrusted (savedFor 0xFF#8) 15 7#96).any (fun v => v.qualified &&& (trained true { train0 with quick := lanes0, quickMask := 0xFF#8 }).2.2 = v.qualified)
      = true ∧
    (savedTrusted (savedFor 0xFF#8) 15 7#96).any (fun v => v.qualified &&& (trained true train0).2.2 = v.qualified) = false ∧
    (savedTrusted (savedFor 0xFF#8) 15 7#96).isSome = true ∧ (savedFor 0xFF#8).ctl.mode = .train ∧ (portOf (savedFor 0xFF#8) 15).pstate = 3 := by (repeat' apply And.intro) <;> decide +kernel

/-- A flit with its CRC. -/
def sealed (f : Flit) : Flit := { f with crc := crc32 (flitBody f) }
def tx (resent : Nat) : TxFlit := ⟨1, 0, 0, 0, true, .pkt pkt0, resent⟩
def linked : State := portAt 0 up0 ready

/-- FlitsAndReplay: a good flit in order, one with no buffer free, the last one again, one ahead on a free lane and on one that holds a flit already, one while the
port drops, one half the numbers ahead, one with a bad CRC; flits of the host class, of a packet and of a packet that would pass on without a hop left, on a
refused port; a control word with and without its check; acknowledgements of none, all and more than all flits; flits at seven and eight
resends; an alignment block of an active lane from the partner, from another module, and with another marker. -/
theorem wit_flits_and_replay :
    (portOf linked 0).carries = true ∧ (portOf ready 0).carries = false ∧ flit0.ftype ≠ 0 ∧ flitGood (sealed flit0) = true ∧ flitGood flit0 = false ∧
    ((sealed flit0).seq + 2 ^ 20 - (portOf linked 0).rxSeq) % 2 ^ 20 = 1 ∧ Tab.get (portOf linked 0).rxUsed 0 0 < classBuffers 0 ∧
    classBuffers 0 ≤ Tab.get (portOf (portAt 0 { up0 with rxUsed := [(0, 8192)] } ready) 0).rxUsed 0 0 ∧
    flitGood (sealed { flit0 with seq := 0 }) = true ∧ (0 + 2 ^ 20 - (portOf linked 0).rxSeq) % 2 ^ 20 = 0 ∧
    flitGood (sealed { flit0 with seq := 2 }) = true ∧ (2 + 2 ^ 20 - (portOf linked 0).rxSeq) % 2 ^ 20 = 2 ∧ (portOf linked 0).rxHeld = [] ∧
    (∃ g ∈ (portOf (portAt 0 { up0 with rxHeld := [{ flit0 with seq := 3 }] } ready) 0).rxHeld, g.lane = flit0.lane) ∧
    (portOf linked 0).dropping = false ∧ (portOf (portAt 0 { up0 with dropping := true } ready) 0).dropping = true ∧
    2 ^ 19 ≤ (2 ^ 19 + 2 ^ 20 - (portOf linked 0).rxSeq) % 2 ^ 20 ∧ (portOf linked 0).hostRole = false ∧ (portOf linked 0).hostReason = 0 ∧
    (portOf (portAt 0 { up0 with hostReason := 2 } ready) 0).hostReason ≠ 0 ∧ flit0.hops ≠ 0 ∧ flit0.cls ≠ 3 ∧ flit0.ftype = 1 ∧
    ((member5 linked).mesh.addr = some 0x0045#16 ∧ 0x0045#16 ≠ flit0.dest) ∧ flitType { flit0 with payload := [0x01#8] } ⟨[], 0⟩ ≠ 0x20 ∧
    ({ ctrl0 with crc := crc16 (controlBody ctrl0) } : CtrlWord).crc = crc16 (controlBody ctrl0) ∧ ctrl0.crc ≠ crc16 (controlBody ctrl0) ∧
    (let p := { up0 with replay := [tx 0, tx 0] }
     (2 + 2 ^ 20 - p.ackSeq) % 2 ^ 20 ≤ p.replay.length ∧ 1 ≤ (2 + 2 ^ 20 - p.ackSeq) % 2 ^ 20 ∧ (0 + 2 ^ 20 - p.ackSeq) % 2 ^ 20 = 0 ∧
     p.replay.length < (3 + 2 ^ 20 - p.ackSeq) % 2 ^ 20) ∧
    (portOf (portAt 0 { up0 with replay := [tx 8] } ready) 0).replay ≠ [] ∧ (∃ f ∈ (portOf (portAt 0 { up0 with replay := [tx 7, tx 8] } ready) 0).replay, 8 ≤ f.resent) ∧
    (∀ f ∈ (portOf (portAt 0 { up0 with replay := [tx 7] } ready) 0).replay, f.resent < 8) ∧ (portOf linked 0).replay = [] ∧
    (portOf linked 0).remaining ≠ 0#8 ∧ (tx 0).item = .pkt pkt0 ∧
    bit (portOf linked 0).active.toNat 7 = true ∧ align0.senderSerial = (portOf linked 0).partnerSerial ∧
    ({ align0 with marker := 0x3C5AE1960FF0A55A#64 } : AlignBlock).marker = 0x3C5AE1960FF0A55A#64 ∧ align0.marker ≠ 0x3C5AE1960FF0A55A#64 ∧
    [(flit0, ctrl0)].length ≤ 2125 ∧ (∀ e ∈ [(flit0, ctrl0)], e.1.payload.length ≤ 236) ∧
    ({ align0 with senderSerial := 8#96 } : AlignBlock).senderSerial ≠ (portOf linked 0).partnerSerial ∧ bit (portOf linked 0).active.toNat 8 = false := by
  (repeat' apply And.intro) <;> decide +kernel

def narrow0 : Port := { up0 with pstate := 1, active := 0x03#8, lanes := [⟨(lane0 1).settings, 0, 0, [0#64, 0#64, 0#64], 0, 0, 0⟩] }

/-- LanesWidthTime: lanes that leave a width and lanes that leave none, all of them, with FORBID_DROP, a port with a flit sent 8 times again; the limits of codewords and
bits; a pending change whose lanes stand, and none. -/
theorem wit_lanes_width_time :
    (portOf linked 0).carries = true ∧ (portOf linked 0).remaining &&& 0x80#8 ≠ 0#8 ∧ (portOf linked 0).forbidDrop = false ∧ (portOf linked 0).spent = false ∧
    widthOf (laneCount ((portOf linked 0).active &&& ((portOf linked 0).laneMask &&& ~~~((portOf linked 0).remaining &&& 0x3F#8)))) = 2 ∧
    widthOf (laneCount ((portOf linked 0).active &&& ((portOf linked 0).laneMask &&& ~~~((portOf linked 0).remaining &&& 0x7F#8)))) = 0 ∧
    (portOf linked 0).active &&& ((portOf linked 0).laneMask &&& ~~~((portOf linked 0).remaining &&& 0xFF#8)) = 0#8 ∧
    (portOf (portAt 0 { up0 with forbidDrop := true } ready) 0).forbidDrop = true ∧ (portOf (portAt 0 narrow0 ready) 0).remaining &&& 0x04#8 = 0#8 ∧
    laneFails (.bits 4480000) ⟨(lane0 1).settings, 0, 0, [], 0, 0, 0⟩ = false ∧ laneFails (.bits 4480001) ⟨(lane0 1).settings, 0, 0, [], 0, 0, 0⟩ = true ∧
    laneFails (.codewords 1) (countFault 25000#64 (.codewords 1) ⟨(lane0 1).settings, 0, 0, [0#64, 1#64, 2#64], 0, 0, 0⟩) = true ∧
    laneFails (.codewords 1) (countFault 25001#64 (.codewords 1) ⟨(lane0 1).settings, 0, 0, [0#64, 1#64, 2#64], 0, 0, 0⟩) = false ∧
    (let p := portOf (portAt 0 { up0 with changeFrame := some 9, nextActive := 0x3F#8 } ready) 0
     p.carries = true ∧ p.changeFrame = some 9 ∧ p.nextActive &&& p.laneMask = p.nextActive) ∧
    ((8 : Nat) = 8 ∧ (9 : Nat) = 8 + 1 ∧ (8 : Nat) + 1 < 10) ∧
    (portOf linked 0).changeFrame = none ∧ (portOf ready 0).carries = false := by (repeat' apply And.intro) <;> decide +kernel

/-! ## Mesh -/

/-- The first 252 bytes of an identity record (R387, R388). -/
def idBody (kind a b : Nat) : List Byte :=
  lay [(4, 0x44495844), (1, kind), (1, 1), (2, 0)] ++ List.replicate 24 0#8 ++ lay [(2, a), (2, b)] ++ List.replicate 216 0#8

/-- CRC-32 of 252 bytes, in four parts so that no evaluation is deep. -/
theorem crc32_parts {l : List Byte} {a b c d : Nat} (h1 : (l.take 63).foldl crc32Byte 0xFFFFFFFF = a)
    (h2 : ((l.drop 63).take 63).foldl crc32Byte a = b) (h3 : ((l.drop 126).take 63).foldl crc32Byte b = c)
    (h4 : (l.drop 189).foldl crc32Byte c = d) : crc32 l = BitVec.ofNat 32 (d ^^^ 0xFFFFFFFF) := by
  have e : l = l.take 63 ++ ((l.drop 63).take 63 ++ ((l.drop 126).take 63 ++ l.drop 189)) := by
    have := List.take_append_drop 63 (l.drop 126)
    have := List.take_append_drop 63 (l.drop 63)
    simp_all
  unfold crc32
  rw [e, List.foldl_append, List.foldl_append, List.foldl_append, h1, h2, h3, h4]

/-- The record of a host adapter on port 3. -/
def adapterRec : List Byte := idBody 5 3 0 ++ le 4 0x2364DDB6

theorem adapter_crc : crc32 (adapterRec.take 0xFC) = 0x2364DDB6#32 := by
  rw [show adapterRec.take 0xFC = idBody 5 3 0 by decide +kernel]
  exact crc32_parts (a := 0x1EC58AD1) (b := 0xA131A3B7) (c := 0x0371D396) (d := 0xDC9B2249) (by decide +kernel) (by decide +kernel) (by decide +kernel) (by decide +kernel)

/-- The record of a carrier with group hint 9. -/
def carrierRec : List Byte := idBody 1 0 0x8009 ++ le 4 0xFB4F7EEA

theorem carrier_crc : crc32 (carrierRec.take 0xFC) = 0xFB4F7EEA#32 := by
  rw [show carrierRec.take 0xFC = idBody 1 0 0x8009 by decide +kernel]
  exact crc32_parts (a := 0x64893021) (b := 0x3952C1C4) (c := 0xEAA11543) (d := 0x04B08115) (by decide +kernel) (by decide +kernel) (by decide +kernel) (by decide +kernel)

theorem idRecord_of {s : State} {i : Nat} {b : List Byte} {v : U32} (h : Tab.find s.ctl.ids i = some b) (c : crc32 (b.take 0xFC) = v)
    (o : (b.length = 256 && numAt b 0 4 = 0x44495844 && numAt b 4 1 = idKind i && numAt b 5 1 = 1 && numAt b 0xFC 4 = v.toNat) = true) :
    idRecord s i = some b := by
  simp only [idRecord, h, idValid, c]
  rw [if_pos o]

def waiting (allowed : Nat) (ids : Tab (List Byte)) (lower : Bool) : State :=
  { burn 3 allowed true ready with
    ctl := { ready.ctl with ids := ids }
    links := [(0, { Port.empty with hostRole := lower }), (3, { up0 with hostWait := true })] }
def rootWaits (m : Flash → Flash) (fast : Bool) (ids : Tab (List Byte)) : State :=
  mapFlash m { inMode .train with
    ctl := { (inMode .train).ctl with fastStart := fast, ids := ids }, mesh := { Mesh.empty with root := true, settled := true } }

def adapter3 (lower : Bool) : State := waiting 1 [(6, adapterRec)] lower

theorem adapter_port (lower : Bool) : hostAdapterPort (adapter3 lower) = some 3 := by
  rw [hostAdapterPort, idRecord_of (s := adapter3 lower) (i := 6) (b := adapterRec) rfl adapter_crc (by decide +kernel)]
  decide +kernel

theorem carrier_hint (m : Flash → Flash) (fast : Bool) : idRecord (rootWaits m fast [(0, carrierRec)]) 0 = some carrierRec ∧
    groupHint (rootWaits m fast [(0, carrierRec)]) = some 9 := by
  have h := idRecord_of (s := rootWaits m fast [(0, carrierRec)]) (i := 0) (b := carrierRec) rfl carrier_crc (by decide +kernel)
  exact ⟨h, by rw [groupHint, h]; decide +kernel⟩

/-- HostRoleAndAddress: a HELLO that is taken and one refused for each reason; a port that does not wait; the wait for a group with the saved one, with the
hint of the carrier and with neither; the wait for a claim; a claim of an unaddressed module, of an addressed one and of a root. -/
theorem wit_host_role_address :
    (portOf (adapter3 false) 3).carries = true ∧ (portOf (adapter3 false) 3).hostWait = true ∧ helloFault (waiting 0 [] false) 3 = some 1 ∧
    helloFault (waiting 1 [] false) 3 = some 2 ∧ otpValue (adapter3 false) 3 = 1 ∧
    (∃ e ∈ (adapter3 true).links, e.1 < 3 ∧ e.2.hostRole = true) ∧ (∀ e ∈ (adapter3 false).links, e.1 < 3 → e.2.hostRole = false) ∧
    (portOf linked 0).hostWait = false ∧ ready.mesh.root = false ∧ hostAdapterPort (waiting 1 [] false) ≠ some 3 ∧
    (let s := rootWaits (fun fl => { fl with savedGroup := some (9, carrierRec) }) true [(0, carrierRec)]
     s.ctl.mode = .train ∧ s.mesh.root = true ∧ s.mesh.settled = true ∧ s.mesh.addr = none ∧ s.flash.savedGroup = some (9, carrierRec) ∧
     s.ctl.fastStart = true) ∧
    (rootWaits id false [(0, carrierRec)]).flash.savedGroup = none ∧ groupHint (rootWaits id false []) = none ∧ ready.ctl.mode ≠ .train ∧
    (training.ctl.mode = .train ∧ training.mesh.root = false ∧ training.mesh.settled = true ∧ training.mesh.claimed = false) ∧
    (linked.mesh.claimed = false ∧ linked.mesh.addr = none) ∧ (member5 linked).mesh.addr ≠ none ∧ (portOf (rooted linked) 0).carries = true ∧
    (rooted linked).mesh.root = true := by (repeat' apply And.intro) <;> decide +kernel

/-- The same, where the records' checks count: the HELLO on the port that the record names is taken. -/
theorem wit_hello_taken : helloFault (adapter3 false) 3 = none ∧ helloFault (adapter3 true) 3 = some 3 := by
  unfold helloFault
  rw [adapter_port, adapter_port]
  decide +kernel

def enumerating (n : Nat) : State := { meshed with mesh := { meshed.mesh with enumAt := some (5, 2), nextMember := n } }

/-- A module with a packet that has come in by port 2, of three flits. -/
def took (p : Pkt) (s : State) : State := { s with mesh := { s.mesh with inbox := [⟨2, 3, p⟩] } }

/-- GroupManagement: an inbox that holds a packet sought and one that does not; a partner in the same group and one in another; an offered address that fits
16 bits and the first that does not; the answer that a root waits for and another one, with the last free member and with none; a member that passes answers
up, its own and another's; a path of ports and its end; a root and an unaddressed module; the last row of a member table. -/
theorem wit_group_management :
    (took pkt0 meshed).mesh.inbox.find? (fun a => decide (a.pkt = pkt0)) = some ⟨2, 3, pkt0⟩ ∧
    meshed.mesh.inbox.find? (fun a => decide (a.pkt = pkt0)) = none ∧
    ownMember (member5 linked) 5 = true ∧ ownMember (member5 linked) 4 = false ∧ 0x0045 / 64 = memberAddr meshed 0 / 64 ∧
    0x0080 / 64 ≠ memberAddr meshed 0 / 64 ∧ 0xFFFF ≤ 0xFFFF ∧ 0xFFFF < 0x10000 ∧ (5 : Nat) ≠ 0 ∧
    (enumerating 63).mesh.nextMember ≤ 63 ∧ 63 < (enumerating 64).mesh.nextMember ∧ (enumerating 64).mesh.enumAt = some (5, 2) ∧
    (enumerating 63).mesh.root = true ∧ (enumerating 63).mesh.enumAt = some (5, 2) ∧ (enumerating 63).mesh.enumAt ≠ some (5, 3) ∧
    (enumerating 63).mesh.addr.isSome = true ∧ (member5 linked).mesh.root = false ∧ (member5 linked).mesh.addr.isSome = true ∧
    (portOf (member5 linked) 0).carries = true ∧ (portOf (member5 linked) 0).partnerMesh = none ∧ (portOf (member5 linked) 0).hostAdapter = false ∧
    linked.mesh.addr = none ∧ (63 < 64) ∧ nth (List.replicate 64 0x0001#16) 63 0#16 = 0x0001#16 ∧ meshed.mesh.enumAt ≠ some (5, 2) := by
  (repeat' apply And.intro) <;> decide +kernel

def away (hops : Nat) : Pkt := { pkt0 with dest := 0x0045#16, hops := hops }

/-- A relayed record for a mailbox: its number, then the record (R278). -/
def relayedTo (mb : Nat) : Pkt := { away 1 with ptype := 0x22, body := BitVec.ofNat 8 mb :: List.replicate 32 0#8 }
/-- A mailbox whose ring has no room. -/
def fullBox (s : State) : State := { s with mbx := { s.mbx with boxes := [(3, { Mailbox.empty with reqTail := ringSize - 1 })] } }

/-- PacketsForwarded: a packet for this module, one before an address, one without a hop left, with one, without a route; host packets at a root for a member
of its group, for itself, for another group, and at a member; relays at a member and at a root, for it and for another; a mailbox that is not served, one with
room and one without. -/
theorem wit_packets_forwarded :
    (rooted ready).mesh.addr = some pkt0.dest ∧ ready.mesh.addr = none ∧ (0x0040#16) ≠ (away 0).dest ∧ (away 1).hops ≠ 0 ∧
    choosePort meshed (away 1).cls (away 1).dest.toNat (away 1).address (portSet meshed (away 1).dest.toNat) = some 2 ∧
    choosePort (rooted ready) (away 1).cls (away 1).dest.toNat (away 1).address (portSet (rooted ready) (away 1).dest.toNat) = none ∧
    ({ pkt0 with ptype := 0x22 } : Pkt).ptype = 0x22 ∧ (member5 ready).mesh.root = false ∧ (away 1).dest = 0x0045#16 ∧
    (member5 ready).mesh.addr = some 0x0045#16 ∧ pkt0.dest ≠ 0x0045#16 ∧ pkt0.ptype ≠ 0x22 ∧ pkt0.ptype ≠ 0x30 ∧
    ({ away 1 with ptype := 0x30 } : Pkt).ptype = 0x30 ∧ (rooted ready).mesh.root = true ∧ (away 1).dest ≠ 0x0040#16 ∧
    (away 1).dest.toNat / 64 = (0x0040#16).toNat / 64 ∧ (0x0085#16).toNat / 64 ≠ (0x0040#16).toNat / 64 ∧
    servedMailbox 31 (member5 ready) = true ∧ servedMailbox 31 (member5 (inMode .lodge)) = false ∧ (member5 (inMode .lodge)).mesh.root = false ∧
    numAt (relayedTo 31).body 0 1 = 31 ∧ ((boxOf (member5 ready) 31).enter ((relayedTo 31).body.drop 1)).isSome = true ∧
    (boxOf (fullBox (member5 ready)) 3).enter ((relayedTo 3).body.drop 1) = none ∧ (relayedTo 3).ptype = 0x22 ∧ (relayedTo 3).dest = 0x0045#16 ∧ (rooted ready).mesh.addr = some 0x0040#16 := by
  (repeat' apply And.intro) <;> decide +kernel

/-! ## Windows -/

/-- A packet whose body is a text sealed with a key (R293, R367). -/
def closedBy (key : BitVec 256) (p : Pkt) (text : List Byte) : Pkt :=
  let q := { p with body := text ++ List.replicate 16 0#8 }
  { p with body := gcmSeal (clearBytes p) key (pktIv q) (pktAad q) text }

theorem gcmSeal_length (n : Nat) (key : BitVec 256) (iv : BitVec 96) (aad bs : List Byte) : (gcmSeal n key iv aad bs).length = bs.length + 16 := by
  have l : ∀ text, (gcmTag key iv aad text).length = 16 := fun _ => le_length _ _
  simp [gcmSeal, l, gcmText_length]; omega

/-- The packet opens to the text. -/
theorem openBody_closedBy (key : BitVec 256) (p : Pkt) (b : Byte) (text : List Byte) : openBody key (closedBy key p (b :: text)) = some (b :: text) := by
  have hl : pktBytes (closedBy key p (b :: text)) = pktBytes { p with body := (b :: text) ++ List.replicate 16 0#8 } := by
    simp [pktBytes, closedBy, gcmSeal_length]; rfl
  have ha : pktAad (closedBy key p (b :: text)) = pktAad { p with body := (b :: text) ++ List.replicate 16 0#8 } := by
    unfold pktAad pktHeader; rw [hl]; rfl
  have hi : pktIv (closedBy key p (b :: text)) = pktIv { p with body := (b :: text) ++ List.replicate 16 0#8 } := by
    unfold pktIv
    split
    · next h =>
      have h' : 0x10 ≤ p.ptype := h
      have c : clearBytes p = 1 := by rw [clearBytes, if_neg (by omega), if_pos h']
      have : (closedBy key p (b :: text)).body.take 1 = [b] := by simp [closedBy, c, gcmSeal]
      have n : ∀ l : List Byte, l.take 1 = [b] → numAt l 0 1 = b.toNat := by
        intro l hl
        simp [numAt, hl, leNat]
      have e1 := n _ this
      have e2 := n ({ p with body := (b :: text) ++ List.replicate 16 0#8 } : Pkt).body rfl
      rw [if_pos (show 0x10 ≤ ({ p with body := (b :: text) ++ List.replicate 16 0#8 } : Pkt).ptype from h), e1, e2]; rfl
    · next h =>
      rw [if_neg (show ¬ 0x10 ≤ ({ p with body := (b :: text) ++ List.replicate 16 0#8 } : Pkt).ptype from h)]; rfl
  unfold openBody
  rw [ha, hi]
  exact gcmOpen_gcmSeal _ _ _ _ _

/-- A request for the bytes of window 9 at 2^23, of the given type, with a text under the window's key. -/
def ask0 : Pkt := { pkt0 with window := 9, address := 0x800000, src := 0x0041#16, dest := 0x0045#16, nonce := 1 }
def ask (type : Nat) (b : Byte) (text : List Byte) : Pkt := closedBy window0.key { ask0 with ptype := type } (b :: text)
def askedBy (p : Pkt) : State := { windowed with mesh := { windowed.mesh with inbox := [⟨3, 1, p⟩] } }
/-- The same with `n` window requests that the gateway of port 3 serves already. -/
def serving (n : Nat) (p : Pkt) : State :=
  { askedBy p with grid := [(1, { Trellis.empty with pools := List.replicate n ⟨1, .gateway 1 0, 0, 0, .slice 0 0, .window 3 ask0 true []⟩ })] }
def held0 (l : List Nat) (s : State) : State := { s with grid := [(0, { Trellis.empty with hold := l })] }
/-- Replay states for every triple that the module can hold. -/
def tripled (s : State) : State := { s with mesh := { s.mesh with replays := List.replicate replayTriples ⟨0xFFF, 0#16, false, 0, []⟩ } }
theorem full_verdict (s : State) (w : Nat) (a : U16) (r : Bool) (n : Nat) (h : w ≠ 0xFFF) : replayVerdict (tripled s) w a r n = .full := by
  have e : (tripled s).mesh.replays.find? (fun v => v.isFor w a r) = none := by
    rw [List.find?_eq_none]; intro v hv
    have : v = ⟨0xFFF, 0#16, false, 0, []⟩ := (List.mem_replicate.1 hv).2
    subst this; simp [Replay.isFor, Ne.symm h]
  unfold replayVerdict; rw [e]; simp [tripled]

theorem arrivalPort_asked (p : Pkt) : arrivalPort (askedBy p) p = 3 ∧ ∀ n, arrivalPort (serving n p) p = 3 := by
  simp [arrivalPort, askedBy, serving]

/-- The gateway of port 3 takes a request beside 2,047 others, not beside 2,048. -/
theorem gateway_takes (p : Pkt) (h : apertureOf p.address = none) :
    gatewayFull (askedBy p) p = false ∧ gatewayFull (serving 2047 p) p = false ∧ gatewayFull (serving 2048 p) p = true := by
  have k : servedAt (askedBy p) 3 = servedAt (askedBy ask0) 3 := rfl
  have k1 : servedAt (serving 2047 p) 3 = servedAt (serving 2047 ask0) 3 := rfl
  have k2 : servedAt (serving 2048 p) 3 = servedAt (serving 2048 ask0) 3 := rfl
  have v : servedAt (askedBy ask0) 3 = 0 ∧ servedAt (serving 2047 ask0) 3 = 2047 ∧ servedAt (serving 2048 ask0) 3 = 2048 := by
    (repeat' apply And.intro) <;> decide +kernel
  simp [gatewayFull, arrivalPort_asked, h, k, k1, k2, v]

/-- WindowRequestAtTarget, a packet: requests of each type open with the window's key; one that is too short to hold a tag does not; a window that is there and one that
is not, a fresh one, a replayed one and one that finds every triple taken. -/
theorem wit_window_packet (b : Byte) (text : List Byte) : let p := fun type => ask type b text
    (∀ type, openBody window0.key (p type) = some (b :: text) ∧ gatewayFull (askedBy (p type)) (p type) = false ∧
      gatewayFull (serving 2048 (p type)) (p type) = true ∧ (askedBy (p type)).mesh.addr = some (p type).dest ∧
      Tab.find (askedBy (p type)).mesh.windows (p type).window = some window0 ∧
      replayVerdict (askedBy (p type)) 9 0x0041#16 false (p type).nonce = .fresh ∧
      replayVerdict (takeNonce 9 0x0041#16 false 1 (askedBy (p type))) 9 0x0041#16 false (p type).nonce = .replayed ∧
      replayVerdict (tripled (askedBy (p type))) 9 0x0041#16 false (p type).nonce = .full) ∧
    openBody window0.key ask0 = none ∧ Tab.find (askedBy ask0).mesh.windows 8 = none ∧ ready.mesh.addr ≠ some ask0.dest := by
  refine ⟨fun type => ⟨openBody_closedBy _ _ _ _, (gateway_takes (ask type b text) rfl).1, (gateway_takes (ask type b text) rfl).2.2, rfl, rfl, rfl,
    by rfl, full_verdict _ _ _ _ _ (by decide)⟩, ?_, ?_, ?_⟩ <;> decide +kernel

def apertureWindow : State :=
  { windowed with mesh := { windowed.mesh with windows := [(9, { window0 with base := 0x400000000000, size := 4096, aperture := true, atomic := false })] } }
def gate0 (s : State) : List Leg := legsTo s 0 (portSite s 0 0 0) 0 (.slice 0 0)
/-- A full pool of the gateway of port 1, with plot 0 held. -/
def crammed (s : State) : State :=
  { s with grid := [(0, { Trellis.empty with hold := [plotPosition s 0], pools := List.replicate 2048 ⟨0, portSite s 1 0 0, 0, 0, .slice 0 0, .window 1 ask0 true []⟩ })] }

/-- WindowRequestAtTarget, the rest: the bounds of the window, a closed one, an aperture, a plot whose traffic is held and one whose is not, a full pool of its gateway; an atomic on an aligned operand and on one that is not. -/
theorem wit_window_request :
    window0.refuses 0x0041#16 window0.rd 0x800000 4096 = false ∧ window0.refuses 0x0041#16 window0.rd 0x800000 4097 = true ∧
    window0.refuses 0x0041#16 window0.wr 0x800FFF 1 = false ∧ window0.refuses 0x0041#16 window0.wr 0x801000 1 = true ∧
    ({ window0 with closed := true } : Window).refuses 0x0041#16 true 0x800000 1 = true ∧ window0.aperture = false ∧
    window0.refuses 0x0041#16 window0.atomic 0x800000 8 = false ∧ (regionAt windowed.hbm.regions 0x800000).isSome = true ∧
    (atomicFn { ask0 with w8 := true, atomicOp := 0 } (le 8 1)).isSome = true ∧ 0x800000 % widthBytes true = 0 ∧ 0x800004 % widthBytes true ≠ 0 ∧
    apertureOf 0x400000000000 = some (0, 0, 0) ∧ apertureOf 0x800000 = none ∧
    (Tab.find apertureWindow.mesh.windows 9).map (fun w => (w.aperture, w.refuses 0x0041#16 w.rd 0x400000000000 4096)) = some (true, false) ∧
    (gate0 windowed).any (keptBack windowed 0 (.slice 0 0)) = false ∧ (gate0 windowed).length = 1 ∧
    (let s := held0 [plotPosition windowed 0] windowed
     ((gate0 s).head?.map (keptBack s 0 (.slice 0 0))) = some true) ∧
    portStalls (crammed windowed) 0 (portSite (crammed windowed) 1 0 0) 0 (.slice 0 0) = true ∧
    portStalls windowed 0 (portSite windowed 1 0 0) 0 (.slice 0 0) = false := by (repeat' apply And.intro) <;> decide +kernel

/-- Requests that wait for their answers, and the window record that names their window's key. -/
def remoteWin0 : RemoteWin := ⟨0x0041, 5, true, true, true, 0, 2 ^ 32, 77#256⟩
def pendingRead : State :=
  let s := member5 (loaded3 .running)
  { s with
    job := { s.job with remotes := [remoteWin0] }
    mesh := { s.mesh with remote := [(9, ⟨0x0041#16, 5, false, 0, 32, .fill 4 0 0 0, 0, false⟩), (10, ⟨0x0041#16, 5, true, 0, 32, .commit 7, 0, false⟩),
      (11, ⟨0x0041#16, 5, false, 0, 32, .fill 4 0 0 0, 0, true⟩)] } }
def answer0 : Pkt := { pkt0 with ptype := 4, dest := 0x0045#16, src := 0x0041#16, window := 5, reqTag := 9 }
def transfer0 : Transfer := ⟨0, 0, 0, 0, 0, 0, 0, 0, none, [(0, 128)], 0, false, false, 0⟩
def commit0 (status : Nat) : Commit := ⟨0, 1, 6, 0, 0, 0, 0, 0, [(0, 64)], 0, status, false⟩
/-- A full pool of the gateway that answers for plot 0 come in by. -/
def answersStall (s : State) : State :=
  { s with grid := [(0, { Trellis.empty with
      hold := [plotPosition s 0], pools := List.replicate 2048 ⟨0, .gateway 3 (sliceCore s 0 0).2, 0, 1, .slice 0 0, .answer 8 none false false⟩ })] }
def answerLegs (s : State) : List Leg := legsTo s 0 (.gateway 3 (sliceCore s 0 0).2) 0 (.slice 0 0)

/-- WindowAnswers: an answer to another module, to no request, from another target, of another window, one that does not open and one that does; fresh,
replayed and with every triple taken; a fill whose plot is held, in room and without, and one whose plot is not; a write; an answer held already. -/
theorem wit_window_answers (b : Byte) (text : List Byte) :
    openAnswer pendingRead (closedBy 77#256 answer0 (b :: text)) = some (b :: text) ∧ openAnswer pendingRead answer0 = none ∧
    answerStalls pendingRead (closedBy 77#256 answer0 (b :: text)) = false ∧ pendingRead.mesh.addr = some (closedBy 77#256 answer0 (b :: text)).dest ∧
    replayVerdict (tripled pendingRead) 5 0x0041#16 true 1 = .full ∧ answerStalls (answersStall pendingRead) answer0 = true ∧ ready.mesh.addr ≠ some answer0.dest ∧
    (Tab.find pendingRead.mesh.remote 9).map (fun q => (q.target, q.window, q.dest, q.held)) = some (0x0041#16, 5, .fill 4 0 0 0, false) ∧
    answer0.src ≠ 0x0042#16 ∧ answer0.window ≠ 6 ∧ pendingRead.job.remotes.find? (fun w => w.target = answer0.src.toNat && w.window = answer0.window) = some remoteWin0 ∧
    (Tab.find pendingRead.mesh.remote 11).map (·.held) = some true ∧
    (Tab.find pendingRead.mesh.remote 10).map (fun q => (q.dest, q.held)) = some (.commit 7, false) ∧
    (answerLegs pendingRead).any (keptBack pendingRead 1 (.slice 0 0)) = false ∧ (answerLegs pendingRead).length = 1 ∧
    (let s := held0 [plotPosition pendingRead 0] pendingRead
     (answerLegs s).head?.map (keptBack s 1 (.slice 0 0))) = some true ∧
    Tab.find pendingRead.mesh.remote 8 = none ∧ replayVerdict pendingRead 5 0x0041#16 true 1 = .fresh ∧
    replayVerdict (takeNonce 5 0x0041#16 true 1 pendingRead) 5 0x0041#16 true 1 = .replayed ∧
    commitOf (updField 0 (fun v => { v with commits := [(7, commit0 2)] }) pendingRead) 0 7 = some (commit0 2) ∧
    transferOf (updField 0 (fun v => { v with transfers := [(4, transfer0)] }) pendingRead) 0 4 = some transfer0 := by
  have o : ∀ body, openAnswer pendingRead { answer0 with body := body } = openBody 77#256 { answer0 with body := body } := fun _ => rfl
  have a : ∀ body, answerStalls pendingRead { answer0 with body := body } = answerStalls pendingRead answer0 := fun _ => rfl
  refine ⟨(o _).trans (openBody_closedBy _ _ _ _), ?_, (a _).trans ?_, rfl, full_verdict _ _ _ _ _ (by decide), ?_⟩
  · decide +kernel
  · decide +kernel
  · (repeat' apply And.intro) <;> decide +kernel

/-! ## Channels and queues -/

def chan0 : Channel := ⟨0, false, false, false, 4, 0, 0, 0, 0, 0, 0, true, false, 0xFFFF#16, 0, 0, 0⟩
def chanIn : Channel := { chan0 with destType := 1, remoteIn := true, peerMesh := 0x0041, pqSize := 32 }
def chanOut : Channel := { chan0 with destType := 2, peerMesh := 0x0041, peerChannel := 3 }
def queue0 : Queue := { Queue.empty with isOpen := true }
def message0 (crc : U32) : QMsg := ⟨false, 0, 1, 0, List.replicate 32 0#8, crc, 1, false, 0, []⟩
def waiter0 : Waiter := ⟨0, 0, some 80, 0#16, 0#16, List.replicate 32 0#8, 0#64, 0, false⟩
/-- Channel 0 to queue 0 of slice 0, inbound 1 to plot queue 0, outbound 2. -/
def channelled (q : Queue) (l : List Waiter) (m : ModState) : State :=
  let s := updPlot 0 (fun pl => { pl with slices := [(0, { Slice.empty with queues := [(0, q)] })], queues := [(0, q)] }) (member5 (loaded3 m))
  { s with
    job := { s.job with channels := [(0, chan0), (1, chanIn), (2, chanOut)] }
    chans := [(0, { ChanState.empty with waiters := l, readers := l }), (2, { ChanState.empty with pairing := 1 })] }
def flowing : State := channelled queue0 [waiter0] .running
/-- Plot 0 held in its field. -/
def flowHeld : State := held0 [plotPosition flowing 0] flowing
/-- A message of channel `c` and a report, from the peer under the job key, to channel 0's module. -/
def message (c : Byte) (text : List Byte) : Pkt := closedBy flowing.job.jobKey { answer0 with ptype := 0x10, window := 0, nonce := 1 } (c :: text)
def report (kind channel : Nat) : Pkt :=
  closedBy flowing.job.jobKey { answer0 with ptype := 0x11, window := 0, nonce := 1 } (BitVec.ofNat 8 channel :: lay [(1, kind), (2, 32), (1, 3), (2, 5)])
def reported (kind channel : Nat) : Report := reportIn 0x0041#16 (BitVec.ofNat 8 channel :: lay [(1, kind), (2, 32), (1, 3), (2, 5)])
def readerLegs (s : State) : List Leg := legsTo s 0 (.gateway 3 (sliceCore s 0 0).2) 0 (.slice 0 0)
/-- A full pool of the gateway that messages for plot 0 come in by. -/
def messagesStall : State :=
  { flowHeld with grid := [(0, { Trellis.empty with
      hold := [plotPosition flowing 0], pools := List.replicate 2048 ⟨0, .gateway 3 (sliceCore flowing 0 0).2, 0, 2, .slice 0 0, .message ⟨1, []⟩⟩ })] }

/-- RemoteChannels, packets: a message of channel 1 and a report open with the job key; a body too short to hold a tag does not. -/
theorem wit_channel_packets (text : List Byte) (kind channel : Nat) :
    openBody flowing.job.jobKey (message 1#8 text) = some (1#8 :: text) ∧ numAt (message 1#8 text).body 0 1 = 1 ∧ (message 1#8 text).src = 0x0041#16 ∧
    (message 1#8 text).dest = 0x0045#16 ∧ (message 1#8 text).nonce = 1 ∧
    (∃ bs, openBody flowing.job.jobKey (report kind channel) = some bs ∧ reportIn (report kind channel).src bs = reported kind channel) ∧
    (report kind channel).dest = 0x0045#16 ∧ openBody flowing.job.jobKey { answer0 with ptype := 0x10, body := [1#8] } = none := by
  refine ⟨openBody_closedBy _ _ _ _, ?_, rfl, rfl, rfl, ⟨_, openBody_closedBy _ _ _ _, rfl⟩, rfl, by decide +kernel⟩
  simp [message, closedBy, gcmSeal, clearBytes, answer0, numAt, leNat]

/-- RemoteChannels: no channel, another writer, a message that comes to a full pool and one that does not, a fresh, a replayed one and one with every triple
taken, a plot whose traffic is held and one whose is not, a queue that is open and one that is closed; reports of every kind; an opening that
matches; a head that has moved and one that has not. -/
theorem wit_remote_channels :
    (readerLegs flowing).any (keptBack flowing 2 (.slice 0 0)) = false ∧ (readerLegs flowing).length = 1 ∧ chanIn.readerPlot = 0 ∧ chanIn.readerAt = 0 ∧
    (readerLegs flowHeld).head?.map (keptBack flowHeld 2 (.slice 0 0)) = some true ∧ messageStalls flowing 1 = false ∧
    messageStalls messagesStall 1 = true ∧ flowing.mesh.addr = some 0x0045#16 ∧
    channelOf flowing 3 = none ∧ channelOf flowing 1 = some chanIn ∧ chanIn.remoteIn = true ∧ chanIn.peerMesh = (0x0041#16).toNat ∧
    chanIn.peerMesh ≠ (0x0042#16).toNat ∧ chan0.remoteIn = false ∧
    replayVerdict flowing (4096 + 1) 0x0041#16 false 1 = .fresh ∧
    replayVerdict (takeNonce (4096 + 1) 0x0041#16 false 1 flowing) (4096 + 1) 0x0041#16 false 1 = .replayed ∧
    (chanQueue flowing 1 chanIn).isOpen = true ∧ (chanQueue (channelled Queue.empty [] .running) 1 chanIn).isOpen = false ∧
    replayVerdict flowing (4096 + 3) 0x0041#16 true 1 = .fresh ∧ outboundFor flowing (reported 1 4) = none ∧
    replayVerdict (takeNonce (4096 + 3) 0x0041#16 true 1 flowing) (4096 + 3) 0x0041#16 true 1 = .replayed ∧ (reported 1 3).channel = 3 ∧
    ([0, 1, 2].all (fun k => decide (outboundFor flowing (reported k 3) = some (2, chanOut)) && decide ((reported k 3).kind = k))) = true ∧
    (chanOf flowing 2).pairing = 1 ∧ (chanOf flowing 0).pairing ≠ 1 ∧ flowing.ctl.mode ≠ .loaded ∧ (channelled queue0 [] .loaded).ctl.mode = .loaded ∧
    (reported 3 1).kind = 3 ∧ channelOf flowing (reported 3 1).channel = some chanIn ∧ channelOf flowing (reported 3 9).channel = none ∧
    (reported 0 3).ringSize = chanOut.ring ∧
    (reported 0 3).maxLenM1 + 1 = chanOut.maxLen ∧ (chanOf (channelled queue0 [] .running) 0).pairing = 0 ∧
    (chanQueue (channelled { queue0 with head := 1 } [] .running) 1 chanIn).head ≠ (chanOf flowing 1).headReported ∧
    (plotOf flowing chanIn.readerPlot).fencedBy = 0 ∧ (chanQueue flowing 1 chanIn).head = (chanOf flowing 1).headReported := by
  (repeat' apply And.intro) <;> decide +kernel
theorem wit_channel_full : replayVerdict (tripled flowing) (4096 + 1) 0x0041#16 false 1 = .full ∧ replayVerdict (tripled flowing) (4096 + 3) 0x0041#16 true 1 = .full :=
  ⟨full_verdict _ _ _ _ _ (by decide), full_verdict _ _ _ _ _ (by decide)⟩

def writer0 (s : State) : Nat × Site := (fieldOfPlot waiter0.plot, sliceSite s waiter0.plot waiter0.slice)
def writerLegs (s : State) : List Leg := legsTo s (writer0 s).1 (writer0 s).2 0 (.slice 0 0)
/-- Channel 0 with one unread message. -/
def unread (crc : U32) : State := channelled { queue0 with msgs := [message0 crc] } [] .running

/-- QueueEvents: a message that fits to the end exactly, one that goes to entry 0, one that finds no room at either; a queue that is open, full, closed;
a plot that is held; a waiter that is served, the earlier writer of two of one cycle, one of an earlier time, one whose reservation is on its way; a message with a good
and a bad CRC, with an entry that no read corrects; a timer that acts, one of a waking plot, a reader without a limit. -/
theorem wit_queue_events :
    (2 ≤ 32 - 30 ∧ 2 ≤ 32) ∧ (32 - 30 < 3 ∧ 32 - 30 ≤ 32 ∧ 3 ≤ 32 - (32 - 30)) ∧ (32 - 30 < 3 ∧ 4 - (32 - 30) < 3) ∧
    ({ queue0 with tail := 31 } : Queue).tail < 32 ∧ ({ queue0 with tail := 31 } : Queue).occupied ≤ 32 ∧
    (List.replicate 64 (0#8 : Byte)).length / 32 = 2 ∧ chan0.outbound = false ∧ (chanQueue flowing 0 chan0).isOpen = true ∧
    (chanQueue (channelled Queue.empty [] .running) 0 chan0).isOpen = false ∧
    ((chanQueue flowing 0 chan0).place chan0.ring (List.replicate 1024 0#8) (chanOf flowing 0).seq).isSome = true ∧
    (chanQueue flowing 0 chan0).place chan0.ring (List.replicate 1056 0#8) (chanOf flowing 0).seq = none ∧
    channelOf flowing 0 = some chan0 ∧ channelOf flowing 3 = none ∧ (chanOf flowing 0).waiters = [waiter0] ∧
    (trySend 0 chan0 (writer0 flowing) waiter0.payload flowing).isSome = true ∧ trySend 0 chan0 (writer0 flowHeld) waiter0.payload flowHeld = none ∧
    plotHeld flowHeld chan0.readerPlot = true ∧ plotHeld flowing chan0.readerPlot = false ∧
    (∃ v ∈ (chanOf flowing 0).waiters, v.sameWriter { waiter0 with since := 5#64 } = true) ∧
    (∀ v ∈ (chanOf flowing 0).waiters, v.sameWriter { waiter0 with node := none } = false) ∧ chanOut.outbound = true ∧
    (writerLegs flowing).any (keptBack flowing 2 (.slice 0 0)) = false ∧ (writerLegs flowing).length = 1 ∧
    (writerLegs flowHeld).head?.map (keptBack flowHeld 2 (.slice 0 0)) = some true ∧
    grantOrder flowing (chanOf flowing 0).waiters = [waiter0] ∧
    grantOrder flowing [{ waiter0 with slice := 2, node := some 336 }, { waiter0 with slice := 1, node := some 208, since := 7#64 },
        { waiter0 with slice := 2, node := some 336, since := 1#64 }, { waiter0 with slice := 3, node := some 464, held := true }]
      = [{ waiter0 with slice := 1, node := some 208, since := 7#64 }, { waiter0 with slice := 2, node := some 336 }] ∧
    (∀ v ∈ [waiter0], v.held = true → v.sameWriter waiter0 = false) ∧
    (chanOf (channelled queue0 [] .running) 0).waiters = [] ∧ nextUnread 32 0 [] = none ∧
    nextUnread chan0.ring (chanQueue (unread (crc32 (List.replicate 32 0#8))) 0 chan0).head (chanQueue (unread (crc32 (List.replicate 32 0#8))) 0 chan0).msgs
      = some (message0 (crc32 (List.replicate 32 0#8))) ∧ plotHeld (unread 0#32) chan0.readerPlot = false ∧
    crc32 (message0 (crc32 (List.replicate 32 0#8))).payload = (message0 (crc32 (List.replicate 32 0#8))).crc ∧
    crc32 (message0 0#32).payload ≠ (message0 0#32).crc ∧ (message0 0#32).ue ++ (message0 0#32).wordsOf (⟨[7], []⟩ : QueueUpset).doubleBit = [] ∧
    (message0 0#32).ue ++ (message0 0#32).wordsOf (⟨[], [0]⟩ : QueueUpset).doubleBit ≠ [] ∧
    ((chanOf flowing 0).waiters.drop 0).head? = some waiter0 ∧ ((chanOf flowing 0).readers.drop 0).head? = some waiter0 ∧
    ((chanOf flowing 0).waiters.drop 1).head? = none ∧ timersFrozen flowing waiter0.plot = false ∧ chan0.readNoTimeout = false ∧
    ({ chan0 with readNoTimeout := true } : Channel).readNoTimeout = true ∧
    timersFrozen (updPlot 0 (fun pl => { pl with sleep := 3 }) flowing) waiter0.plot = true ∧ flowing.ctl.mode = .running := by
  (repeat' apply And.intro) <;> decide +kernel


/-! ## Host access and memory -/

def hosted (r : Region) : State :=
  let s := rooted (withRegions [(7, r)] ready)
  { s with hbm := { s.hbm with written := [granuleOf (r.phys 0)] } }

/-- HostAccess: the first and last bytes of rings and aperture, those past them; a served mailbox and an offset that names an entry; the own address on the
management bus, another one, and no supply; a root and a module that is none; a word of a staging region, one that runs
past its end. -/
theorem wit_host_access :
    (0x600000000000 ≤ 0x6000001FFFFF ∧ 0x6000001FFFFF < 0x600000200000 ∧ servedMailbox ((0x6000001FFFFF - 0x600000000000) / 65536) ready = true ∧
      0x8080 ≤ 0x6000001FFFFF % 65536) ∧
    (0x100 ≤ 0x600000000100 % 65536 ∧ 0x60000000807F % 65536 < 0x8080 ∧ 0x6000000000FF % 65536 < 0x100) ∧
    servedMailbox ((0x600000010000 - 0x600000000000) / 65536) State.reset = false ∧ ready.pins.auxOn = true ∧ (withoutRail ready).pins.auxOn = false ∧
    (busAnswers ready 0x63 = true ∧ busAnswers ready 0x60 = false ∧ busAnswers (withoutRail ready) 0x63 = false) ∧
    (servedMailbox 0 ready = true ∧ (258#16).toNat < ringSize ∧ 0x600000000100 = 0x600000000000 + 65536 * 0 + 0x100 ∧ 0x100 + 65280 ≤ 65536) ∧
    (0x700000000000 ≤ 0x700000FFFFFF ∧ 0x700000FFFFFF < 0x700001000000 ∧ 0x600000200000 ≤ 0x6FFFFFFFFFFF) ∧ ready.mesh.root = false ∧
    (hosted region0).mesh.root = true ∧ stagingAt (hosted region0) 0 64 = some (7, region0) ∧
    stagingAt (hosted region0) (120 * 65536 - 64) 64 = some (7, region0) ∧ stagingAt (hosted region0) (120 * 65536 - 64) 65 = none ∧
    (List.replicate 64 (0xAA#8 : Byte)).length = 64 ∧ 0 % 256 = 0 ∧ region0.base % 64 = 0 ∧ region0.code ≠ 2 ∧ Mem.wf (hosted region0).hbm.data = true ∧
    Tab.find (hosted region0).hbm.filling (granuleOf (region0.phys 0)) = none ∧ (hosted region0).hbm.isWritten (granuleOf (region0.phys 0)) = true ∧
    unreachable (hosted region0) region0 (region0.phys 0) = false := by (repeat' apply And.intro) <;> decide +kernel

def marked (s : State) : State := { s with hbm := { s.hbm with poison := [0] } }
def lostRegion : Region := { region0 with state := 2, lost := 1#8 }

/-- Wrong symbols of one lane, and of three reads. -/
def laneOut : WordErrors := { lanes := 1 }
def symbolsOut (a b c : Nat) : WordErrors := { symbols := [a, b, c] }
def archived (r : Region) : Region := { r with code := 2, pageCheck := 1 }
/-- Words 0 and 3 of a block fail with a symbol wrong in each; one word with so many that no check covers it. -/
def blockOut (unknown : Nat) : WordErrors := { badWords := [(0, 1), (3, 1)], unknown := unknown }

/-- MemoryWords: a whole and a partial word, a marked word, a granule never written, a lost field; the symbols that the strong and the light code correct and one more, on
the first, the second and the third read; a lane lost; a scrub in a mode that scrubs and in LODGE, of a word in a region of each code and in none, on time and
late; a block that decodes and one that does not. -/
theorem wit_memory_words :
    region0.code = 0 ∧ region0.decodeWord [] 0 (symbolsOut 4 5 5) = .corrected 4 ∧ region0.decodeWord [] 0 (symbolsOut 5 4 5) = .retried 4 ∧
    region0.decodeWord [] 0 (symbolsOut 5 5 4) = .retried 4 ∧ region0.decodeWord [] 0 (symbolsOut 5 5 5) = .failed ∧
    ({ region0 with code := 1 } : Region).decodeWord [] 0 (symbolsOut 1 2 2) = .corrected 1 ∧
    ({ region0 with code := 1 } : Region).decodeWord [] 0 (symbolsOut 2 2 2) = .failed ∧
    region0.decodeWord [] 0 laneOut = .corrected 2 ∧ ({ region0 with code := 1 } : Region).decodeWord [] 0 laneOut = .failed ∧
    region0.decodeWord [] 0 {} = .clean ∧ scrubs (hosted region0) = true ∧ scrubs (inMode .lodge) = false ∧
    (hosted (archived region0)).hbm.regions.find? (fun p => p.2.holdsGranule (granuleOf 0)) = some (7, archived region0) ∧
    (hosted region0).hbm.regions.find? (fun p => p.2.holdsGranule (granuleOf (2 ^ 40))) = none ∧
    (archived region0).decodeBlock (blockOut 0) [] ≠ .failed ∧ (archived region0).decodeBlock (blockOut 17) [] = .failed ∧
    (0, 1) ∈ badWordsOf (blockOut 17) [] ∧ (3, 1) ∉ badWordsOf (blockOut 17) [3] ∧
    Mem.wf (hosted region0).hbm.data = true ∧ 64 % 64 = 0 ∧ (List.replicate 63 (1#8 : Byte)).length < 64 ∧ unreachable (hosted region0) region0 0 = false ∧
    (hosted region0).hbm.isWritten (granuleOf 0) = true ∧ (marked (hosted region0)).hbm.isMarked 63 = true ∧ (hosted region0).hbm.isMarked 0 = false ∧
    (hosted region0).hbm.isWritten (granuleOf 65536) = false ∧ unreachable (hosted lostRegion) lostRegion 0 = true ∧
    WordOutcome.retried 3 ≠ .failed ∧
    (hosted region0).hbm.regions.find? (fun p => p.2.holdsGranule (granuleOf 0)) = some (7, region0) ∧ region0.code ≠ 1 := by
  (repeat' apply And.intro) <;> decide +kernel

def memReq (write : Bool) (addr : Nat) : MemReq := ⟨write, addr, 64, List.replicate 64 1#8, .fill 4 0 0 0, 0, 0, false, [], false, 0⟩
def requested (q : MemReq) (filling : Tab (List (Nat × Nat))) : State :=
  let s := updField 0 (fun v => { v with requests := [(1, q)] }) (hosted region0)
  { s with hbm := { s.hbm with filling := filling } }
def entry0 (returned : Bool) : MergeEntry := ⟨0, [(0, 1)], true, returned, none, false⟩

/-- MemoryRequests: a read and a write of a written granule, of one that fills, of one never written with three and with four fills on its stack; a request
that is issued, none at all; an entry that waits and one that has its data. -/
theorem wit_memory_requests :
    requestOf (requested (memReq false 0) []) 0 1 = some (memReq false 0) ∧ blockedRequest (requested (memReq false 0) []) 0 1 (memReq false 0) = false ∧
    requestGranule (requested (memReq false 0) []) (memReq false 0) = some 0 ∧ Tab.find (requested (memReq false 0) []).hbm.filling 0 = none ∧
    (Tab.find (requested (memReq false 0) [(0, [])]).hbm.filling 0).isSome = true ∧
    requestOf (requested (memReq true 0) []) 0 1 = some (memReq true 0) ∧ (requested (memReq true 0) []).hbm.isWritten 0 = true ∧
    requestGranule (requested (memReq true (2 ^ 40)) []) (memReq true (2 ^ 40)) = none ∧
    (∃ g ∈ [32768], requestGranule (requested (memReq true 16384) []) (memReq true 16384) = some g ∧ (requested (memReq true 16384) []).hbm.isWritten g = false ∧
      ((requested (memReq true 16384) [(1, []), (2, []), (3, [])]).hbm.filling.filter (fun e => e.1 / 2 ^ 20 = g / 2 ^ 20)).length < 4 ∧
      4 ≤ ((requested (memReq true 16384) [(1, []), (2, []), (3, []), (4, [])]).hbm.filling.filter (fun e => e.1 / 2 ^ 20 = g / 2 ^ 20)).length ∧
      (fieldOf (requested (memReq true 16384) []) (g / 2 ^ 20 / 4)).fenced = false) ∧
    ({ memReq false 0 with held := 2 } : MemReq).held ≠ 0 ∧ (memReq false 0).held = 0 ∧
    blockedRequest (updField 0 (fun v => { v with requests := [(1, memReq false 0), (2, memReq false 32)] }) (hosted region0)) 0 2 (memReq false 32) = true ∧
    requestOf (requested (memReq false 0) []) 0 2 = none ∧ ({ memReq false 0 with issued := true } : MemReq).issued = true ∧
    Tab.find (requested (memReq false 0) [(5, [])]).hbm.filling 5 = some [] ∧
    (let s := updStack 0 (fun k => { k with merge := [(0, entry0 false), (1, entry0 true)] }) (requested { memReq false 0 with issued := true, waiting := [0, 64] } [])
     Tab.find (stackOf s 0).merge 0 = some (entry0 false) ∧ (entry0 false).takes = true ∧ (entry0 true).returned = true ∧
     Tab.find (stackOf s 0).merge 2 = none ∧ ([0, 64] : List Nat).filter (· ≠ (entry0 false).line) ≠ []) := by (repeat' apply And.intro) <;> decide +kernel

/-- The same with a job of the region's owner. -/
def jobOf (r : Region) : State := { hosted r with job := { (hosted r).job with principal := r.owner } }

/-- Atomics: the principal of the region's owner and another; a word that decodes on a retry and one that does not; an aligned operand of a region with the right, a marked one, an address of no region, a misaligned one, a region without the right. -/
theorem wit_atomics :
    (jobOf region0).job.principal = region0.owner ∧ (hosted region0).job.principal ≠ region0.owner ∧
    regionAt (jobOf region0).hbm.regions 8 = some (7, region0) ∧ (jobOf region0).hbm.isMarked (region0.phys 8) = false ∧
    region0.decodeWord (jobOf region0).hbm.poison (region0.phys 8) (symbolsOut 5 4 0) ≠ .failed ∧
    region0.decodeWord (jobOf region0).hbm.poison (region0.phys 8) (symbolsOut 5 5 5) = .failed ∧
    closedRange 0x500000000000 = true ∧ closedRange (120 * 65536) = false ∧ regionAt (jobOf region0).hbm.regions 0x500000000000 = none ∧
    regionAt (hosted region0).hbm.regions 8 = some (7, region0) ∧ region0.base % 64 = 0 ∧ bit region0.rights 2 = true ∧ Mem.wf (hosted region0).hbm.data = true ∧
    Tab.find (hosted region0).hbm.filling (granuleOf (region0.phys 8)) = none ∧ (hosted region0).hbm.isWritten (granuleOf (region0.phys 8)) = true ∧
    unreachable (hosted region0) region0 (region0.phys 8) = false ∧ (hosted region0).hbm.isMarked (region0.phys 8) = false ∧ 8 % 8 = 0 ∧
    (marked (hosted region0)).hbm.isMarked (region0.phys 8) = true ∧ regionAt (hosted region0).hbm.regions (120 * 65536) = none ∧ 4 % 8 ≠ 0 ∧ 2 % 4 ≠ 0 ∧
    bit ({ region0 with rights := 3 } : Region).rights 2 = false := by (repeat' apply And.intro) <;> decide +kernel

/-! ## The plot sequencer -/

def operand0 (base : Nat) : Operand := ⟨base, 0, 0, false, false, false, 0⟩
/-- Two work items of two steps, 16 × 16 × 32 in INT8, committed by the ledger. -/
def desc0 : Desc :=
  { kind := 0, next := 0xFF, chain := 0, commitMode := 0, prefetch := 1, m := 16, n := 16, k := 32, aFmt := 10, bFmt := 10, bsCode := 0, sparse := false,
    accInit := 0, pair := false, cFmt := 5, moveRows := 1, moveRowBytes := 32, drainFmt := 5, sat := false, shift := 0, shapeFromParam := false,
    shapeParam := 0, slotA := 0, slotB := 1, slotC := 2, slotD := 3, slotP := 4, pool := false, counter := 0, chunk := 1, sliceMask := 1#16, runId := 9,
    done := 0xFF, a := operand0 0, b := operand0 0x1000, c := operand0 0, d := operand0 0x2000,
    levels := [⟨2, 0, true, false, false, 0, 4096, 0, 0, 1024⟩, ⟨2, 1, false, true, false, 0, 512, 512, 0, 0⟩] }
def move0 : Desc := { desc0 with kind := 2, levels := [⟨2, 0, true, false, false, 0, 0, 0, 0, 64⟩] }
def run0 : Run := { Run.empty with isOpen := true, epoch := 1, everOpened := true, desc := 0, joined := [0], active := [(0, 0)], params := List.replicate 16 0#64 }
def parts (full : List Nat) : SlotState := { SlotState.empty with full := full }
def slice0 (a b : List Nat) : Slice :=
  { Slice.empty with banks := 0xFF, slots := [(0, ⟨0, 512, 2, false, 0, 1, 0⟩), (1, ⟨1024, 512, 2, false, 0, 1, 0⟩), (3, ⟨2048, 1024, 2, false, 1, 0, 0⟩),
      (4, ⟨4096, 1024, 2, false, 1, 1, 0⟩)], slotSt := [(0, parts a), (1, parts b)] }
def work0 : Work := { Work.empty with ranges := [(0, 1)] }
def sequenced (d : Desc) (r : Run) (w : Work) (sl : Slice) : State :=
  let s := loaded3 .running
  { s with
    plots := [(0, { Plot.empty with assigned := true, sleep := 0, descs := [(0, d)], chains := [(0, ⟨0, 0⟩)], slices := [(0, { sl with work := [(0, w)] })] })]
    flds := Tab.upd s.flds 0 Field.empty (fun v => { v with runs := [(9, r)] }) }

/-- RunsAndWorkCounters: a closed run, an opening that the plot may join, one that it has joined; a slice that is due an item, with the last item still
there, with none left, in a halted run. -/
theorem wit_runs_and_counters :
    Tab.find (plotOf (sequenced desc0 Run.empty Work.empty Slice.empty) 0).chains 0 = some ⟨0, 0⟩ ∧
    descOf (sequenced desc0 Run.empty Work.empty Slice.empty) 0 0 = some desc0 ∧ seqRuns (sequenced desc0 Run.empty Work.empty Slice.empty) 0 = true ∧
    (runOf (sequenced desc0 Run.empty Work.empty Slice.empty) 0 9).isOpen = false ∧
    (let r := runOf (sequenced desc0 { run0 with joined := [] } Work.empty Slice.empty) 0 9
     r.isOpen = true ∧ r.desc = 0 ∧ 0 ∉ r.joined ∧ ∃ a ∈ r.active, a.1 = 0) ∧
    (0 ∈ (runOf (sequenced desc0 run0 Work.empty Slice.empty) 0 9).joined) ∧ Tab.find (plotOf ready 0).chains 0 = none ∧
    (let s := sequenced desc0 run0 Work.empty (slice0 [] [])
     (joinedRun s 0 0).map (fun e => (e.1.halted, e.2.items, counterOf s 0 e.2, fetchDue (sliceOf s 0 0) e.2 (workOf s 0 0 0))) = some (false, 2, 0, true) ∧
     canIssue s 0 0 = true ∧ 0 ∈ maskSlices desc0.sliceMask ∧ (workOf s 0 0 0).stopped = false) ∧
    (let s := setCounter 0 desc0 1 (sequenced desc0 run0 Work.empty (slice0 [] [])); counterOf s 0 desc0 < 2) ∧
    (let s := setCounter 0 desc0 2 (sequenced desc0 run0 Work.empty (slice0 [] [])); 2 ≤ counterOf s 0 desc0) ∧
    ({ run0 with halted := true } : Run).halted = true ∧ joinedRun ready 0 0 = none := by (repeat' apply And.intro) <;> decide +kernel

def fillState (d : Desc) (a : List Nat) (fl : Field → Field) : State := updField 0 fl (sequenced d run0 work0 (slice0 a []))
def holed : Desc := { desc0 with a := operand0 32 }

/-- Transfers of the plots of `l` that wait for an engine of field 0, which plot `last` was granted last. -/
def queueing (l : List Nat) (last : Nat) : State :=
  updField 0 (fun v => { v with transfers := l.zipIdx.map (fun e => (e.2, { transfer0 with plot := e.1 })), engineTurn := last }) (loaded3 .running)
/-- Transfer 4 behind transfer 3, which asks for a tracked request, where plot 0 tracks `n` requests. -/
def trackers (n : Nat) (waits : List Nat) : State :=
  updField 0 (fun v => { v with trackerQueue := waits, transfers := [(3, transfer0), (4, { transfer0 with engine := true })],
                                requests := (List.range n).map (fun i => (i, memReq false 0)) }) (loaded3 .running)

/-- FillsAndTransfers: a fill whose part is empty, full, on its way, misaligned; a request with an engine and without, the plots that take turns, with no tracked request left, to a
remote window that gives the right and to none; a region with the right and without; a transfer that ends clean, poisoned once and again; a stall. -/
theorem wit_fills_and_transfers :
    engineNext (queueing [1, 2, 3] 1) 0 = some 2 ∧ engineNext (queueing [1, 2, 3] 3) 0 = some 1 ∧ engineNext (queueing [] 3) 0 = none ∧
    engineFree (queueing [1, 2] 1) 0 { transfer0 with plot := 2 } = true ∧ engineFree (queueing [1, 2] 1) 0 { transfer0 with plot := 1 } = false ∧
    engineFree (queueing [1, 2] 1) 0 { transfer0 with plot := 1, engine := true } = true ∧
    trackerFree (trackers 127 [3]) 4 0 = true ∧ trackerFree (trackers 128 []) 4 0 = true ∧ trackerFree (trackers 128 [3]) 4 0 = false ∧
    trackerFree (trackers 128 [4, 3]) 4 0 = true ∧ (0 : Nat) < 2 ^ 41 ∧
    (let s := fillState desc0 [] id
     ((liveRun s 0 0 0).map (fun e => (nextFill (sliceOf s 0 0) e.2 (workOf s 0 0 0) 0 0, addrAligned (e.2.addr 0 0)))) = some (some (0, 0), true) ∧
     desc0.kind ≠ 2 ∧ 0 ∈ desc0.usedOps ∧ (sliceOf s 0 0).partFull 0 0 = false ∧ fillsInFlight s 0 0 0 = []) ∧
    (sliceOf (fillState desc0 [0] id) 0 0).partFull 0 0 = true ∧ addrAligned (holed.addr 0 0) = false ∧ liveRun ready 0 0 0 = none ∧
    (∃ v ∈ fillsInFlight (fillState desc0 [] (fun v => { v with transfers := [(4, transfer0)] })) 0 0 0, v.part = 0) ∧
    (let s := fillState desc0 [] (fun v => { v with transfers := [(4, transfer0)] })
     transferOf s 0 4 = some transfer0 ∧ pieceAt transfer0.rows transfer0.offset = some (0, 128) ∧ pieceAt transfer0.rows 127 = some (127, 1) ∧
     pieceAt transfer0.rows 128 = none ∧ (plotOf s transfer0.plot).stopped = false ∧ enginesOf (fieldOf s 0) none < 64 ∧
     enginesOf (fieldOf s 0) (some 0) < 8 ∧ trackerFree (updTransfer 0 4 (fun v => { v with engine := true }) s) 4 0 = true ∧ fillPending s 0 4 = false) ∧
    8 ≤ enginesOf ({ Field.empty with transfers := (List.range 8).map (fun i => (i, { transfer0 with engine := true })) } : Field) (some 0) ∧
    (let w : RemoteWin := ⟨0x41, 5, true, false, false, 0, 4096, 9#256⟩
     let s := mapJob (fun j => { j with remotes := [w] }) (fillState desc0 [] id)
     remoteEntryFor s 0x41 0 128 (·.rd) = some w ∧ remoteEntryFor s 0x41 4000 128 (·.rd) = none) ∧
    (regionAt (withRegions [(7, region0)] (loaded3 .running)).hbm.regions 0 = some (7, region0) ∧ region0.owner = (loaded3 .running).job.principal ∧
      bit region0.rights 0 = true ∧ bit ({ region0 with rights := 6 } : Region).rights 0 = false) ∧
    transfer0.operand < 3 ∧ ({ transfer0 with poisoned := true, tries := 1 } : Transfer).tries ≠ 0 ∧ transfer0.tries = 0 ∧
    (let s := updSlice 0 0 (fun sl => { sl with stalls := [⟨0, 0, true, 0, 0#64, 0⟩] }) (loaded3 .running)
     (sliceOf s 0 0).stalls.find? (fun v => v.slot = 0 && v.producer == true) = some ⟨0, 0, true, 0, 0#64, 0⟩ ∧ timersFrozen s 0 = false ∧ s.ctl.mode = .running) ∧
    timersFrozen (fencedPlot false) 0 = true ∧ ({ Slice.empty with slotSt := [(0, parts [])] } : Slice).partFull 0 0 = false ∧
    ({ Slice.empty with slotSt := [(0, parts [1])] } : Slice).partFull 0 1 = true := by (repeat' apply And.intro) <;> decide +kernel

def tile0 (step : Nat) (last : Bool) : TileIssue := ⟨0, 9, 1, 0, step, last, 0, 16, 16, List.replicate 256 0#32, [], false, [], [], 0, 0, 0, 0, []⟩
def draining (ti : TileIssue) (w : Work) : State := updSlice 0 0 (fun sl => { sl with issue := some ti }) (sequenced desc0 run0 w (slice0 [] []))
def upset0 (double : Bool) : TileUpset := ⟨[], if double then some 255 else none, 0⟩
/-- A tile that has failed once, at its last step, and is to be repeated. -/
def failed1 : TileFail := ⟨1, 0x0103, 1, 1, true, false⟩
/-- A tile of `e` entries. -/
def wide (e : Nat) : TileIssue := { tile0 0 false with acc := List.replicate e 0#32 }

/-- TileIssueAndDrain: banks free with no tile, beside a tile that fills one bank, and not beside a wider one, a wider tile, or two; an issue whose parts are empty,
one whose partial is, one with all, the first tile and the second; an operand part that is poisoned; a misaligned commit address; a MOVE; no live run; a drain of a step and of the last step into
an empty part and a full one, with and without a double-bit error, at the first and the second failure; a check of the core under way, and none. -/
theorem wit_tile_issue_and_drain :
    ((slice0 [] []).bankFree 32768 = true ∧ ({ slice0 [] [] with issue := some (wide 16384) } : Slice).bankFree 16384 = true) ∧
    (({ slice0 [] [] with issue := some (wide 16384) } : Slice).bankFree 16385 = false ∧
      ({ slice0 [] [] with issue := some (wide 16385) } : Slice).bankFree 16384 = false ∧
      ({ slice0 [] [] with issue := some (tile0 0 false), ahead := some (tile0 1 true) } : Slice).bankFree 256 = false) ∧
    (let s := sequenced desc0 run0 { work0 with issue := 0 } { slice0 [0] [0] with issue := some (tile0 0 false) }
     (sliceOf s 0 0).issue = some (tile0 0 false) ∧ (liveRun s 0 0 0).map (fun e => (placeOf e.2.perItem (workOf s 0 0 0).ranges 0, (sliceOf s 0 0).bankFree e.2.entries,
       (readOperands 0 0 e.2 0 (fun _ => 0) s).2.2.2.2, poisonedRead (sliceOf s 0 0) e.2 0 (fun _ => 0))) = some (some 0, true, false, false)) ∧
    poisonedRead { slice0 [0] [0] with slotSt := [(0, { parts [0] with poison := [0] })] } desc0 0 (fun _ => 0) = true ∧
    addrAligned (({ desc0 with d := operand0 0x2001 } : Desc).addr 3 0) = false ∧
    (let s := sequenced move0 run0 work0 (slice0 [] []); ({ move0 with kind := 1 } : Desc).kind = 1 ∧ (sliceOf s 0 0).bankFree 256 = true) ∧
    (let s := sequenced desc0 run0 work0 (slice0 [] [])
     (liveRun s 0 0 0).map (fun e => (placeOf e.2.perItem (workOf s 0 0 0).ranges 0, e.2.kind, e.2.steps,
       (issueOps e.2 0).find? (fun op => !(sliceOf s 0 0).partFull (e.2.slotFor op) (readPart (sliceOf s 0 0) e.2 (workOf s 0 0 0) op))))
       = some (some 0, 0, 2, some 0) ∧ (sliceOf s 0 0).issue = none) ∧
    (let s := sequenced desc0 run0 { work0 with issue := 1 } (slice0 [0] [0])
     (liveRun s 0 0 0).map (fun e => (placeOf e.2.perItem (workOf s 0 0 0).ranges 1, (issueOps e.2 1).all (fun op => (sliceOf s 0 0).partFull (e.2.slotFor op) 0),
       (sliceOf s 0 0).partFull e.2.slotP 0)) = some (some 1, true, false)) ∧
    (let s := sequenced desc0 run0 work0 (slice0 [0] [0])
     (liveRun s 0 0 0).map (fun e => ((issueOps e.2 0).all (fun op => (sliceOf s 0 0).partFull (e.2.slotFor op) 0), addrAligned (e.2.addr 3 0),
       (readOperands 0 0 e.2 0 (fun _ => 0) s).2.2.2.2, (readMat 10 0 16 32 false (readOperands 0 0 e.2 0 (fun _ => 0) s).2.1).isSome,
       (readMat 10 0 16 32 false (readOperands 0 0 e.2 0 (fun _ => 0) s).2.2.1).isSome)) = some (true, true, false, true, true)) ∧
    (let s := sequenced move0 run0 { work0 with issue := 0 } (slice0 [] [])
     (liveRun s 0 0 0).map (fun e => (e.2.kind, placeOf e.2.perItem (workOf s 0 0 0).ranges 0)) = some (2, some 0)) ∧
    liveRun ready 0 0 0 = none ∧
    (let s := draining (tile0 0 false) { work0 with issue := 1 }
     (sliceOf s 0 0).issue = some (tile0 0 false) ∧ (joinedRun s 0 0).map (fun e => (e.1.halted, decide (0 < e.2.steps))) = some (false, true) ∧
     (plotOf s 0).stopped = false ∧ coreDue s 0 0 = false ∧ s.job.issueStopped = false ∧ 0 ∉ (workOf s 0 0 0).skipped ∧
     drainTarget (sliceOf s 0 0) desc0 (tile0 0 false) = (4, 0) ∧ (sliceOf s 0 0).partFull 4 0 = false ∧ (workOf s 0 0 0).failsOf 0 = TileFail.none ∧
     partialLost (sliceOf s 0 0) desc0 0 = false ∧ (workOf s 0 0 0).tileOf desc0 (workOf s 0 0 0).issue = some 0) ∧
    (let s := draining (tile0 1 true) { work0 with issue := 2, fails := [(0, failed1)] }
     drainTarget (sliceOf s 0 0) desc0 (tile0 1 true) = (3, 0) ∧ (sliceOf s 0 0).partFull 3 0 = false ∧ (tile0 1 true).lastStep = true ∧
     ((workOf s 0 0 0).failsOf 0).count ≠ 0 ∧ ((workOf s 0 0 0).failsOf 0).slid = false ∧ ((workOf s 0 0 0).failsOf 0).pending = true ∧
     (workOf s 0 0 0).tileOf desc0 (workOf s 0 0 0).issue ≠ some 0 ∧ (tile0 1 true).step < desc0.steps) ∧
    (sliceOf (updSlice 0 0 (fun sl => sl.publish 4 0) (draining (tile0 0 false) work0)) 0 0).partFull 4 0 = true ∧
    checkAll (draining (tile0 0 false) work0) (desc0.spec 0) (tile0 0 false).predCol (colOf (desc0.spec 0) (accEls (tile0 0 false) (upset0 false))) = [] ∧
    (upset0 true).accDouble ≠ none ∧ (upset0 false).accDouble = none ∧ (tile0 0 false).ue = [] ∧ ({ tile0 0 false with ue := [4] } : TileIssue).ue ≠ [] ∧ (sliceOf ready 0 0).issue = none ∧ (sliceOf ready 0 0).confirm = none ∧
    (sliceOf (updSlice 0 0 (fun sl => { sl with confirm := some 81 }) (loaded3 .running)) 0 0).confirm = some (80 + 1) ∧
    (let s := updSlice 0 0 (fun sl => { sl with confirm := some 0 }) (draining (tile0 0 false) { work0 with fails := [(0, { failed1 with count := 2 })] })
     (sliceOf s 0 0).confirm = some 0 ∧ (twiceFailed (sliceOf s 0 0)).isSome = true) := by (repeat' apply And.intro) <;> decide +kernel

def committed (c : Commit) (r : Run) : State :=
  updField 0 (fun v => { v with commits := [(7, c)], transfers := [(7, { transfer0 with operand := 3, rows := [], run := 9, tile := 6 })] })
    (sequenced desc0 r work0 (slice0 [] []))
def commit9 (status : Nat) : Commit := { commit0 status with run := 9 }

/-- CommitsAndLedger: commits in flight, held, writing, accepted, failed for the second and the third time, with a bad word; a closed run, an old epoch,
a counted tile, a tile in flight, a free one; a run that is done and one that is not. -/
theorem wit_commits_and_ledger :
    commitOf (committed (commit9 0) run0) 0 7 = some (commit9 0) ∧ (plotOf (committed (commit9 0) run0) 0).stopped = false ∧
    badWords (sliceOf (committed (commit9 0) run0) 0 0) (commit9 0) = [] ∧
    badWords (sliceOf (updSlice 0 0 (fun sl => { sl with spadUe := [0] }) (committed (commit9 0) run0)) 0 0) (commit9 0) ≠ [] ∧
    (commit9 1).status = 1 ∧ commitOf ready 0 7 = none ∧
    (let fl := fieldOf (committed (commit9 0) run0) 0
     (Tab.get fl.runs 9 Run.empty).isOpen = true ∧ (commit9 0).epoch = (Tab.get fl.runs 9 Run.empty).epoch ∧ (commit9 0).tile ∉ (Tab.get fl.runs 9 Run.empty).bits ∧
     pendingTable fl = []) ∧
    (∃ v ∈ pendingTable (fieldOf (committed (commit9 2) run0) 0), v.run = 9 ∧ v.tile = 6) ∧ 6 ∈ ({ run0 with bits := [6] } : Run).bits ∧
    (commit9 0).epoch ≠ ({ run0 with epoch := 2 } : Run).epoch ∧ Run.empty.isOpen = false ∧ (commit9 0).mode = 0 ∧ ({ commit9 0 with mode := 1 } : Commit).mode ≠ 0 ∧
    (let s := committed (commit9 2) run0
     (commitOf s 0 7).map (·.status) = some 2 ∧ (transferOf s 0 7).map (fun t => pieceAt t.rows t.offset) = some none ∧ commitPending s 0 7 = false ∧
     (commit9 2).bad = false ∧ (commit9 2).tile ∉ (runOf s 0 9).bits) ∧
    ({ commit9 2 with bad := true } : Commit).bad = true ∧ 3 ≤ (commit9 6).status ∧
    Tab.get (runOf (committed (commit9 6) { run0 with failed := [(6, 1)] }) 0 9).failed 6 0 < 2 ∧
    2 ≤ Tab.get (runOf (committed (commit9 6) { run0 with failed := [(6, 2)] }) 0 9).failed 6 0 ∧
    (commit9 3).status ≠ 6 ∧ (commit9 7).status = 7 ∧ (commit9 3).part < 16 ∧
    (let s := sequenced desc0 { run0 with active := [(0, 0)] } { work0 with stopped := true, issue := 2 } (slice0 [] [])
     descOf s (runOf s 0 9).plot (runOf s 0 9).desc = some desc0 ∧ runDone s 0 (runOf s 0 9) (desc0.resolve (runOf s 0 9).params) = true ∧ desc0.done = 0xFF) ∧
    (let s := sequenced desc0 run0 work0 (slice0 [] []); runDone s 0 (runOf s 0 9) (desc0.resolve (runOf s 0 9).params) = false) ∧
    outboxUsed (loaded3 .running) 0 < 4 ∧ descOf ready (runOf ready 0 9).plot (runOf ready 0 9).desc = none := by (repeat' apply And.intro) <;> decide +kernel

/-- Slice 0 with an issue of descriptor 1 under way, of which issue `n` is to be made again, beside descriptor 0. -/
def redoing (n : Nat) : State :=
  let s := sequenced desc0 run0 work0 { slice0 [0] [0] with issue := some { tile0 0 false with desc := 1 } }
  let s1 := updPlot 0 (fun pl => { pl with descs := [(0, desc0), (1, { desc0 with runId := 10 })] }) s
  let s2 := updField 0 (fun v => { v with runs := [(9, run0), (10, { run0 with desc := 1 })] }) s1
  updSlice 0 0 (fun sl => { sl with work := [(0, work0), (1, { work0 with issue := n + 1, redo := [n] })] }) s2
/-- A request of transfer 4 goes from the gateway of its stack's column; the same with an agent there that stalls on its class. -/
def fillLegs (s : State) : List Leg :=
  let gate := addressGateway s 0 0
  legsTo s 0 (requestSite s 0 transfer0 (gate.2.lane 0)) 0 (.edge gate.1 (outwardEdge gate.1) (gate.2.lane 0))
def fillGoal (s : State) : Goal := .edge (addressGateway s 0 0).1 (outwardEdge (addressGateway s 0 0).1) ((addressGateway s 0 0).2.lane 0)
def regioned : State := withRegions [(7, region0)] (loaded3 .running)
def jammed : State :=
  { regioned with grid := [(0, { Trellis.empty with stalled := [⟨0, requestSite regioned 0 transfer0 ((addressGateway regioned 0 0).2.lane 0), 0, 0,
      .edge 0 3 0, .request 0 1⟩] })] }

/-- TileIssueAndDrain, FillsAndTransfers and CommitsAndLedger, the rest: a replay inside a reduction of another descriptor, and one at its start; a request whose class flows and
one whose agent stalls; a failed commit of a part and one without; a full outbox; a word of the bitmap with its marker and without. -/
theorem wit_sequencer_rest :
    replayAhead (redoing 1) 0 0 0 = true ∧ replayAhead (redoing 0) 0 0 0 = false ∧ replayAhead (redoing 1) 0 0 1 = false ∧
    (fillLegs regioned).length = 1 ∧ (fillLegs regioned).any (keptBack regioned 0 (fillGoal regioned)) = false ∧
    (fillLegs jammed).head?.map (keptBack jammed 0 (fillGoal jammed)) = some true ∧
    commitOf (committed (commit9 6) run0) 0 7 = some (commit9 6) ∧ (commit9 6).part < 16 ∧ 16 ≤ ({ commit9 6 with part := 16 } : Commit).part ∧
    ledgerMarked (committed (commit9 0) run0) 0 (commit9 0) = false ∧
    (let s := committed (commit9 0) run0
     ledgerMarked { s with hbm := { s.hbm with poison := [ledgerByte 0 9 6 / 64] } } 0 (commit9 0)) = true ∧
    (let s := { sequenced desc0 run0 work0 (slice0 [] []) with chans := [(0, { ChanState.empty with waiters := List.replicate 4 { waiter0 with node := none } })] }
     outboxUsed s 0 = 4 ∧ ({ desc0 with done := 0 } : Desc).done ≠ 0xFF) ∧
    nextFill (slice0 [] []) desc0 { work0 with issue := 4 } 0 0 = none ∧ (nextFill (slice0 [] []) { desc0 with kind := 1 } work0 0 0).isSome = true := by
  (repeat' apply And.intro) <;> decide +kernel


/-! ## Nodes of the array -/

def dest0 : Dest := ⟨0, 0, 15, 0⟩
def arrNode (op ins : Nat) (arg : U32) (modf : Nat) : Node := ⟨op, ins, false, 0, 0, modf, some dest0, none, 3, 0, 3, 0, arg⟩
def arrSection (nodes : Tab Node) : Section := ⟨false, false, 0xFFFF#16, 1, 1, 100, 1000, nodes, []⟩
def ref0 (pos : Nat) : NodeRef := ⟨0, 0, pos, 0, 0#16⟩
def tok0 (pos port : Nat) (x : U32) : Tok := ⟨nodeKey 0 pos 0, port, 0#16, 0#16, x :: List.replicate 15 0#32, 0, false⟩
/-- A plot in RUNNING whose array holds one section and some tokens. -/
def arrayed (sec : Section) (toks : List Tok) (sl : Slice) (f : Arr → Arr) : State :=
  let s := loaded3 .running
  { s with
    job := { s.job with sections := [(0, sec)], channels := [(0, chan0)] }
    plots := [(0, { Plot.empty with assigned := true, sleep := 0, slices := [(0, sl), (1, Slice.empty)]
                                    arr := f { Arr.empty with store := [(0, 0)], active := some 0, stopped := false, toks := toks } })] }
/-- One node at a position, with a token at each port. -/
def firing (pos op ins : Nat) (arg : U32) (modf : Nat) (sl : Slice) (f : Arr → Arr) : State :=
  arrayed (arrSection [(nodeKey 0 pos 0, arrNode op ins arg modf)]) ((List.range ins).map (fun q => tok0 pos q 1#32)) sl f
def lone (pos op ins : Nat) : State := firing pos op ins 0#32 0 Slice.empty id
def fires (pos op ins : Nat) : Bool := (findFiring (ref0 pos) [pos] op (lone pos op ins)).isSome

/-- An array in which the reserved entry of a port of unit (0, 0) is taken, with `n` tokens in shared entries. -/
def crowdedArr (n : Nat) : Arr := { Arr.empty with toks := tok0 0 0 1#32 :: List.replicate n { tok0 0 1 1#32 with shared := true } }

/-- VectorAluNodes: a firing of every operation at its number of ports, none where no token is; a firing that is retried and one that is not; a source; a
conversion that R128 gives, and one that it does not; destinations in the slice, beside it and further on; a port with its entry free, with a shared entry free,
and with none. -/
theorem wit_vector_alu_nodes :
    (keySlice 0 = keySlice dest0.key ∧ (nextSlice 0 1).1 = 1 ∧ (nextSlice 0 4).1 = 4 ∧ (nextSlice 0 5).1 ≠ 5 ∧ keySlice 2047 < 16) ∧
    (let sec := arrSection [(0, arrNode 1 2 0#32 0)]
     sec.unitPorts 0 = 2 ∧ (crowdedArr 0).room sec 0 1 = true ∧ (crowdedArr 61).room sec 0 0 = true ∧ (crowdedArr 62).room sec 0 0 = false) ∧
    ([0x00, 0x07, 0x08, 0x09, 0x20, 0x21, 0x22, 0x23, 0x31, 0x33, 0x34].all (fires 0 · 1) &&
      [0x01, 0x02, 0x03, 0x05, 0x06, 0x0A, 0x0B, 0x0C, 0x10, 0x11, 0x12, 0x13, 0x14, 0x15, 0x16, 0x17, 0x18, 0x19, 0x1A, 0x30].all (fires 0 · 2) &&
      fires 0 0x04 3 && fires 0 0x32 0) = true ∧
    (findFiring (ref0 0) [0, 1] 0x01 (lone 0 0x01 2)).isSome = true ∧ (findFiring (ref0 1) [0, 1] 0x01 (lone 1 0x01 2)).isSome = true ∧
    findFiring (ref0 0) [0, 1] 0x01 ready = none ∧ findFiring (ref0 0) [0, 1] 0x02 (lone 0 0x01 2) = none ∧
    (0, 0#16) ∉ (plotOf (lone 0 0x01 2) 0).arr.retrying ∧
    (∃ fr, findFiring (ref0 0) [0, 1] 0x01 (firing 0 0x01 2 0#32 0 Slice.empty (fun a => { a with retrying := [(0, 0#16)] })) = some fr ∧ (fr.key, fr.tag) = (0, 0#16)) ∧
    (∃ fr, findFiring (ref0 0) [0, 1] 0x32 (lone 0 0x32 0) = some fr ∧ fr.nd.isSource = true ∧ fr.nd.dests = [dest0] ∧
      (fr.take (plotOf (lone 0 0x32 0) 0).arr).room fr.sec dest0.key dest0.port = true) ∧
    cvtCode 0 = true ∧ (0 + 1) * 16 * elemBits 0 ≤ 512 ∧ (3 + 1) * 16 * elemBits 10 ≤ 512 ∧ cvtCode 5 = false ∧ 512 < (1 + 1) * 16 * 32 ∧
    (∃ m, ({ misses := m } : Residue).misses = 0) ∧ (∃ m, ({ misses := m } : Residue).misses = 1) ∧ 2 ≤ ({ misses := 2 } : Residue).misses ∧
    (f32 0x7FC00000#32).isNan = true ∧ (f32 0x3F800000#32).isNan = false ∧ (f32 0x3F800000#32).lt (f32 0x40000000#32) = true ∧
    (∃ f, floatFmt 0 = some f ∧ 0 < 2 ^ (f.ebits + f.mbits + 1) ∧ (f.decode 0).isFin = true) := by
  refine ⟨?_, ?_, ?_, ?_, ?_, ?_, ?_, ?_, ⟨_, rfl, ?_⟩, ⟨_, rfl, ?_⟩, ?_, ?_, ?_, ?_, ?_, ⟨0, rfl⟩, ⟨1, rfl⟩, ?_, ?_, ?_, ?_, ⟨_, rfl, ?_⟩⟩ <;> decide +kernel

/-- SpecialReduceAndSteeringNodes: a firing of every operation; the last iteration of a group of one and the first of a group of two; control lanes. -/
theorem wit_special_reduce_steering_nodes :
    ((List.range 7).all (fires 2 · 1) && [0, 1, 2, 8, 9, 10].all (fires 3 · 1) && fires 3 0x10 2 && fires 4 0 2 && fires 4 1 2 && fires 4 3 3 && fires 4 4 1) = true ∧
    (findFiring (ref0 4) [4] 2 (lone 4 2 3)).isSome = true ∧ findFiring (ref0 3) [3] 8 ready = none ∧
    (∃ fr, findFiring (ref0 3) [3] 8 (lone 3 8 1) = some fr ∧ fr.nd.group ≤ (Acc.empty).count + 1) ∧
    (∃ fr, findFiring (ref0 3) [3] 8 (firing 3 8 1 1#32 0 Slice.empty id) = some fr ∧
      (Tab.get (plotOf (firing 3 8 1 1#32 0 Slice.empty id) 0).arr.accs (fr.key * 16 + tagCtx fr.tag) Acc.empty).count + 1 < fr.nd.group) ∧
    (∃ fr, findFiring (ref0 3) [3] 16 (lone 3 16 2) = some fr ∧ fr.nd.group ≤ (Acc.empty).count + 1) ∧
    (∃ fr, findFiring (ref0 3) [3] 16 (firing 3 16 2 1#32 0 Slice.empty id) = some fr ∧ (Acc.empty).count + 1 < fr.nd.group) ∧
    ([1#32] : List U32).headD 0#32 ≠ 0#32 ∧ ¬(([] : List U32).headD 0#32 ≠ 0#32) ∧ (f32 0xFFC00001#32).isNan = true ∧
    (f32 0x47800000#32).isFin = true ∧ (Num.fin false 1 15).lt (f32 0xC7800000#32).abs = true ∧ (Num.fin false 1 15).lt (f32 0x47000000#32).abs = false := by
  refine ⟨?_, ?_, ?_, ⟨_, rfl, ?_⟩, ⟨_, rfl, ?_⟩, ⟨_, rfl, ?_⟩, ⟨_, rfl, ?_⟩, ?_, ?_, ?_, ?_, ?_, ?_⟩ <;> decide +kernel

/-- A slice whose first bank alone is powered, with a double-bit error at the first word of the second. -/
def halfPowered : Slice := { Slice.empty with banks := 1, spadUe := [8192] }

def spad0 (full : List Nat) (ue : List Nat) : Slice :=
  { Slice.empty with banks := 0xFF, slots := [(0, ⟨0, 128, 2, false, 3, 2, 0⟩)], slotSt := [(0, { SlotState.empty with full := full })], spadUe := ue }

/-- ScratchpadNodes: every operation; a part full and empty, a word with a double-bit error, a cursor at the end of its part and before it, a held part;
PUBLISH and RELEASE with the cursor's node and without; the last byte of a job's area and the one past it. -/
theorem wit_scratchpad_nodes :
    (halfPowered.poweredAt 0 = true ∧ halfPowered.poweredAt (bankSize - 1) = true ∧ halfPowered.poweredAt bankSize = false) ∧
    (plotOf (firing 5 2 0 0#32 0 halfPowered id) 0).assigned = true ∧ (plotOf ready 0).assigned = false ∧
    (spadLoad 0 0 (bankSize - 32) 64 0 0#32 (firing 5 2 0 0#32 0 halfPowered id)).2.2 = false ∧
    (findFiring (ref0 5) [5] 0 (firing 5 0 0 0#32 0 (spad0 [0] []) id)).isSome = true ∧ (findFiring (ref0 5) [5] 1 (firing 5 1 1 0#32 0 (spad0 [] []) id)).isSome = true ∧
    (findFiring (ref0 5) [5] 2 (firing 5 2 0 0#32 0 (spad0 [] [0]) id)).isSome = true ∧ (findFiring (ref0 5) [5] 3 (firing 5 3 1 0#32 0 (spad0 [] []) id)).isSome = true ∧
    (findFiring (ref0 5) [5] 4 (firing 5 4 1 0#32 0 (spad0 [] []) id)).isSome = true ∧ (findFiring (ref0 5) [5] 5 (firing 5 5 2 0#32 0 (spad0 [] []) id)).isSome = true ∧
    (findFiring (ref0 5) [5] 6 (firing 5 6 1 0#32 0 (spad0 [] []) id)).isSome = true ∧ (findFiring (ref0 5) [5] 7 (firing 5 7 1 0#32 0 (spad0 [] []) id)).isSome = true ∧
    findFiring (ref0 5) [5] 0 ready = none ∧ (spad0 [0] []).partFull 0 0 = true ∧ (spad0 [] []).partFull 0 0 = false ∧
    (spadLoad 0 0 0 64 0 0#32 (firing 5 2 0 0#32 0 (spad0 [] [0]) id)).2.2 = true ∧ (spadLoad 0 0 0 64 0 0#32 (firing 5 2 0 0#32 0 (spad0 [] []) id)).2.2 = false ∧
    (spadStore 0 0 4 (List.replicate 64 0#8) 0 0#32 (firing 5 3 1 0#32 0 (spad0 [] [0]) id)).2 = true ∧
    (spadStore 0 0 0 (List.replicate 64 0#8) 0 0#32 (firing 5 3 1 0#32 0 (spad0 [] [0]) id)).2 = false ∧
    (advanceCursor (spad0 [] []) 0 (0, 64)).2 = true ∧ (advanceCursor (spad0 [] []) 0 (0, 0)).2 = false ∧ (arrNode 0 0 0#32 8).hold = true ∧
    (spad0 [] []).slotDef 0 = some ⟨0, 128, 2, false, 3, 2, 0⟩ ∧ 0 + 64 < 128 ∧ 128 ≤ 64 + 64 ∧
    (cursorNode (arrSection [(nodeKey 0 5 1, arrNode 1 1 0#32 0)]) 1 0 0).isSome = true ∧ cursorNode (arrSection []) 1 0 0 = none ∧
    jobAreaEnd < (jobAreaEnd - 63) + 64 ∧ (jobAreaEnd - 64) + 64 ≤ jobAreaEnd ∧ Mem.wf (spad0 [] []).spad = true := by
  (repeat' apply And.intro) <;> decide +kernel

def msg0 (len : Nat) : QMsg := ⟨false, 0, len, 0, List.replicate (32 * len) 1#8, 0#32, 2 ^ len - 1, true, 0, []⟩
def inQueue0 (l : List QMsg) : Slice := { Slice.empty with queues := [(0, { queue0 with msgs := l, tail := l.length })] }
def strictly (sec : Section) : Section := { sec with strict := true }

/-- QueueParamAndSectionNodes: a read with no channel, an empty queue, a message, one too long for a node that is fed; a send that is taken, that waits, that
assembles and that ends a message; parameter and section nodes with and without a switch that waits; loads in turn; the barrier under both rules. -/
theorem wit_queue_nodes :
    (msg0 2).ue = [] ∧ ({ msg0 2 with ue := [1] } : QMsg).ue ≠ [] ∧
    (chanQueue (firing 6 0 0 0#32 0 (inQueue0 [{ msg0 2 with ue := [1] }]) id) 0 chan0).front = some { msg0 2 with ue := [1] } ∧
    (findFiring (ref0 6) [6] 0 (firing 6 0 0 0#32 0 (inQueue0 []) id)).isSome = true ∧ (findFiring (ref0 6) [6] 1 (firing 6 1 1 0#32 0 (inQueue0 []) id)).isSome = true ∧
    channelOf (firing 6 0 0 0#32 0 (inQueue0 []) id) 1 = none ∧ channelOf (firing 6 0 0 0#32 0 (inQueue0 []) id) 0 = some chan0 ∧
    (chanQueue (firing 6 0 0 0#32 0 (inQueue0 []) id) 0 chan0).front = none ∧
    (chanQueue (firing 6 0 0 0#32 0 (inQueue0 [msg0 2]) id) 0 chan0).front = some (msg0 2) ∧ (arrNode 0 0 0#32 0).isSource = true ∧
    (findFiring (ref0 6) [6] 0 (firing 6 0 1 0#32 0 (inQueue0 [msg0 3]) id)).isSome = true ∧ (arrNode 0 1 0#32 0).isSource = false ∧ 2 < (msg0 3).len ∧ (msg0 2).len ≤ 2 ∧
    nodeWaits (firing 6 1 1 0#32 0 (inQueue0 []) id) 0 (nodeKey 0 6 0) = false ∧
    (trySend 0 chan0 (0, .router 0 0) (List.replicate 64 0#8) (firing 6 1 1 0#32 0 (inQueue0 []) id)).isSome = true ∧
    (trySend 0 chan0 (0, .router 0 0) (List.replicate 64 0#8) (firing 6 1 1 0#32 0 (inQueue0 [{ msg0 32 with written := 0 }]) id)).isNone = true ∧
    (List.replicate 32 0#8 : List Byte).length < 32 * (bits (0x100#32 : U32).toNat 8 6 + 1) ∧ 32 * (bits (0#32 : U32).toNat 8 6 + 1) ≤ (List.replicate 32 0#8 : List Byte).length ∧
    (findFiring (ref0 7) [7] 0 (lone 7 0 0)).isSome = true ∧ (findFiring (ref0 7) [7] 1 (lone 7 1 1)).isSome = true ∧
    (findFiring (ref0 7) [7] 2 (lone 7 2 1)).isSome = true ∧ (findFiring (ref0 7) [7] 3 (lone 7 3 1)).isSome = true ∧
    (plotOf (lone 7 2 1) 0).arr.switchTo = none ∧ (plotOf (lone 7 2 1) 0).arr.draining = false ∧
    (findFiring (ref0 7) [7] 2 (firing 7 2 1 0#32 0 Slice.empty (fun a => { a with switchTo := some 1 }))).isSome = true ∧
    (plotOf (lone 7 3 1) 0).arr.active = some (bits (0#32 : U32).toNat 10 2) ∧ (plotOf (lone 7 3 1) 0).arr.active ≠ some (bits (0x400#32 : U32).toNat 10 2) ∧
    findFiring (ref0 7) [7] 0 ready = none := by (repeat' apply And.intro) <;> decide +kernel

def barred (sec : Section) (toks : List Tok) (f : Arr → Arr) : State := arrayed sec toks Slice.empty f

/-- The sections: a load of an inactive slot, of the active one, of the slot that a flushed switch waits for, with another load of the same slot behind it and without; the
barrier of a switch, of a switch whose slot is loading, of a drain, under STRICT with and without residual tokens; a plot that starves and one that does not. -/
theorem wit_sections :
    (let s := barred (arrSection []) [] (fun a => { a with loads := [(1, 0)], switchTo := some 1, flushed := true })
     (plotOf s 0).arr.loads = (1, 0) :: [] ∧ (plotOf s 0).arr.flushed = true ∧ ([] : List (Nat × Nat)).head?.map (·.1) ≠ some 1 ∧ atBarrier s 0 = false) ∧
    ([(1, 2)] : List (Nat × Nat)).head?.map (·.1) = some 1 ∧
    (let s := barred (arrSection []) [] (fun a => { a with loads := [(1, 0)], switchTo := some 1 })
     atBarrier s 0 = true ∧ arrayQuiet s 0 = true ∧ slotLoading (plotOf s 0).arr 1 = true ∧ (plotOf s 0).arr.switchTo = some 1) ∧
    slotLoading (plotOf (barred (arrSection []) [] (fun a => { a with switchTo := some 1 })) 0).arr 1 = false ∧
    (let s := barred (arrSection []) [] (fun a => { a with loads := [(1, 0)] }); (plotOf s 0).arr.loads = (1, 0) :: [] ∧ (plotOf s 0).arr.active ≠ some 1) ∧
    (let s := barred (arrSection []) [] (fun a => { a with loads := [(0, 0)] }); (plotOf s 0).arr.loads = (0, 0) :: [] ∧ (plotOf s 0).arr.active = some 0) ∧
    (let s := barred (arrSection []) [] (fun a => { a with switchTo := some 1 })
     atBarrier s 0 = true ∧ arrayQuiet s 0 = true ∧ residualOf s 0 = 0 ∧ ((activeSection s 0).map (·.strict)).getD false = false ∧ (plotOf s 0).arr.switchTo = some 1) ∧
    (let s := barred (arrSection []) [] (fun a => { a with draining := true })
     atBarrier s 0 = true ∧ arrayQuiet s 0 = true ∧ (plotOf s 0).arr.switchTo = none) ∧
    (let s := barred (strictly (arrSection [])) [tok0 0 0 1#32] (fun a => { a with switchTo := some 1 })
     atBarrier s 0 = true ∧ arrayQuiet s 0 = true ∧ residualOf s 0 ≠ 0 ∧ ((activeSection s 0).map (·.strict)).getD false = true) ∧
    (let s := barred (strictly (arrSection [])) [] (fun a => { a with switchTo := some 1 }); residualOf s 0 = 0 ∧ arrayQuiet s 0 = true) ∧
    (atBarrier (lone 0 0x01 2) 0 = false ∧ arrayQuiet (lone 0 0x01 2) 0 = false) ∧
    (let s := barred (arrSection []) [tok0 0 0 1#32] id
     arrayRuns s 0 0 = true ∧ (plotOf s 0).arr.toks ≠ [] ∧ openFirings s 0 = [] ∧ writesWait s 0 = false ∧ unitStalled s 0 = false ∧ (plotOf s 0).arr.loads = []) ∧
    (arrayRuns ready 0 0 = false) ∧ (plotOf (lone 0 1 2) 0).assigned = true ∧ (1#16 : U16) ≠ (plotOf (lone 0 1 2) 0).arr.epoch ∧
    (0#16 : U16) = (plotOf (lone 0 1 2) 0).arr.epoch ∧ (plotOf ready 0).assigned = false := by (repeat' apply And.intro) <;> decide +kernel

/-- NodesStayInTheirPlot and PinsAndFusesChangeOnlyBy: a node that fires, and commands of both kinds that answer a next state. -/
theorem wit_nodes_and_pins :
    nodeOf (.pass (ref0 0)) = some (ref0 0) ∧ (∃ t, exec (.pass (ref0 0)) (lone 0 0 1) = .next t) ∧ pinEdge (.pass (ref0 0)) = false ∧
    fuseCommand (.pass (ref0 0)) = false ∧ pinEdge .powerGoodLoss = true ∧ pinEdge .jtagReset = true ∧ fuseCommand .powerGoodLoss = false ∧ (∃ t, exec .powerGoodLoss ready = .next t) := by
  refine ⟨?_, ⟨_, rfl⟩, ?_, ?_, ?_, ?_, ?_, ⟨_, rfl⟩⟩ <;> decide

/-! ## Trellis, codes and keys -/

/-- Field 0 with pass-through routers. -/
def holedField (l : List (Nat × Nat)) : Field := { Field.empty with through := l }
def parcel0 (cls : Nat) : Parcel := ⟨0, .router 0 1, 0, cls, .edge 0 3 0, .request 0 1⟩
/-- A packet on its way west out of field 0 at (0, 1), that came in at an input. -/
def flight0 (input waited : Nat) : Flight := ⟨[⟨0, 0, 1, 3, input, 0⟩], waited, true, parcel0 0⟩
def two0 : List (Flight × Nat) := [(flight0 0 63, 0), (flight0 2 64, 1)]
def onGrid (t : Trellis) : State := { flowing with grid := [(0, t)] }
/-- A state whose field 0 sends packets for field 1 by the bridge of its east edge. -/
def bridged : State := updField 0 (fun v => { v with routes := [(1, some 0)] }) flowing

/-- TrellisRoutesAndHolds: the last field, stack and channel; two outputs of a way; the corner of route 1 live, of route 2, and of route 3 alone, and none; a goal in the
field and one in another, with a bridge; two packets that want one output, of which one has waited 64 mesh cycles; a held plot, a stalled class and a free one; a way that is kept
back and one that is open; a pool with 255 and with 256 packets. -/
theorem wit_trellis :
    ((7 : Nat) < 8 ∧ (3 : Nat) < 4 ∧ (15 : Nat) < 16 ∧ (3 : Nat) < 4 ∧ (33 : Nat) < 34) ∧
    ((holedField []).routed (0, 0) (5, 6) 4)[4]? = some (4, 0, 1) ∧ ((holedField []).routed (0, 0) (5, 6) 4)[5]? = some (5, 0, 2) ∧
    (holedField []).routerLive 5 0 = true ∧ (holedField [(5, 0)]).routerLive 0 6 = true ∧ (holedField [(5, 0)]).routerLive 5 0 = false ∧
    ((holedField [(5, 0), (0, 6)]).routerLive 4 0 = true ∧ (holedField [(5, 0), (0, 6)]).routerLive 4 6 = true ∧ (4 : Nat) < 34) ∧
    turnsIn ((holedField [(5, 0), (0, 6)]).routed (0, 0) (5, 6) 4) = [(4, 0), (4, 6)] ∧
    (Goal.slice 0 0).field = 0 ∧ (Goal.edge 1 3 0).field ≠ 0 ∧ Tab.get (fieldOf bridged 0).routes 1 none = some 0 ∧ bridgeEnds 0 = (0, 1) ∧
    (flight0 0 63, 0) ∈ two0 ∧ (flight0 2 64, 1) ∈ two0 ∧ (flight0 0 63).key = (flight0 2 64).key ∧ winsOutput [] two0 1 (flight0 2 64) = true ∧
    winsOutput [] two0 0 (flight0 0 63) = false ∧ (flight0 2 64).hops ≠ [] ∧ 64 ≤ (flight0 2 64).waited ∧
    plotHeld flowHeld 0 = true ∧ plotHeld flowing 0 = false ∧ (trellisOf flowing 0).stalled = [] ∧
    (∃ v ∈ (trellisOf (onGrid { Trellis.empty with stalled := [parcel0 1] }) 0).stalled, v.site = .router 0 1 ∧ v.cls = 1) ∧
    (∀ l, (legsTo flowHeld 0 (.router 0 1) 0 (.slice 0 0)).head? = some l → keptBack flowHeld 0 (.slice 0 0) l = true) ∧
    (legsTo flowHeld 0 (.router 0 1) 0 (.slice 0 0)).length = 1 ∧
    (∀ l ∈ legsTo flowing 0 (.router 0 1) 0 (.slice 0 0), keptBack flowing 0 (.slice 0 0) l = false) ∧
    (∀ q ∈ (trellisOf (onGrid { Trellis.empty with stalled := [parcel0 1] }) 0).stalled, q.site = (parcel0 0).site → q.cls ≠ (parcel0 0).cls) ∧
    ({ Trellis.empty with pools := List.replicate 255 (parcel0 0) } : Trellis).pools.length < (parcel0 0).site.poolSize ∧
    (parcel0 0).site.poolSize ≤ ({ Trellis.empty with pools := List.replicate 256 (parcel0 0) } : Trellis).pools.length := by
  have h : ∀ (s : State) (b : Bool), (legsTo s 0 (.router 0 1) 0 (.slice 0 0)).all (fun l => keptBack s 0 (.slice 0 0) l == b) = true →
      ∀ l ∈ legsTo s 0 (.router 0 1) 0 (.slice 0 0), keptBack s 0 (.slice 0 0) l = b := by
    intro s b h l hl; simpa using List.all_eq_true.1 h l hl
  refine ⟨?_, ?_, ?_, ?_, ?_, ?_, ?_, ?_, ?_, ?_, ?_, ?_, ?_, ?_, ?_, ?_, ?_, ?_, ?_, ?_, ?_, ?_, ?_,
    fun l hl => h flowHeld true (by decide +kernel) l (List.mem_of_mem_head? hl), ?_, h flowing false (by decide +kernel), ?_, ?_, ?_⟩ <;> decide +kernel

/-- CodesAndKeys: no wrong symbols outside lanes; one, two and three lanes; the last check count; the first and the last block of a pseudo-channel; the last word of a
block; failed and marked words within and beyond the check symbols. -/
theorem wit_codes_and_keys :
    (∀ k, nth ({ lanes := 3 } : WordErrors).symbols k 0 = 0) ∧ 3 ≤ ({ lanes := 3 } : WordErrors).lanes ∧ laneOut.lanes = 1 ∧
    ({ region0 with code := 1 } : Region).code ≠ 2 ∧ (7 : Nat) < 8 ∧ 1879048191 % 2 ^ 31 < 1879048192 ∧ (2 ^ 31 + 2048) % 2 ^ 31 < 1879048192 ∧
    (31 : Nat) < 32 ∧ (∀ w ∈ (blockOut 0).badWords, 32 ≤ w.1 ∨ w.1 ∈ [0, 3]) ∧ erased ([(0, 1)].map (·.1) ++ []) ≤ 44 ∧
    ¬erased ([(0, 1), (3, 1), (5, 1)].map (·.1) ++ []) ≤ 128 ∧ 2 * 0 + erased [0, 3] ≤ ({ region0 with pageCheck := 5 } : Region).checks ∧
    ¬2 * 6 + erased [0, 3] ≤ ({ region0 with pageCheck := 5 } : Region).checks := by
  refine ⟨fun k => rfl, ?_, ?_, ?_, ?_, ?_, ?_, ?_, ?_, ?_, ?_, ?_, ?_⟩ <;> decide +kernel


/-! ## The spec's worked examples

Each expected value stands in the spec's text beside the rule named. -/

/-- R13, R14: slice 9 of logical plot 137 is logical column 5, row 6, position 9; a fence at physical column 3 moves it to column 6 and plots 8 to 11. -/
theorem test_slide_example :
    positionAt 5 6 = 9 ∧ sliceAt 5 6 = 9 ∧ SlideRow.clear.physCol 5 = 5 ∧ (SlideRow.clear.setCode false 3).physCol 5 = 6 ∧
    movedCols 3 = rangeFrom 3 13 ∧ movedCols 14 = [14, 15] := by decide +kernel

/-- R23, R24: row 9's eastern half lost takes positions 20 to 23; Reserve mode maps 60 plots and holds none, Full mode 60. -/
theorem test_lost_half_row_example :
    lostPositions [(9, SlideRow.clear.setLost true)] = [20, 21, 22, 23] ∧
    (let state := fun p => if [20, 21, 22, 23].contains p then 2 else 0
     ((mapTable false state).filter (·.2.mapped)).length = 60 ∧ ((mapTable true state).filter (·.2.mapped)).length = 60 ∧
     ((mapTable false state).filter (fun e => e.2.posState = 1)).length = 0) := by decide +kernel

/-- R28: FP8 E4M3 0x5A is 20. R32: MXFP4 1011 is −1.5, with scale 0x7C −0.1875. -/
theorem test_element_examples :
    (fmtE4M3.decode 0x5A).eq (ofInt 20) = true ∧ (fmtE2M1.decode 0xB).eq (.fin true 3 (-1)) = true ∧
    ((fmtE2M1.decode 0xB).scale (0x7C - 127)).eq (.fin true 3 (-4)) = true := by decide +kernel

/-- R30: an MXFP4 tile of 128 × 1,024 in blocks of 32 holds 65,536 bytes of elements and 4,096 of scales, 69,632 in all. -/
theorem test_tile_layout_example : operandLayout 9 0 128 1024 false = (65536, 69632, 69632) := by decide +kernel

/-- R44: the nibble 0xD places the stored 2.5 and −1 at K positions 1 and 3. -/
theorem test_sparse_example :
    sparseGroup 0xD (.fin false 5 (-1)) (ofInt (-1)) = some [Num.zero, .fin false 5 (-1), Num.zero, ofInt (-1)] := by decide +kernel

/-- R47: a difference of 0.03 against a bound of 4.883 passes, 7.97 fails. -/
theorem test_checksum_example :
    checkSum ⟨0, 0, 0, false, 0, false, 0, 128, 128, 256⟩ 12 0#32 (bits64 (.fin false 123450 0)) (bits64 (.fin false 123453 0), bits64 (ofInt 2000000)) = .pass ∧
    checkSum ⟨0, 0, 0, false, 0, false, 0, 128, 128, 256⟩ 12 0#32 (bits64 (.fin false 124250 0)) (bits64 (.fin false 123453 0), bits64 (ofInt 2000000)) = .fail := by
  decide +kernel

/-- R161: 40 entries into a ring of 256 with its tail at 230: head at 100, at 30, and the ring empty. -/
theorem test_ring_example :
    placeInRing 40 230 256 126 = some (0, true) ∧ placeInRing 40 230 256 56 = none ∧ placeInRing 40 230 256 256 = some (0, true) := by decide

/-- R156: the words of the record of channel 12. -/
theorem test_channel_example :
    (let c := chanAt (Mem.write [] 0 (lay [(4, 0x003F0C03), (4, 0x00004046), (4, 0x00006200), (4, 0x00000600)])) 0
     [c.destType, c.maxLen, c.readerPlot, c.readerQueue, c.pqBase, c.pqSize, flag c.writerAny, flag c.seqWriter, c.stallUs])
      = [1, 64, 70, 2, 512, 256, 1, 1, 0] := by decide +kernel

/-- R211, R206: address 0x0000_1012_3440 of the X matrix lies in stack 3, channel 6, pseudo-channel 0, page 4,098, row 261 of bank 3, granule 256. -/
theorem test_local_address_example :
    (let r : Region := { region0 with base := 0x10000000, size := 360, start := 4096 }
     let x := r.phys 0x10123440
     (stackOfPhys x, pcOfPhys x % 32, pageOfPhys x, x % 4096, bankRow State.reset.hbm x, granuleOf x % 32768, r.pages))
      = (3, 12, 4098, 1088, (3, 261), 256, 48) := by decide +kernel

/-- R234: page 143,664 of stack 13, channel 2, pseudo-channel 1 lies in row 9,120 of bank 24. -/
theorem test_page_example : bankRow State.reset.hbm (physAddr 13 5 (143664 * 4096)) = (24, 9120) := by decide +kernel

/-- R261, R264: seven lanes qualify, the six lowest of them are active. -/
theorem test_port_example :
    lowestLanes 0xDF#8 = 0x5F#8 ∧
    ({ Port.empty with pstate := 1, trainedBy := 2, active := 0x5F#8, qualified := 0xDF#8, reason := 0 } : Port).reportWord = 0x00DF5F09 ∧
    lowestLanes 0x57#8 = 0x17#8 ∧ widthOf 5 = 4 := by decide +kernel

/-- R285, R288: the root's paths to C, B's path to C, and the hash that picks port 5. -/
theorem test_mesh_example :
    (let ms : Tab Member := [(0, ⟨[], [(3, 1), (5, 2)], []⟩), (1, ⟨[3], [(0, 0), (1, 3)], []⟩), (2, ⟨[5], [(0, 0), (2, 3)], []⟩),
       (3, ⟨[3, 1], [(0, 1), (1, 2)], []⟩)]
     (memberEntry ms 0 3, memberEntry ms 2 3)) = (0x0028#16, 0x0004#16) ∧
    routeHash 0x0943 0x12345600 = 0x3D07 ∧ choosePort State.reset 0 0x0943 0x12345600 [3, 5] = some 5 := by decide +kernel

/-- R315, R319: a limit above the ceiling is clamped to it, and the response says so; in TESTING the request is refused and the limit stays. -/
theorem test_power_limit_example :
    (let s := { inMode .running with pwr := { (inMode .running).pwr with ceiling := 4500, limitSet := 4000 } }
     match exec (.powerLimitSet ⟨1, 2, 41, 8, true⟩ 5500#64) s with
     | .next t => (t.pwr.limitSet, (Tab.get t.mbx.boxes 1 Mailbox.empty).rsp.map (fun e => [e.2.status, e.2.session, e.2.seq, e.2.state, e.2.clamps.toNat, leNat e.2.payload]))
     | _ => (0, [])) = (4500, [[1, 2, 41, 5, 1, 4500]]) := by decide +kernel

/-- R7, R13: field 4 holds logical plot 317. R405: the pairs of the shut-down test. -/
theorem test_field_examples : fieldOfPlot 317 = 4 ∧ testPairs State.reset = [(0, 7), (3, 4), (1, 6), (2, 5)] ∧ halfCode 20 = 3 := by decide

/-! ## Values that published definitions fix -/

/-- R159, R250: the usual check values of the two CRCs over the digits 1 to 9 in ASCII. -/
theorem test_crc_check_values :
    (let d := (List.range 9).map (fun i => BitVec.ofNat 8 (0x31 + i)); (crc32 d, crc16 d)) = (0xCBF43926#32, 0x29B1#16) := by decide +kernel

/-- R50: 1 + 2, 1 − 2, 3 × 0.5, (2 × 3) + 1, a sum that ties to even, and an overflow, in FP32 of IEEE 754. -/
theorem test_fp32_arithmetic :
    fadd 0x3F800000#32 0x40000000#32 = 0x40400000#32 ∧ fsub 0x3F800000#32 0x40000000#32 = 0xBF800000#32 ∧
    fmul 0x40400000#32 0x3F000000#32 = 0x3FC00000#32 ∧ ffma 0x40000000#32 0x40400000#32 0x3F800000#32 = 0x40E00000#32 ∧
    fadd 0x4B800000#32 0x3F800000#32 = 0x4B800000#32 ∧ fadd 0x7F7FFFFF#32 0x7F7FFFFF#32 = 0x7F800000#32 := by decide +kernel

/-- R50, R120: a step of the array on a state of one node: 1 in lane 0 of both ports gives the sum at the destination, and both tokens are gone. -/
theorem test_fadd_fires :
    (match exec (.fadd (ref0 0) ⟨0⟩) (lone 0 0x01 2) with
     | .next t => (plotOf t 0).arr.toks.map (fun k => (k.key, k.port, k.lanes.headD 0#32))
     | _ => []) = [(15, 0, 0x00000002#32)] := by decide +kernel

end Sys2Proof.Tests
end

/-! PROOF. What `job.start` does (R69, R326): the tables that it maps over, the slots and counters that `resetJob` leaves, and that no step of the
start changes the control registers but for the module state. -/

namespace Sys2Proof

/-! ## Tables mapped -/

/-- A key that a table lists answers with the mapped value, one that it does not with the default, which the map must therefore keep. -/
theorem Tab.get_mapVals {α : Type} (t : Tab α) (f : Nat → α → α) (k : Nat) (d : α) (hd : f k d = d) :
    Tab.get (Tab.mapVals t f) k d = f k (Tab.get t k d) := by
  induction t with
  | nil => exact hd.symm
  | cons e r ih =>
    obtain ⟨j, v⟩ := e
    by_cases hj : j = k
    · subst hj; simp [Tab.mapVals, Tab.get]
    · simp [Tab.mapVals, Tab.get, hj, ih]

theorem Tab.find_mapVals {α : Type} (t : Tab α) (f : Nat → α → α) (k : Nat) : Tab.find (Tab.mapVals t f) k = (Tab.find t k).map (f k) := by
  induction t with
  | nil => rfl
  | cons e r ih =>
    obtain ⟨j, v⟩ := e
    by_cases hj : j = k
    · subst hj; simp [Tab.mapVals, Tab.find]
    · simp [Tab.mapVals, Tab.find, hj, ih]

/-- A table made from another one, key by key, answers at a key of that one with the value made from what stands there. -/
theorem Tab.get_map_of_find {α β : Type} {t : Tab α} {k : Nat} {v : α} (g : Nat → α → β) (d : β) (h : Tab.find t k = some v) :
    Tab.get (t.map (fun e => (e.1, g e.1 e.2))) k d = g k v := by
  induction t with
  | nil => simp [Tab.find] at h
  | cons e r ih =>
    obtain ⟨j, w⟩ := e
    by_cases hj : j = k
    · subst hj
      have hw : w = v := by simpa [Tab.find] using h
      simp [Tab.get, hw]
    · have hr : Tab.find r k = some v := by simpa [Tab.find, hj] using h
      simpa [Tab.get, hj] using ih hr

end Sys2Proof

namespace Sys2Proof.Machine

open Sys2Proof

/-! ## The answer -/

/-- An accepted `job.start` answers with the first fault that its second check of plots and mesh address finds, or starts the job (R326). -/
theorem exec_jobStart {h : Hdr} {s : State} (hacc : Accepted (.jobStart h) s) :
    exec (.jobStart h) s = .next (((startFault (accept h s)).map (fun d => failedResponse h 0x0301 d (accept h s))).getD
      (okResponse h 0x0301 [] (startJob (accept h s)))) := by
  have hgo : judge h ⟨0x0301, 0, false, tenantKind, [.loaded], ownJob h s⟩ s = .go := hacc
  show execJobStart h s = _
  unfold execJobStart
  rw [request_go hgo]
  cases startFault (accept h s) <;> rfl

/-! ## What `resetJob` leaves -/

theorem plotOf_resetJob (s : State) (p : Nat) :
    plotOf (resetJob s) p = if (plotOf s p).assigned then (plotOf s p).startJob else plotOf s p :=
  Tab.get_mapVals _ _ _ _ rfl

theorem runs_resetJob (s : State) (f : Nat) : (fieldOf (resetJob s) f).runs = Tab.mapVals (fieldOf s f).runs (fun _ r => r.startJob) :=
  congrArg Field.runs (Tab.get_mapVals _ _ _ _ rfl)

theorem chanOf_resetJob (s : State) (c : Nat) : chanOf (resetJob s) c = (chanOf s c).startJob :=
  Tab.get_mapVals _ _ _ _ rfl

/-- A declared slot at the start (R69): every part of the presence of `PRESENCE_INIT`, none poisoned, both indices 0. -/
theorem slot_startJob {sl : Slice} {k : Nat} {d : SlotDef} (h : Tab.find sl.slots k = some d) :
    sl.startJob.slot k = ⟨if d.initFull then List.range d.parts else [], [], 0, 0, (sl.slot k).redundant⟩ :=
  Tab.get_map_of_find (fun j (e : SlotDef) => (⟨if e.initFull then List.range e.parts else [], [], 0, 0, (sl.slot j).redundant⟩ : SlotState)) SlotState.empty h

theorem partFull_startJob {sl : Slice} {k part : Nat} {d : SlotDef} (h : Tab.find sl.slots k = some d) (hp : part < d.parts) :
    sl.startJob.partFull k part = d.initFull := by
  unfold Slice.partFull
  rw [slot_startJob h]
  cases d.initFull <;> simp [hp]

theorem partPoisoned_startJob {sl : Slice} {k : Nat} {d : SlotDef} (part : Nat) (h : Tab.find sl.slots k = some d) :
    sl.startJob.partPoisoned k part = false := by
  unfold Slice.partPoisoned
  rw [slot_startJob h]
  rfl

/-! ## The control registers over a start

A queue that closes may send a waiting node's token on, which under STRICT may fault the job and begin a drain. A drain moves the module state, which
`startJob` sets afterwards, and no other control register. -/

/-- The control registers but for the module state. -/
def ctlButMode (s : State) : Ctl := { s.ctl with mode := .running }

theorem ctlButMode_of_ctl {s t : State} (h : t.ctl = s.ctl) : ctlButMode t = ctlButMode s := by
  unfold ctlButMode; rw [h]

@[simp] theorem ctlButMode_setMode (m : ModState) (cause : Nat) (s : State) : ctlButMode (setMode m cause s) = ctlButMode s := by
  unfold ctlButMode; rw [setMode_ctl]

theorem forEach_ctlButMode {α : Type} (l : List α) (f : α → State → State) (s : State) (h : ∀ a s, ctlButMode (f a s) = ctlButMode s) :
    ctlButMode (forEach l f s) = ctlButMode s := by
  induction l generalizing s with
  | nil => rfl
  | cons a r ih => rw [forEach, ih, h]

@[simp] theorem ctlButMode_beginDrain (cause : Nat) (s : State) : ctlButMode (beginDrain cause s) = ctlButMode s := by
  unfold beginDrain
  split
  · rw [ctlButMode_setMode]; rfl
  · rfl

@[simp] theorem ctlButMode_record (e : EventRec) (s : State) : ctlButMode (record e s) = ctlButMode s :=
  ctlButMode_of_ctl (record_ctl e s)

@[simp] theorem ctlButMode_jobFault (cause code : Nat) (s : State) : ctlButMode (jobFault cause code s) = ctlButMode s := by
  unfold jobFault
  dsimp only
  split
  · rw [ctlButMode_beginDrain]
    split
    · exact ctlButMode_record _ s
    · exact ctlButMode_record _ s
  · rfl

@[simp] theorem ctlButMode_faultEvent (e : EventRec) (s : State) : ctlButMode (faultEvent e s) = ctlButMode s := by
  unfold faultEvent
  rw [ctlButMode_jobFault, ctlButMode_record]

@[simp] theorem ctlButMode_updArr (p : Nat) (f : Arr → Arr) (s : State) : ctlButMode (updArr p f s) = ctlButMode s := rfl

@[simp] theorem ctlButMode_sectionFault (kind p i pos node : Nat) (s : State) :
    ctlButMode (sectionFault kind p i pos node s) = ctlButMode s := by
  unfold sectionFault
  dsimp only
  split
  · rfl
  · rw [ctlButMode_faultEvent]; rfl

@[simp] theorem ctlButMode_noteStale (p : Nat) (s : State) : ctlButMode (noteStale p s) = ctlButMode s := by
  unfold noteStale
  (repeat' split) <;> simp

@[simp] theorem ctlButMode_completeNode (p key : Nat) (tag : BitVec 16) (epoch : U16) (s : State) :
    ctlButMode (completeNode p key tag epoch s) = ctlButMode s := by
  unfold completeNode
  (repeat' split) <;> simp

@[simp] theorem ctlButMode_updChanQueue (c : Nat) (ch : Channel) (f : Queue → Queue) (s : State) :
    ctlButMode (updChanQueue c ch f s) = ctlButMode s :=
  ctlButMode_of_ctl (by simp)

@[simp] theorem ctlButMode_updChan (c : Nat) (g : ChanState → ChanState) (s : State) : ctlButMode (updChan c g s) = ctlButMode s := rfl

@[simp] theorem ctlButMode_endWait (c : Nat) (ch : Channel) (w : Waiter) (s : State) : ctlButMode (endWait c ch w s) = ctlButMode s := by
  unfold endWait
  dsimp only
  split <;> simp

@[simp] theorem ctlButMode_dropWaiters (c : Nat) (ch : Channel) (s : State) : ctlButMode (dropWaiters c ch s) = ctlButMode s :=
  forEach_ctlButMode _ _ _ fun w s => by rw [countDrop, ctlButMode_updChanQueue, ctlButMode_endWait]

@[simp] theorem ctlButMode_reportQueue (kind c : Nat) (ch : Channel) (s : State) : ctlButMode (reportQueue kind c ch s) = ctlButMode s :=
  ctlButMode_of_ctl (by simp)

@[simp] theorem ctlButMode_closeChannel (c : Nat) (ch : Channel) (s : State) : ctlButMode (closeChannel c ch s) = ctlButMode s := by
  unfold closeChannel
  dsimp only
  (repeat' split) <;> simp

@[simp] theorem ctlButMode_closeOnSwitch (p : Nat) (s : State) : ctlButMode (closeOnSwitch p s) = ctlButMode s := by
  unfold closeOnSwitch
  split
  · rfl
  · exact forEach_ctlButMode _ _ _ fun e s => ctlButMode_closeChannel e.1 e.2 s

@[simp] theorem ctlButMode_activateSection (p slot : Nat) (s : State) : ctlButMode (activateSection p slot s) = ctlButMode s := by
  unfold activateSection
  rw [ctlButMode_closeOnSwitch, ctlButMode_updArr, ctlButMode_updArr]

@[simp] theorem ctlButMode_startArray (p : Nat) (s : State) : ctlButMode (startArray p s) = ctlButMode s := by
  unfold startArray
  split <;> simp

/-- The module is RUNNING after a start, and no other control register has changed. -/
theorem startJob_ctl (s : State) : (startJob s).ctl = { s.ctl with mode := .running } := by
  unfold startJob
  rw [setMode_ctl]
  have hopen : (forEach s.job.channels (fun e => openChannel e.1 e.2) (writeFieldRoutes (resetJob s))).ctl = s.ctl := by simp
  exact (forEach_ctlButMode _ _ _ ctlButMode_startArray).trans (ctlButMode_of_ctl hopen)

/-! ## The statement -/

/-- Settles O27: the answer by the case of `startFault`, the registers by `startJob_ctl`, the tables as maps of those before the start, and the slots
by `slot_startJob`. -/
theorem jobStart : Obligations.JobStart := by
  refine ⟨fun h s hacc => ⟨fun hf => ?_, fun d hf => ?_⟩, fun s => ⟨startJob_ctl s, by simp, by simp⟩, fun s => ?_, fun sl k d hk => ?_⟩
  · simp [exec_jobStart hacc, hf]
  · simp [exec_jobStart hacc, hf]
  · refine ⟨rfl, plotOf_resetJob s, fun p i hp => ?_, fun f k => ?_, chanOf_resetJob s, rfl⟩
    · rw [plotOf_resetJob, if_pos hp]
      exact Tab.find_mapVals _ _ _
    · rw [runs_resetJob]
      exact Tab.find_mapVals _ _ _
  · refine ⟨fun part hp => ⟨partFull_startJob hk hp, partPoisoned_startJob part hk⟩, ?_, ?_, rfl⟩
    · rw [slot_startJob hk]
    · rw [slot_startJob hk]

end Sys2Proof.Machine

/-! PROOF. Nodes of the array that compute, reduce, steer and issue (R113 to R150): what a firing leaves of its plot, the special-function
unit, reductions, queues and parameters, and the switch of a section. -/

namespace Sys2Proof.Machine

open Sys2Proof

/-! ## What a firing leaves

Tokens move, and firings are counted; nothing else of an array changes but by the firing's own operation. -/

/-- An array without its tokens and its counts of firings. -/
def Arr.settings (a : Arr) : Arr :=
  { a with toks := [], outs := [], pass := [], clock := 0, emitted := [], firedAt := [], retired := [], retFired := [] }

theorem foldl_settings {α : Type} (l : List α) (f : Arr → α → Arr) (a : Arr) (h : ∀ a x, (f a x).settings = a.settings) :
    (l.foldl f a).settings = a.settings := by
  induction l generalizing a with
  | nil => rfl
  | cons x r ih => rw [List.foldl_cons, ih, h]

theorem Arr.settings_forward {sec : Section} {a b : Arr} {i : Nat} {t : Tok} (h : a.forward sec i t = some b) : b.settings = a.settings := by
  unfold Arr.forward at h
  dsimp only at h
  (repeat' split at h) <;> cases h <;> rfl

@[simp] theorem Arr.settings_relay (sec : Section) (a : Arr) (q : PassTok) : (a.relay sec q).settings = a.settings := by
  unfold Arr.relay
  dsimp only
  cases h : Arr.forward sec { a with pass := a.pass.erase q } q.slice q.tok with
  | none => rfl
  | some b => exact (Arr.settings_forward h).trans rfl

@[simp] theorem Arr.settings_deliver (sec : Section) (a : Arr) (o : OutTok) : (a.deliver sec o).settings = a.settings := by
  unfold Arr.deliver
  cases h : a.forward sec (keySlice o.src) o.tok with
  | none => rfl
  | some b => exact (Arr.settings_forward h).trans rfl

@[simp] theorem Arr.settings_pumpOnce (sec : Section) (a : Arr) : (a.pumpOnce sec).settings = a.settings := by
  unfold Arr.pumpOnce
  dsimp only
  rw [foldl_settings _ _ _ (fun b o => Arr.settings_deliver sec b o)]
  exact foldl_settings _ _ _ (fun b q => Arr.settings_relay sec b q)

@[simp] theorem Arr.settings_pump (sec : Section) (a : Arr) : (a.pump sec).settings = a.settings := by
  have key : ∀ (n : Nat) (a : Arr), (a.pumpFor sec n).settings = a.settings := by
    intro n
    induction n with
    | zero => exact fun _ => rfl
    | succ n ih =>
      intro a
      unfold Arr.pumpFor
      dsimp only
      (repeat' split) <;> simp [ih]
  exact key _ a

@[simp] theorem Firing.settings_send (fr : Firing) (dests : List Dest) (tag : BitVec 16) (lanes : List U32) (a : Arr) :
    (fr.send dests tag lanes a).settings = a.settings :=
  Arr.settings_pump _ _

@[simp] theorem Firing.settings_take (fr : Firing) (a : Arr) : (fr.take a).settings = a.settings := by
  unfold Firing.take
  dsimp only
  split <;> rfl

@[simp] theorem Arr.settings_retire (sec : Section) (nd : Node) (tag : BitVec 16) (a : Arr) : (a.retire sec nd tag).settings = a.settings := by
  unfold Arr.retire
  split <;> rfl

@[simp] theorem plotOf_updArr (p : Nat) (f : Arr → Arr) (s : State) :
    plotOf (updArr p f s) p = { plotOf s p with arr := f (plotOf s p).arr } :=
  plotOf_updPlot _ _ _

@[simp] theorem plotOf_noteWork (p i : Nat) (s : State) :
    plotOf (noteWork p i s) p = (plotOf s p).setSlice i (Slice.noteWork s.ctl.localTime ((plotOf s p).slice i)) :=
  plotOf_updPlot _ _ _

section
variable (n : NodeRef) (fr : Firing) (res : Arr → Arr) (s : State)

theorem fire_eq_plots : fire n fr res s = { s with plots := (fire n fr res s).plots } := rfl

theorem plotOf_fire_ne {p : Nat} (hp : p ≠ n.plot) : plotOf (fire n fr res s) p = plotOf s p :=
  (plotOf_updPlot_ne _ _ _ _ hp).trans (plotOf_updPlot_ne _ _ _ _ hp)

theorem params_fire : (plotOf (fire n fr res s) n.plot).params = (plotOf s n.plot).params := by
  unfold fire
  rw [plotOf_noteWork, plotOf_updArr]
  rfl

/-- Of the array but its tokens, a firing leaves what its operation makes of an array that differs from the present one in tokens alone. -/
theorem settings_fire : ∃ v : Arr, v.settings = (plotOf s n.plot).arr.settings ∧
    (plotOf (fire n fr res s) n.plot).arr.settings = (res v).settings := by
  refine ⟨(fr.take (plotOf s n.plot).arr).retire fr.sec fr.nd fr.tag, by simp, ?_⟩
  unfold fire
  rw [plotOf_noteWork, plotOf_updArr]
  exact Arr.settings_pump _ _

end

/-- Operations that agree on every array that differs from the present one in tokens alone make the same firing. -/
theorem fire_congr {n : NodeRef} {fr : Firing} {res res' : Arr → Arr} {s : State}
    (h : ∀ v : Arr, v.settings = (plotOf s n.plot).arr.settings → res v = res' v) : fire n fr res s = fire n fr res' s := by
  have hv := h ((fr.take (plotOf s n.plot).arr).retire fr.sec fr.nd fr.tag) (by simp)
  unfold fire updArr updPlot
  dsimp only
  rw [hv]

/-! ## Nodes without a state of their own -/

/-- A command that is a lane-wise node fires with the lanes that the node computes, and does nothing where it may not fire. -/
theorem fireLanes_runs {c : Instr} {n : NodeRef} {positions : List Nat} {op : Nat} {f : Node → List (List U32) → List U32} {s : State}
    (hc : exec c s = .next (fireLanes n positions op f s)) :
    (∀ fr, findFiring n positions op s = some fr → exec c s = .next (fireResult n fr (f fr.nd fr.ins) s)) ∧
    (findFiring n positions op s = none → exec c s = .next s) := by
  rw [hc]
  unfold fireLanes
  exact ⟨fun fr h => by rw [h], fun h => by rw [h]⟩

/-- A command that is a steering node sends its lanes to the destinations that the node picks. -/
theorem fireSteer_runs {c : Instr} {n : NodeRef} {op : Nat} {f : Firing → List Dest × List U32} {s : State}
    (hc : exec c s = .next (fireSteer n op f s)) :
    (∀ fr, findFiring n [4] op s = some fr → exec c s = .next (fire n fr (fr.send (f fr).1 fr.tag (f fr).2) s)) ∧
    (findFiring n [4] op s = none → exec c s = .next s) := by
  rw [hc]
  unfold fireSteer
  exact ⟨fun fr h => by rw [h], fun h => by rw [h]⟩

theorem control_iff (l : List U32) : control l = true ↔ l.headD 0#32 ≠ 0#32 := decide_eq_true_iff

/-! ## Groups over iterations (R130, R131) -/

section
variable {fr : Firing} {join : Acc → Acc} {out : Acc → List (List Dest × List U32)} {v : Arr} {old : Acc}

/-- Before the last token of its group, a token is only joined. -/
theorem groupStep_of_lt (hold : Tab.get v.accs (fr.key * 16 + tagCtx fr.tag) Acc.empty = old) (h : (join old).count + 1 < fr.nd.group) :
    groupStep fr join out v =
      { v with accs := Tab.set v.accs (fr.key * 16 + tagCtx fr.tag) { join old with count := (join old).count + 1 } } := by
  subst hold
  exact if_pos h

/-- With the last token of its group the results go out, and the next group begins empty. -/
theorem groupStep_of_le (hold : Tab.get v.accs (fr.key * 16 + tagCtx fr.tag) Acc.empty = old) (h : fr.nd.group ≤ (join old).count + 1) :
    groupStep fr join out v = (out (join old)).foldl (fun a r => fr.send r.1 (mkTag (tagCtx fr.tag) (join old).groups) r.2 a)
      { v with accs := Tab.set v.accs (fr.key * 16 + tagCtx fr.tag) ⟨0, (join old).groups + 1, [], []⟩ } := by
  subst hold
  exact if_neg (by omega)

end

/-- What a firing leaves of an accumulator that its operation sets. -/
theorem accs_fire {n : NodeRef} {fr : Firing} {res : Arr → Arr} {s : State} {k : Nat} {c : Acc}
    (h : ∀ v : Arr, (res v).settings = { v.settings with accs := Tab.set v.accs k c }) :
    Tab.get (plotOf (fire n fr res s) n.plot).arr.accs k Acc.empty = c := by
  obtain ⟨v, -, hv⟩ := settings_fire n fr res s
  have haccs : (plotOf (fire n fr res s) n.plot).arr.accs = Tab.set v.accs k c := congrArg Arr.accs (hv.trans (h v))
  rw [haccs, Tab.get_set_same]

end Sys2Proof.Machine

namespace Sys2Proof

/-! ## Special values of the special-function unit (R53) -/

/-- A subnormal operand, decoded: below 2^23 units of 2^−149. -/
theorem f32_of_isSub {x : U32} (h : isSub x = true) : f32 x = .fin (bit x.toNat 31) (bits x.toNat 0 23) (-149) := by
  obtain ⟨hex, -⟩ : bits x.toNat 23 8 = 0 ∧ bits x.toNat 0 23 ≠ 0 := by simpa [isSub] using h
  simp [f32, Fmt.decode, fmt32, hex]

theorem isSub_of_isNan {x : U32} (h : (f32 x).isNan = true) : isSub x = false := by
  refine Bool.eq_false_iff.2 fun hs => ?_
  rw [f32_of_isSub hs] at h
  cases h

/-- An operand beyond 2^15 is no subnormal one. -/
theorem isSub_of_large {x : U32} (h : (Num.fin false 1 15).lt (f32 x).abs = true) : isSub x = false := by
  refine Bool.eq_false_iff.2 fun hs => ?_
  have hm : bits x.toNat 0 23 < 2 ^ 23 := Nat.mod_lt _ (by decide)
  rw [f32_of_isSub hs] at h
  have hlt := of_decide_eq_true h
  simp only [signedAt, Bool.false_eq_true, if_false] at hlt
  have hone : (1 * 2 ^ ((15 : Int) - min 15 (-149)).toNat : Nat) = 2 ^ 164 := by decide
  have hunit : ((-149 : Int) - min 15 (-149)).toNat = 0 := by decide
  rw [hone, hunit] at hlt
  omega

/-- R53: the result for a NaN operand is the canonical NaN. -/
theorem sfu_nan (code : Nat) {x : U32} (h : (f32 x).isNan = true) : sfu code x = canonNan := by
  have hx : f32 x = .nan := by
    cases hf : f32 x <;> simp [hf, Num.isNan] at h ⊢
  simp [sfu, isSub_of_isNan h, hx]

/-- Sine and cosine of a finite operand that is no subnormal one come from the tables. -/
theorem sfu_circular {code : Nat} {x : U32} (hc : code = 4 ∨ code = 5) (hs : isSub x = false) (hf : (f32 x).isFin = true) :
    sfu code x = sfuTabled code x := by
  cases hx : f32 x with
  | fin neg m e => rcases hc with rfl | rfl <;> simp [sfu, hs, hx]
  | inf neg => simp [hx, Num.isFin] at hf
  | nan => simp [hx, Num.isFin] at hf

theorem f32_zeroLike (x : U32) : ∃ neg e, f32 (zeroLike x) = .fin neg 0 e := by
  have h : zeroLike x = if x.getLsbD 31 then 0x80000000#32 else 0#32 := BitVec.and_twoPow x 31
  rw [h]
  split
  · exact ⟨true, -149, by decide⟩
  · exact ⟨false, -149, by decide⟩

/-- One is not below a magnitude of zero, whatever its weight. -/
theorem one_not_lt_zero_mag (e : Int) : (Num.fin false 1 0).lt (Num.fin false 0 e) = false := by
  refine decide_eq_false (Int.not_lt.2 ?_)
  simp only [signedAt, Bool.false_eq_true, if_false, Nat.zero_mul]
  exact Int.natCast_nonneg _

/-- Beyond 2^15 a table value of sine or cosine is free, but finite and never larger than 1. -/
theorem sfuTabled_large {code : Nat} {x : U32} (hc : code = 4 ∨ code = 5) (h : (Num.fin false 1 15).lt (f32 x).abs = true) :
    (f32 (sfuTabled code x)).isFin = true ∧ (Num.fin false 1 0).lt (f32 (sfuTabled code x)).abs = false := by
  have hcode : (decide (code = 4) || decide (code = 5)) = true := by simpa using hc
  unfold sfuTabled
  dsimp only
  split
  case isTrue hb => rcases hc with rfl | rfl <;> simpa [sfuBound, h] using hb
  case isFalse hb =>
    obtain ⟨neg, e, hz⟩ := f32_zeroLike x
    rw [if_pos (by rw [hcode, h]; rfl), hz]
    exact ⟨rfl, one_not_lt_zero_mag e⟩

/-! ## The candidates of TOPK (R131) -/

theorem topInsert_perm (c : U32 × U32) (l : List (U32 × U32)) : (topInsert c l).Perm (c :: l) := by
  induction l with
  | nil => exact .refl _
  | cons d r ih =>
    unfold topInsert
    split
    · exact .refl _
    · exact (ih.cons d).trans (.swap c d r)

theorem foldl_topInsert_perm (l new : List (U32 × U32)) : (new.foldl (fun l c => topInsert c l) l).Perm (new ++ l) := by
  induction new generalizing l with
  | nil => exact .refl _
  | cons c r ih => exact (ih _).trans (((topInsert_perm c l).append_left r).trans List.perm_middle)

theorem length_topKeep (k : Nat) (l new : List (U32 × U32)) : (topKeep k l new).length = min k (l.length + new.length) := by
  rw [topKeep, List.length_take, (foldl_topInsert_perm l new).length_eq, List.length_append, Nat.add_comm]

theorem mem_of_mem_topKeep {k : Nat} {l new : List (U32 × U32)} {c : U32 × U32} (h : c ∈ topKeep k l new) : c ∈ l ∨ c ∈ new :=
  (List.mem_append.1 ((foldl_topInsert_perm l new).subset (List.mem_of_mem_take h))).symm

end Sys2Proof

namespace Sys2Proof.Machine
open Sys2Proof

theorem get_accs_of_settings {v a : Arr} (h : v.settings = a.settings) (k : Nat) : Tab.get v.accs k Acc.empty = Tab.get a.accs k Acc.empty :=
  (congrArg (fun b : Arr => Tab.get b.accs k Acc.empty) h :)

/-- The tokens of a group accumulated up to one more. -/
def Acc.joinLanes (g : U32 → U32 → U32) (lanes : List U32) (c : Acc) : Acc :=
  { c with vals := if c.count = 0 then lanes else List.zipWith g c.vals lanes }

theorem fireAcc_fire {n : NodeRef} {op : Nat} {g : U32 → U32 → U32} {s : State} {fr : Firing} (h : findFiring n [3] op s = some fr) :
    fireAcc n op g s = fire n fr (groupStep fr (Acc.joinLanes g (in0 fr.ins)) (fun c => [(fr.nd.dests, c.vals)])) s := by
  unfold fireAcc
  rw [h]
  rfl

/-- An accumulating node (R131): a token is joined to its group, and with the group's last one the result goes out with the group's number. -/
theorem fireAcc_runs {c : Instr} {n : NodeRef} {op : Nat} {g : U32 → U32 → U32} {s : State} (hc : exec c s = .next (fireAcc n op g s)) :
    (findFiring n [3] op s = none → exec c s = .next s) ∧
    (∀ fr, findFiring n [3] op s = some fr →
      let k := fr.key * 16 + tagCtx fr.tag
      let old := Tab.get (plotOf s n.plot).arr.accs k Acc.empty
      let vals := if old.count = 0 then in0 fr.ins else List.zipWith g old.vals (in0 fr.ins)
      ∃ t, exec c s = .next t ∧ (∀ p, p ≠ n.plot → plotOf t p = plotOf s p) ∧ t = { s with plots := t.plots } ∧
        (old.count + 1 < fr.nd.group → Tab.get (plotOf t n.plot).arr.accs k Acc.empty = { old with vals := vals, count := old.count + 1 } ∧
          t = fire n fr (fun v => { v with accs := Tab.set v.accs k { old with vals := vals, count := old.count + 1 } }) s) ∧
        (fr.nd.group ≤ old.count + 1 → Tab.get (plotOf t n.plot).arr.accs k Acc.empty = ⟨0, old.groups + 1, [], []⟩ ∧
          t = fire n fr (fun v => fr.send fr.nd.dests (mkTag (tagCtx fr.tag) old.groups) vals
            { v with accs := Tab.set v.accs k ⟨0, old.groups + 1, [], []⟩ }) s)) := by
  refine ⟨fun h => by rw [hc]; unfold fireAcc; rw [h], fun fr h => ?_⟩
  intro k old vals
  rw [fireAcc_fire h] at hc
  refine ⟨_, hc, fun p hp => plotOf_fire_ne _ _ _ _ hp, fire_eq_plots _ _ _ _, fun hlt => ?_, fun hle => ?_⟩
  · rw [fire_congr (fun v hv => groupStep_of_lt (get_accs_of_settings hv _) hlt)]
    exact ⟨accs_fire fun v => rfl, rfl⟩
  · rw [fire_congr (fun v hv => groupStep_of_le (get_accs_of_settings hv _) hle)]
    exact ⟨accs_fire fun v => Firing.settings_send _ _ _ _ _, rfl⟩

/-- TOPK (R131): the candidates are kept, and with the group's last token their values and indices go out to the two destinations. -/
theorem topk_runs {n : NodeRef} {s : State} {fr : Firing} (h : findFiring n [3] 0x10 s = some fr) :
    let k := fr.key * 16 + tagCtx fr.tag
    let old := Tab.get (plotOf s n.plot).arr.accs k Acc.empty
    let best := topKeep (bits fr.nd.arg.toNat 4 4 + 1) old.cands ((in0 fr.ins).zip (in1 fr.ins))
    (old.count + 1 < fr.nd.group → exec (.topk n) s = .next (fire n fr (fun v => { v with
      accs := Tab.set v.accs k { old with cands := best, count := old.count + 1 } }) s)) ∧
    (fr.nd.group ≤ old.count + 1 → exec (.topk n) s = .next (fire n fr (fun v =>
      fr.send fr.nd.dest1.toList (mkTag (tagCtx fr.tag) old.groups) (padLanes (best.map (·.2)))
        (fr.send fr.nd.dest0.toList (mkTag (tagCtx fr.tag) old.groups) (padLanes (best.map (·.1)))
          { v with accs := Tab.set v.accs k ⟨0, old.groups + 1, [], []⟩ })) s)) := by
  intro k old best
  have hexec : exec (.topk n) s = execTopk n s := rfl
  rw [hexec]
  unfold execTopk
  rw [h]
  exact ⟨fun hlt => congrArg _ (fire_congr fun v hv => groupStep_of_lt (get_accs_of_settings hv _) hlt),
    fun hle => congrArg _ (fire_congr fun v hv => groupStep_of_le (get_accs_of_settings hv _) hle)⟩

/-- A node of the special-function unit (R129): its function of every lane. -/
theorem fireSfu_runs {c : Instr} {n : NodeRef} {code : Nat} {s : State} (hc : exec c s = .next (fireSfu n code s)) :
    (∀ fr, findFiring n [2] code s = some fr → exec c s = .next (fireResult n fr ((in0 fr.ins).map (sfu code)) s)) ∧
    (findFiring n [2] code s = none → exec c s = .next s) :=
  fireLanes_runs (f := fun _ l => (in0 l).map (sfu code)) hc

/-- A reduction over the lanes of one token (R130): the result in every lane. -/
theorem fireReduce_runs {c : Instr} {n : NodeRef} {op : Nat} (F : List U32 → U32) {s : State}
    (hc : exec c s = .next (fireLanes n [3] op (fun _ l => List.replicate 16 (F (in0 l))) s)) :
    (∀ fr, findFiring n [3] op s = some fr → exec c s = .next (fireResult n fr (List.replicate 16 (F (in0 fr.ins))) s)) ∧
    (findFiring n [3] op s = none → exec c s = .next s) :=
  fireLanes_runs (f := fun _ l => List.replicate 16 (F (in0 l))) hc

/-- Settles O56: every node by the lemma of its kind, the groups by `groupStep`, and the results of R53 by the special-function unit's cases. -/
theorem specialReduceAndSteeringNodes : Obligations.SpecialReduceAndSteeringNodes := by
  refine ⟨fun n s => ?_, fun code x _ hx => sfu_nan code hx, by decide, fun code x hc hf hl => ?_,
    fun k l new => ⟨length_topKeep k l new, fun c hm => mem_of_mem_topKeep hm⟩⟩
  · intro runs a b each
    have hctl : ∀ l : List U32, (l.headD 0#32 ≠ 0#32) = (control l = true) := fun l => propext (control_iff l).symm
    refine ⟨fireSfu_runs rfl, fireSfu_runs rfl, fireSfu_runs rfl, fireSfu_runs rfl, fireSfu_runs rfl, fireSfu_runs rfl, fireSfu_runs rfl,
      fireReduce_runs treeSum rfl, fireReduce_runs (foldLanes fmax) rfl, fireReduce_runs (foldLanes fmin) rfl, ?_, fun h => ?_, fun fr h => topk_runs h, ?_,
      fun h => ?_, fun fr h => ?_⟩
    · exact ⟨fireAcc_runs rfl, fireAcc_runs rfl, fireAcc_runs rfl⟩
    · show Host.Outcome.next _ = _
      rw [h]
    · intro steers isSet
      simp only [isSet, hctl]
      exact ⟨fireSteer_runs (f := fun fr => (if control (in1 fr.ins) then fr.nd.dest0.toList else fr.nd.dest1.toList, in0 fr.ins)) rfl,
        fireSteer_runs (f := fun fr => (if control (in1 fr.ins) then fr.nd.dests else [], in0 fr.ins)) rfl,
        fireSteer_runs (f := fun fr => (fr.nd.dests, if control (in0 fr.ins) then in1 fr.ins else in2 fr.ins)) rfl,
        fireSteer_runs (f := fun fr => (fr.nd.dests, lanes3 (fun p a b => if p = 0#32 then b else a) fr.ins)) rfl⟩
    · show Host.Outcome.next _ = _
      rw [h]
    · show Host.Outcome.next _ = _
      rw [h]; rfl
  · rw [sfu_circular hc (isSub_of_large hl) hf]
    exact sfuTabled_large hc hl

end Sys2Proof.Machine

namespace Sys2Proof.Machine

open Sys2Proof

/-! ## Queue nodes (R135, R162, R163) -/

section
variable {n : NodeRef} {s : State} {fr : Firing} {ch : Channel}

theorem qrd_of_no_channel (hf : findFiring n [6] 0 s = some fr) (hc : channelOf s fr.nd.channel = none) : exec (.qrd n) s = .next s := by
  show Host.Outcome.next _ = _
  rw [hf]; dsimp only; rw [hc]

theorem qrd_of_no_message (hf : findFiring n [6] 0 s = some fr) (hc : channelOf s fr.nd.channel = some ch)
    (hq : (chanQueue s fr.nd.channel ch).front = none) : exec (.qrd n) s = .next (waitToRead fr.nd.channel n fr.key fr.tag s) := by
  show Host.Outcome.next _ = _
  rw [hf]; dsimp only; rw [hc]; dsimp only; rw [hq]

/-- A read that finds a message: one with a double-bit error fails, one too long for a node that is fed is a fault, any other is delivered. -/
theorem qrd_of_message {m : QMsg} (hf : findFiring n [6] 0 s = some fr) (hc : channelOf s fr.nd.channel = some ch)
    (hq : (chanQueue s fr.nd.channel ch).front = some m) : exec (.qrd n) s = .next (
      if !m.ue.isEmpty then failMessage fr.nd.channel ch m n.slice m.ue s
      else if !fr.nd.isSource && decide (2 < m.len) then messageFault fr.nd.channel m.seq n.plot n.slice s
      else readToken fr.nd.channel ch m n fr s) := by
  show Host.Outcome.next _ = _
  rw [hf]; dsimp only; rw [hc]; dsimp only; rw [hq]

theorem chanOf_updChan_same (c : Nat) (g : ChanState → ChanState) (s : State) : chanOf (updChan c g s) c = g (chanOf s c) :=
  Tab.get_set_same _ _ _ _

theorem chanOf_updChan_ne {c k : Nat} (g : ChanState → ChanState) (s : State) (h : k ≠ c) : chanOf (updChan c g s) k = chanOf s k :=
  Tab.get_set_ne _ _ _ _ _ h

/-- A node that waits to read stands among its channel's readers, and nothing but the channel has changed (R163). -/
theorem waitToRead_spec (c : Nat) (n : NodeRef) (key : Nat) (tag : BitVec 16) (s : State) :
    (∃ w ∈ (chanOf (waitToRead c n key tag s) c).readers, w.plot = n.plot ∧ w.node = some key) ∧
    (∀ k, k ≠ c → chanOf (waitToRead c n key tag s) k = chanOf s k) ∧
    waitToRead c n key tag s = { s with chans := (waitToRead c n key tag s).chans } := by
  unfold waitToRead
  split
  case isTrue h =>
    obtain ⟨w, hw, hp⟩ := List.any_eq_true.1 h
    exact ⟨⟨w, hw, by simpa using hp⟩, fun _ _ => rfl, rfl⟩
  case isFalse =>
    refine ⟨?_, fun k hk => chanOf_updChan_ne _ _ hk, rfl⟩
    rw [chanOf_updChan_same]
    exact ⟨_, List.mem_append_right _ (List.mem_singleton_self _), rfl, rfl⟩

/-- What a queue write adds to a message: one entry or two of its token. -/
def Firing.chunk (fr : Firing) : List Byte := (lanesBytes (in0 fr.ins)).take (if bit fr.nd.modf 0 then 32 else 64)

/-- The firing of a queue write that offers a message to its queue, from the state `s0` of its plot. -/
def offerMessage (n : NodeRef) (fr : Firing) (ch : Channel) (payload : List Byte) (s0 s : State) : State :=
  sendOrWait fr.nd.channel ch ⟨n.plot, n.slice, some fr.key, fr.tag, (plotOf s n.plot).arr.epoch, payload, s.ctl.localTime, 0, false⟩
    (completeNode n.plot fr.key fr.tag (plotOf s n.plot).arr.epoch)
    (noteWork n.plot n.slice (updArr n.plot (fun a => (fr.take a).pump fr.sec) s0))

theorem qwr_of_blocked (hf : findFiring n [6] 1 s = some fr) (h : channelOf s fr.nd.channel = none ∨ nodeWaits s n.plot fr.key = true) :
    exec (.qwr n) s = .next s := by
  show Host.Outcome.next _ = _
  rw [hf]; dsimp only
  cases hc : channelOf s fr.nd.channel with
  | none => rfl
  | some ch => exact congrArg _ (if_pos (by simpa [hc] using h))

/-- A queue write that may fire (R135, R162): it assembles until the message has its length; else it offers the token or the assembled message. -/
theorem qwr_of_free (hf : findFiring n [6] 1 s = some fr) (hc : channelOf s fr.nd.channel = some ch) (hw : nodeWaits s n.plot fr.key = false) :
    exec (.qwr n) s = .next (
      if bit fr.nd.modf 1 && decide (((sliceOf s n.plot n.slice).asm ++ fr.chunk).length < 32 * (bits fr.nd.arg.toNat 8 6 + 1)) then
        updSlice n.plot n.slice (fun v => { v with asm := (sliceOf s n.plot n.slice).asm ++ fr.chunk }) (fireResult n fr doneLanes s)
      else offerMessage n fr ch (if bit fr.nd.modf 1 then (sliceOf s n.plot n.slice).asm ++ fr.chunk else fr.chunk)
        (if bit fr.nd.modf 1 then updSlice n.plot n.slice (fun v => { v with asm := [] }) s else s) s) := by
  show Host.Outcome.next _ = _
  rw [hf]; dsimp only; rw [hc]; dsimp only; rw [hw]
  rfl

end

/-- A write that its queue has accepted arrives stale where no section of its epoch is active (R146). -/
theorem completeNode_of_stale {p : Nat} (key : Nat) (tag : BitVec 16) {epoch : U16} {s : State}
    (h : activeSection s p = none ∨ epoch ≠ (plotOf s p).arr.epoch) : completeNode p key tag epoch s = noteStale p s := by
  unfold completeNode
  cases ha : activeSection s p with
  | none => rfl
  | some sec => exact if_pos (by simpa [ha] using h)

/-- Else it counts for retirement, and the node's completion token goes out (R138). -/
theorem completeNode_of_current {p key : Nat} (tag : BitVec 16) {epoch : U16} {s : State} {sec : Section} {nd : Node}
    (ha : activeSection s p = some sec) (he : epoch = (plotOf s p).arr.epoch) (hn : Tab.find sec.nodes key = some nd) :
    completeNode p key tag epoch s =
      updArr p (fun a => (a.retire sec nd tag).emit sec key nd.dests (nd.resultTag tag) doneLanes) s := by
  unfold completeNode
  rw [ha]; dsimp only
  rw [if_neg (not_not_intro he), hn]

/-! ## Parameters and requests for sections (R136, R143, R149) -/

section
variable {n : NodeRef} {s : State} {fr : Firing}

theorem paramRd_of_firing (hf : findFiring n [7] 0 s = some fr) :
    exec (.paramRd n) s = .next (fireResult n fr (padLanes [BitVec.ofNat 32 (paramOf s n.plot (bits fr.nd.arg.toNat 0 4)).toNat,
      BitVec.ofNat 32 ((paramOf s n.plot (bits fr.nd.arg.toNat 0 4)).toNat / 2 ^ 32)]) s) := by
  show Host.Outcome.next _ = _
  rw [hf]

theorem paramWr_of_firing (hf : findFiring n [7] 1 s = some fr) :
    exec (.paramWr n) s = .next (updPlot n.plot (fun pl => { pl with
      params := Tab.set pl.params (bits fr.nd.arg.toNat 0 4)
        (BitVec.ofNat 64 ((nth (in0 fr.ins) 0 0#32).toNat + 2 ^ 32 * (nth (in0 fr.ins) 1 0#32).toNat)) }) (fireResult n fr doneLanes s)) := by
  show Host.Outcome.next _ = _
  rw [hf]

/-- A request for a section: the first of an epoch stops the sources, any other is counted (R143, R150). -/
def Arr.requestSwitch (slot : Nat) (a : Arr) : Arr :=
  if a.switchTo.isSome || a.draining then { a with switchIgnored := satInc 64 a.switchIgnored } else { a with switchTo := some slot }

theorem Arr.requestSwitch_of_free (slot : Nat) {a : Arr} (hs : a.switchTo = none) (hd : a.draining = false) :
    a.requestSwitch slot = { a with switchTo := some slot } := if_neg (by simp [hs, hd])

theorem Arr.requestSwitch_of_busy (slot : Nat) {a : Arr} (h : a.switchTo ≠ none ∨ a.draining = true) :
    a.requestSwitch slot = { a with switchIgnored := satInc 64 a.switchIgnored } :=
  if_pos (by simpa [Option.isSome_iff_ne_none] using h)

theorem Arr.settings_requestSwitch (slot : Nat) (a : Arr) : (a.requestSwitch slot).settings = a.settings.requestSwitch slot := by
  unfold Arr.requestSwitch
  split <;> rename_i h
  · exact (if_pos h).symm
  · exact (if_neg h).symm

/-- A firing that requests a section does so to the plot's array, whatever tokens it takes. -/
theorem settings_fire_requestSwitch (n : NodeRef) (fr : Firing) (slot : Nat) (s : State) :
    (plotOf (fire n fr (Arr.requestSwitch slot) s) n.plot).arr.settings = ((plotOf s n.plot).arr.requestSwitch slot).settings := by
  obtain ⟨v, hv, ht⟩ := settings_fire n fr (Arr.requestSwitch slot) s
  rw [ht, Arr.settings_requestSwitch, hv, ← Arr.settings_requestSwitch]

theorem sectNext_of_firing (hf : findFiring n [7] 2 s = some fr) :
    exec (.sectNext n) s = .next (fire n fr (Arr.requestSwitch (bits fr.nd.arg.toNat 0 2)) s) := by
  show Host.Outcome.next _ = _
  rw [hf]
  rfl

theorem loads_fire_id (n : NodeRef) (fr : Firing) (s : State) :
    (plotOf (fire n fr id s) n.plot).arr.loads = (plotOf s n.plot).arr.loads := by
  obtain ⟨v, hv, ht⟩ := settings_fire n fr id s
  exact (congrArg Arr.loads (ht.trans hv) :)

theorem sectLoad_of_firing (hf : findFiring n [7] 3 s = some fr) :
    exec (.sectLoad n) s = .next (if (plotOf s n.plot).arr.active = some (bits fr.nd.arg.toNat 10 2) then
      sectionFault 6 n.plot n.slice n.pos n.node (fire n fr id s)
    else updArr n.plot (fun a => { a with loads := a.loads ++ [(bits fr.nd.arg.toNat 10 2, bits fr.nd.arg.toNat 0 10)] }) (fire n fr id s)) := by
  show Host.Outcome.next _ = _
  rw [hf]

end

/-! ## Sources stand still before a switch and in a drain -/

theorem sourceFiring_some {sec : Section} {a : Arr} {key : Nat} {nd : Node} {fr : Firing} (h : sourceFiring sec a key nd = some fr) :
    a.switchTo = none ∧ a.draining = false := by
  unfold sourceFiring at h
  dsimp only at h
  split at h
  · cases h
  next hn => simp_all

/-- A firing that takes tokens is of no source. -/
theorem tokenFiring_some {sec : Section} {a : Arr} {key : Nat} {nd : Node} {tag : BitVec 16} {fr : Firing}
    (h : tokenFiring sec a key nd tag = some fr) : fr.nd = nd ∧ nd.isSource = false := by
  unfold tokenFiring at h
  split at h
  case isFalse => cases h
  case isTrue hr =>
    refine ⟨by rw [← Option.some.inj h], ?_⟩
    refine Bool.eq_false_iff.2 fun hs => ?_
    simp [Arr.readyAt, hs] at hr

theorem findFiring_source {n : NodeRef} {pos : List Nat} {op : Nat} {s : State} {fr : Firing} (h : findFiring n pos op s = some fr)
    (hs : fr.nd.isSource = true) : (plotOf s n.plot).arr.switchTo = none ∧ (plotOf s n.plot).arr.draining = false := by
  unfold findFiring at h
  dsimp only at h
  (repeat' split at h) <;> cases h
  next hfr _ =>
    split at hfr
    · exact sourceFiring_some hfr
    · obtain ⟨rfl, hn⟩ := tokenFiring_some hfr
      rw [hn] at hs
      cases hs

/-! ## Flush, activation and the barrier (R144, R145, R147, R150) -/

/-- An array flushed of `n` tokens and stalls. -/
def Arr.flush (n : Nat) (a : Arr) : Arr :=
  { a with toks := [], outs := [], pass := [], retrying := [], residual := satAdd 64 a.residual n, switchTo := none, draining := false, flushed := false }

@[simp] theorem arr_flushArray (p : Nat) (s : State) : (plotOf (flushArray p s) p).arr = (plotOf s p).arr.flush (residualOf s p) :=
  congrArg Plot.arr (Tab.get_set_same _ _ _ _)

/-- A section becomes active, and then queues that it does not read close; `cur` are its cursors. -/
theorem activateSection_eq (p k : Nat) (s : State) : ∃ cur, activateSection p k s = closeOnSwitch p (updArr p (fun a => { a with cursors := cur })
    (updArr p (fun a => { a with
      active := some k, epoch := a.epoch + 1#16, stopped := false, toks := [], outs := [], pass := [], clock := 0, emitted := [], firedAt := [],
      accs := [], retired := [], retFired := [], retrying := [], switchTo := none, draining := false, flushed := false }) s)) :=
  ⟨_, rfl⟩

theorem atBarrier_iff (s : State) (p : Nat) : atBarrier s p = true ↔ (plotOf s p).arr.stopped = false ∧ (plotOf s p).stopped = false ∧
    (plotOf s p).arr.flushed = false ∧ ((plotOf s p).arr.draining = true ∨ (plotOf s p).arr.switchTo ≠ none) := by
  simp [atBarrier, Option.isSome_iff_ne_none, and_assoc]

/-- Does the active section of a plot ask for STRICT? -/
def isStrict (s : State) (p : Nat) : Bool := ((activeSection s p).map (·.strict)).getD false

section
variable {p : Nat} {s : State}

/-- Under STRICT a residual count is a section fault (R147). -/
theorem passBarrier_of_residual (hst : isStrict s p = true) (hn : residualOf s p ≠ 0) :
    passBarrier p s = sectionFault 2 p 0 0 0 (flushArray p s) :=
  if_pos (by simpa [isStrict, Nat.pos_iff_ne_zero] using And.intro hst hn)

/-- Otherwise a flushed plot switches, waits while its store slot is loaded, or has drained. -/
theorem passBarrier_of_clean (h : isStrict s p = false ∨ residualOf s p = 0) :
    passBarrier p s = ((plotOf s p).arr.switchTo.map (fun k =>
      if slotLoading (plotOf s p).arr k then updArr p (fun a => { a with switchTo := some k, flushed := true }) (flushArray p s)
      else activateSection p k (flushArray p s))).getD (updArr p (fun a => { a with stopped := true }) (flushArray p s)) := by
  have hgo : ¬(isStrict s p && decide (0 < residualOf s p)) = true := by
    rcases h with h | h <;> simp [h]
  refine (if_neg hgo).trans ?_
  cases (plotOf s p).arr.switchTo <;> rfl

theorem passBarrier_of_switch {k : Nat} (h : isStrict s p = false ∨ residualOf s p = 0) (hk : (plotOf s p).arr.switchTo = some k)
    (hl : slotLoading (plotOf s p).arr k = false) : passBarrier p s = activateSection p k (flushArray p s) := by
  rw [passBarrier_of_clean h, hk]
  exact if_neg (ne_true_of_eq_false hl)

/-- A plot that waits at the barrier for its store slot. -/
theorem arr_passBarrier_of_loading {k : Nat} (h : isStrict s p = false ∨ residualOf s p = 0) (hk : (plotOf s p).arr.switchTo = some k)
    (hl : slotLoading (plotOf s p).arr k = true) :
    (plotOf (passBarrier p s) p).arr = { (plotOf s p).arr.flush (residualOf s p) with switchTo := some k, flushed := true } := by
  rw [passBarrier_of_clean h, hk, Option.map_some, Option.getD_some, if_pos hl, plotOf_updArr, arr_flushArray]

/-- A plot that has drained. -/
theorem arr_passBarrier_of_drain (h : isStrict s p = false ∨ residualOf s p = 0) (hk : (plotOf s p).arr.switchTo = none) :
    (plotOf (passBarrier p s) p).arr = { (plotOf s p).arr.flush (residualOf s p) with stopped := true } := by
  rw [passBarrier_of_clean h, hk, Option.map_none, Option.getD_none, plotOf_updArr, arr_flushArray]

theorem drainBarrier_of_quiet (hb : atBarrier s p = true) (hq : arrayQuiet s p = true) :
    exec (.drainBarrierReached p) s = .next (passBarrier p s) :=
  congrArg _ (if_pos (by rw [hb, hq]; rfl))

theorem drainBarrier_of_busy (h : atBarrier s p = false ∨ arrayQuiet s p = false) : exec (.drainBarrierReached p) s = .next s :=
  congrArg _ (if_neg (by rcases h with h | h <;> simp [h]))

/-- A plot whose drain limit has expired, counted. -/
def countForced (p : Nat) (s : State) : State := updArr p (fun a => { a with forced := satInc 64 a.forced }) s

theorem drainLimit_of_open (hb : atBarrier s p = false) : exec (.drainLimitExpiry p) s = .next s :=
  congrArg _ (if_pos (by simp [hb]))

theorem drainLimit_of_strict (hb : atBarrier s p = true) (hst : isStrict s p = true) :
    exec (.drainLimitExpiry p) s = .next (sectionFault 3 p 0 0 0 s) :=
  congrArg _ ((if_neg (by simp [hb])).trans (if_pos hst))

theorem drainLimit_of_lenient (hb : atBarrier s p = true) (hst : isStrict s p = false) :
    exec (.drainLimitExpiry p) s = .next (passBarrier p (countForced p s)) :=
  congrArg _ ((if_neg (by simp [hb])).trans (if_neg (ne_true_of_eq_false hst)))

theorem arr_countForced (p : Nat) (s : State) :
    (plotOf (countForced p s) p).arr = { (plotOf s p).arr with forced := satInc 64 (plotOf s p).arr.forced } :=
  congrArg Plot.arr (plotOf_updArr p _ s)

theorem residualOf_countForced (p : Nat) (s : State) : residualOf (countForced p s) p = residualOf s p := by
  simp [residualOf, stallsOf, countForced]

theorem isStrict_countForced (p : Nat) (s : State) : isStrict (countForced p s) p = isStrict s p := by
  simp [isStrict, activeSection, countForced, Arr.activeNum]

end

/-! ## Loads, starvation and stale tokens (R122, R146, R149) -/

theorem slotLoading_iff (a : Arr) (k : Nat) : slotLoading a k = true ↔ a.loads.head?.map (·.1) = some k := by
  unfold slotLoading
  cases a.loads <;> simp

section
variable {p : Nat} {s : State}

theorem sectLoadComplete_of_none (h : (plotOf s p).arr.loads = [] ∨ (plotOf s p).stopped = true) : exec (.sectLoadComplete p) s = .next s := by
  show Host.Outcome.next _ = _
  cases hst : (plotOf s p).stopped with
  | true => rfl
  | false =>
    have hl : (plotOf s p).arr.loads = [] := by simpa [hst] using h
    rw [hl]; rfl

/-- The load at the head has come to its end: section `num` stands in slot `k`, and the loads `r` wait. -/
def finishLoad (p k num : Nat) (r : List (Nat × Nat)) (s : State) : State :=
  updArr p (fun v => { v with store := Tab.set v.store k num }) (updArr p (fun v => { v with loads := r }) s)

theorem arr_finishLoad (p k num : Nat) (r : List (Nat × Nat)) (s : State) : (plotOf (finishLoad p k num r s) p).arr =
    { (plotOf s p).arr with loads := r, store := Tab.set (plotOf s p).arr.store k num } := by
  simp [finishLoad]

section
variable {k num : Nat} {r : List (Nat × Nat)}

/-- A load into a slot that has become active is a section fault. -/
theorem sectLoadComplete_of_active (hl : (plotOf s p).arr.loads = (k, num) :: r) (hst : (plotOf s p).stopped = false)
    (hk : (plotOf s p).arr.active = some k) (hf : (plotOf s p).arr.flushed = false) :
    exec (.sectLoadComplete p) s = .next (sectionFault 6 p 0 7 0 (updArr p (fun v => { v with loads := r }) s)) := by
  have hactive : ((plotOf s p).arr.active = some k && !(plotOf s p).arr.flushed) = true := by simp [hk, hf]
  show Host.Outcome.next _ = _
  rw [hst, hl]
  exact congrArg _ (if_pos hactive)

/-- Into any other slot it is taken, and the switch that waited for the last load of the slot goes on (R145, R149). -/
theorem sectLoadComplete_of_inactive (hl : (plotOf s p).arr.loads = (k, num) :: r) (hst : (plotOf s p).stopped = false)
    (h : (plotOf s p).arr.active ≠ some k ∨ (plotOf s p).arr.flushed = true) :
    exec (.sectLoadComplete p) s = .next (
      if (plotOf s p).arr.flushed = true ∧ (plotOf s p).arr.switchTo = some k ∧ r.head?.map (·.1) ≠ some k then
        activateSection p k (finishLoad p k num r s)
      else finishLoad p k num r s) := by
  have hactive : ¬((plotOf s p).arr.active = some k && !(plotOf s p).arr.flushed) = true := by
    rcases h with h | h <;> simp [h]
  have hgoes : ((plotOf s p).arr.flushed && (plotOf s p).arr.switchTo = some k && !slotLoading (plotOf (finishLoad p k num r s) p).arr k) = true ↔
      (plotOf s p).arr.flushed = true ∧ (plotOf s p).arr.switchTo = some k ∧ r.head?.map (·.1) ≠ some k := by
    rw [Bool.and_eq_true, Bool.and_eq_true, Bool.not_eq_true', ← Bool.not_eq_true, slotLoading_iff, arr_finishLoad, decide_eq_true_iff, and_assoc]
  show Host.Outcome.next _ = _
  rw [hst, hl]
  refine congrArg _ ((if_neg hactive).trans ?_)
  simp only [← hgoes]
  rfl

end

theorem staleToken_of_other {e : U16} (ha : (plotOf s p).assigned = true) (hst : (plotOf s p).stopped = false) (he : e ≠ (plotOf s p).arr.epoch) :
    exec (.staleTokenDrop p e) s = .next (noteStale p s) :=
  congrArg _ (if_pos (by simp [ha, hst, he]))

theorem staleToken_of_none {e : U16} (h : (plotOf s p).assigned = false ∨ (plotOf s p).stopped = true ∨ e = (plotOf s p).arr.epoch) :
    exec (.staleTokenDrop p e) s = .next s :=
  congrArg _ (if_neg (by rcases h with h | h | h <;> simp [h]))

end

end Sys2Proof.Machine

namespace Sys2Proof.Machine

open Sys2Proof

/-- Settles O58: every node's firing by the equations of its command, the switch of a section by those of the flush, the barrier and the load. -/
theorem queueParamAndSectionNodes : Obligations.QueueParamAndSectionNodes := by
  refine ⟨fun n s fr => ⟨fun hf => ?_, fun hf => ?_, fun hf => paramRd_of_firing hf, fun hf => ?_, fun hf => ?_, fun hf => ?_⟩,
    fun p key tag epoch s => ⟨completeNode_of_stale key tag, fun sec nd ha he hn => completeNode_of_current tag ha he hn⟩,
    fun n s => ?_, fun n pos op s fr h hs => findFiring_source h hs, fun p s => ?_⟩
  · intro c
    refine ⟨qrd_of_no_channel hf, fun ch hc hq => ?_, fun ch m hc hq hue => ?_, fun ch m hc hq hue hs hlen => ?_, fun ch m hc hq hue hlen => ?_⟩
    · obtain ⟨hreader, hother, hframe⟩ := waitToRead_spec c n fr.key fr.tag s
      exact ⟨_, qrd_of_no_message hf hc hq, hreader, hother, hframe⟩
    · rw [qrd_of_message hf hc hq, if_pos (by simpa using hue)]
    · rw [qrd_of_message hf hc hq, if_neg (by simp [hue]), if_pos (by simp [hs, hlen])]
    · rw [qrd_of_message hf hc hq, if_neg (by simp [hue]), if_neg (by rcases hlen with h | h <;> simp [h])]
  · intro c chunk all want
    refine ⟨qwr_of_blocked hf, fun ch hc hw => ⟨fun hm hlt => ?_, fun hm => ?_, fun hm hle => ?_⟩⟩
    · rw [qwr_of_free hf hc hw, hm]
      exact congrArg _ (if_pos (decide_eq_true hlt))
    · rw [qwr_of_free hf hc hw, hm]; rfl
    · rw [qwr_of_free hf hc hw, hm]
      exact congrArg _ (if_neg (by simpa using hle : ¬decide (all.length < want) = true))
  · refine ⟨_, paramWr_of_firing hf, ?_, fun k hk => ?_, ?_⟩
    · rw [plotOf_updPlot, Tab.get_set_same, BitVec.toNat_ofNat]
      exact Nat.mod_eq_of_lt (by omega)
    · rw [plotOf_updPlot]
      exact (Tab.get_set_ne _ _ _ _ _ hk).trans (congrArg (fun t => Tab.get t k 0#64) (params_fire _ _ _ _))
    · rw [plotOf_updPlot]
  · intro a
    have ht := settings_fire_requestSwitch n fr (bits fr.nd.arg.toNat 0 2) s
    refine ⟨_, sectNext_of_firing hf, fun hs hd => ?_, fun hb => ?_, fire_eq_plots _ _ _ _⟩
    · rw [Arr.requestSwitch_of_free _ hs hd] at ht
      exact (congrArg Arr.switchTo ht :)
    · rw [Arr.requestSwitch_of_busy _ hb] at ht
      exact ⟨(congrArg Arr.switchTo ht :), (congrArg Arr.switchIgnored ht :)⟩
  · intro slot
    refine ⟨fun ha => ?_, fun ha => ⟨_, (sectLoad_of_firing hf).trans (congrArg _ (if_neg ha)), ?_, rfl⟩⟩
    · rw [sectLoad_of_firing hf, if_pos ha]
    · rw [plotOf_updArr]
      exact congrArg (· ++ _) (loads_fire_id n fr s)
  · refine ⟨fun h => ?_, fun h => ?_, fun h => ?_, fun h => ?_, fun h => ?_, fun h => ?_⟩ <;>
    · show Host.Outcome.next _ = _
      rw [h]
  · intro a
    refine ⟨sectLoadComplete_of_none, fun k num r hl hst => ⟨sectLoadComplete_of_active hl hst, fun h => ?_⟩, atBarrier_iff s p, ?_,
      ?_, fun e => ⟨staleToken_of_other, staleToken_of_none⟩⟩
    · rw [sectLoadComplete_of_inactive hl hst h]
      exact ⟨fun hg => congrArg _ (if_pos hg), fun hg => ⟨congrArg _ (if_neg hg), arr_finishLoad p k num r s⟩⟩
    · intro strict flushed forced
      refine ⟨?_, fun k => ?_, fun hb hq hclean => ?_, fun hb hq hst hn => ?_, drainBarrier_of_busy, drainLimit_of_open, drainLimit_of_strict,
        fun hb hst => ?_⟩
      · rw [arr_flushArray]
        exact ⟨rfl, rfl, rfl, rfl, rfl⟩
      · obtain ⟨cur, h⟩ := activateSection_eq p k (flushArray p s)
        refine ⟨_, h, ?_⟩
        rw [plotOf_updArr, plotOf_updArr, arr_flushArray]
        exact ⟨⟨rfl, rfl, rfl, rfl, rfl⟩, rfl, rfl, rfl, rfl, rfl, rfl, rfl, rfl⟩
      · rw [drainBarrier_of_quiet hb hq]
        refine ⟨fun k hk hl => congrArg _ (passBarrier_of_switch hclean hk hl), fun k hk hl => ⟨_, rfl, ?_⟩, fun hk => ⟨_, rfl, ?_⟩⟩
        · rw [arr_passBarrier_of_loading hclean hk hl]
          exact ⟨⟨rfl, rfl, rfl, rfl, rfl⟩, rfl, rfl, rfl, rfl⟩
        · rw [arr_passBarrier_of_drain hclean hk]
          exact ⟨⟨rfl, rfl, rfl, rfl, rfl⟩, rfl, rfl, rfl⟩
      · rw [drainBarrier_of_quiet hb hq, passBarrier_of_residual hst hn]
      · have hclean : isStrict (countForced p s) p = false ∨ residualOf (countForced p s) p = 0 := .inl ((isStrict_countForced p s).trans hst)
        have harr := arr_countForced p s
        rw [drainLimit_of_lenient hb hst]
        refine ⟨fun k hk hl => congrArg _ (passBarrier_of_switch hclean (by rwa [harr]) (by rwa [harr])), fun k hk hl => ⟨_, rfl, ?_⟩,
          fun hk => ⟨_, rfl, ?_⟩⟩
        · rw [arr_passBarrier_of_loading hclean (by rwa [harr]) (by rwa [harr]), harr, residualOf_countForced]
          exact ⟨⟨rfl, rfl, rfl, rfl, rfl⟩, rfl, rfl, rfl⟩
        · rw [arr_passBarrier_of_drain hclean (by rwa [harr]), harr, residualOf_countForced]
          exact ⟨⟨rfl, rfl, rfl, rfl, rfl⟩, rfl, rfl⟩
    · intro starved
      have hiff : (arrayRuns s p 0 && !a.toks.isEmpty && (openFirings s p).isEmpty && !writesWait s p && !unitStalled s p && a.loads.isEmpty) = true ↔
          starved := by
        simp [starved, and_assoc]
      exact ⟨fun h => congrArg _ (if_pos (hiff.2 h)), fun h => congrArg _ (if_neg (mt hiff.1 h))⟩

end Sys2Proof.Machine

/-! PROOF. Channels and queues (R154 to R175): where a ring places a message, what offering one does, the order of grants among waiting writers, when a
message becomes readable, and what an expired wait timer does. -/

namespace Sys2Proof.Machine

open Sys2Proof

/-! ## Places in a ring (R161) -/

section
variable {m t s f : Nat}

theorem placeInRing_of_fits (hm : m ≤ s - t) (hf : m ≤ f) : placeInRing m t s f = some (t, false) :=
  if_pos (by simp [hm, hf])

theorem placeInRing_of_wraps (hm : s - t < m) (hp : s - t ≤ f) (hf : m ≤ f - (s - t)) : placeInRing m t s f = some (0, true) := by
  unfold placeInRing
  rw [if_neg (by simp; omega), if_pos (by simp [hm, hp, hf])]

theorem placeInRing_of_full (h : (m ≤ s - t ∧ f < m) ∨ (s - t < m ∧ (f < s - t ∨ f - (s - t) < m))) : placeInRing m t s f = none := by
  unfold placeInRing
  rw [if_neg (by simp; omega), if_neg (by simp; omega)]

end

section
variable {ring : Nat} {payload : List Byte} {q : Queue}

/-- A message that fits between the tail and the end of the ring stands at the tail. -/
theorem Queue.place_of_fits (seq : Nat) (hm : payload.length / 32 ≤ ring - q.tail) (hf : payload.length / 32 ≤ ring - q.occupied) :
    ∃ msg : QMsg, msg.start = q.tail ∧ msg.len = payload.length / 32 ∧ msg.payload = payload ∧ msg.pad = false ∧
      q.place ring payload seq =
        some ({ q with msgs := q.msgs ++ [msg], tail := (q.tail + payload.length / 32) % ring }, none, q.tail) := by
  refine ⟨⟨false, q.tail, payload.length / 32, seq, payload, crc32 payload, 2 ^ (payload.length / 32) - 1, false, 0, []⟩, rfl, rfl, rfl, rfl, ?_⟩
  unfold Queue.place
  dsimp only
  rw [placeInRing_of_fits hm hf]
  simp

/-- One that does not, with room before the head, stands at entry 0 behind a pad, and ends before the end of the ring. -/
theorem Queue.place_of_wraps (seq : Nat) (htail : q.tail < ring) (hm : ring - q.tail < payload.length / 32)
    (hf : payload.length / 32 ≤ ring - q.occupied - (ring - q.tail)) :
    ∃ pad msg : QMsg, pad.pad = true ∧ pad.start = q.tail ∧ pad.len = ring - q.tail ∧
      msg.start = 0 ∧ msg.len = payload.length / 32 ∧ msg.payload = payload ∧ msg.pad = false ∧
      q.place ring payload seq = some ({ q with msgs := q.msgs ++ [pad, msg], tail := payload.length / 32 }, some q.tail, 0) := by
  refine ⟨⟨true, q.tail, ring - q.tail, 0, [], 0#32, 0, true, 0, []⟩,
    ⟨false, 0, payload.length / 32, seq, payload, crc32 payload, 2 ^ (payload.length / 32) - 1, false, 0, []⟩,
    rfl, rfl, rfl, rfl, rfl, rfl, rfl, ?_⟩
  have hend : payload.length / 32 < ring := by omega
  unfold Queue.place
  dsimp only
  rw [placeInRing_of_wraps hm (by omega) hf]
  simp [Nat.mod_eq_of_lt hend]

theorem Queue.place_of_full (seq : Nat) (h : placeInRing (payload.length / 32) q.tail ring (ring - q.occupied) = none) :
    q.place ring payload seq = none := by
  unfold Queue.place
  dsimp only
  rw [h]

end

/-! ## A message offered (R161, R170, R429) -/

section
variable {c : Nat} {ch : Channel} {a : Nat × Site} {payload : List Byte} {s : State}

theorem trySend_of_held (ho : ch.outbound = false) (hh : plotHeld s ch.readerPlot = true) : trySend c ch a payload s = none :=
  if_pos (by simp [ho, hh])

/-- A message offered to a queue of this module whose reader's plot is not held: a closed queue drops it, an open one places it or has its writer wait. -/
theorem trySend_of_free (ho : ch.outbound = false) (hh : plotHeld s ch.readerPlot = false) :
    trySend c ch a payload s =
      if (chanQueue s c ch).isOpen then
        ((chanQueue s c ch).place ch.ring payload (chanOf s c).seq).map (fun r =>
          wakePlot ch.readerPlot (updChan c (fun v => { v with seq := ((chanOf s c).seq + 1) % 65536 })
            (updChanQueue c ch (fun _ => r.1.skip ch.ring) s)))
      else some (countDrop c ch s) := by
  unfold trySend
  dsimp only
  rw [if_neg (by simp [ho, hh])]
  cases hopen : (chanQueue s c ch).isOpen with
  | false => rfl
  | true =>
    rw [if_neg (by simp [ho])]
    cases (chanQueue s c ch).place ch.ring payload (chanOf s c).seq with
    | none => rfl
    | some r => simp [ho]

end

/-- A writer that begins to wait stands behind those that wait already. -/
def joinWaiters (c : Nat) (w : Waiter) (s : State) : State := updChan c (fun v => { v with waiters := v.waiters ++ [w] }) s

section
variable {c : Nat} {ch : Channel} {w : Waiter} {s : State} (granted : State → State)

theorem reserveOrWait_of_none (h : trySend c ch (writerAt s w.plot w.slice) w.payload s = none) :
    reserveOrWait c ch w granted s = joinWaiters c w s := by
  unfold reserveOrWait
  rw [h]
  rfl

theorem reserveOrWait_of_some {t : State} (h : trySend c ch (writerAt s w.plot w.slice) w.payload s = some t) :
    reserveOrWait c ch w granted s = granted t := by
  unfold reserveOrWait
  rw [h]

theorem sendOrWait_of_waiting (h : ∃ v ∈ (chanOf s c).waiters, v.sameWriter w = true) : sendOrWait c ch w granted s = joinWaiters c w s :=
  if_pos (List.any_eq_true.2 h)

/-- A writer none of whose messages waits: to another module it asks at once, within the module its reservation travels to the reader's slice. -/
theorem sendOrWait_of_first (h : ∀ v ∈ (chanOf s c).waiters, v.sameWriter w = false) :
    sendOrWait c ch w granted s =
      if ch.outbound then reserveOrWait c ch w granted s
      else carry (fieldOfPlot w.plot) (sliceSite s w.plot w.slice) 2 (.slice ch.readerPlot ch.readerAt) (.reserve c w.plot w.node)
        (joinWaiters c { w with held := true }) (reserveOrWait c ch w granted) s :=
  if_neg (by simpa using h)

end

/-! ## The order of grants (R160, R161) -/

/-- Waiters in order of plot and slice, those of one slice by the moment from which they wait. -/
def Waiter.le (a b : Waiter) : Prop :=
  a.plot < b.plot ∨ a.plot = b.plot ∧ (a.slice < b.slice ∨ a.slice = b.slice ∧ a.since.toNat ≤ b.since.toNat)

theorem Waiter.le_total (a b : Waiter) : a.le b ∨ b.le a := by
  unfold Waiter.le; omega

theorem Waiter.le_trans {a b d : Waiter} (hab : a.le b) (hbd : b.le d) : a.le d := by
  unfold Waiter.le at *; omega

theorem scoreLe_waiter (a b : Waiter) :
    scoreLe [a.plot, a.slice, a.since.toNat] [b.plot, b.slice, b.since.toNat] = true ↔ a.le b := by
  simp only [scoreLe, Waiter.le, Bool.or_eq_true, Bool.and_eq_true, decide_eq_true_eq, and_true]
  omega

theorem Waiter.sameWriter_comm (a b : Waiter) : a.sameWriter b = b.sameWriter a := by
  simp only [Waiter.sameWriter, eq_comm]

theorem Waiter.sameWriter_iff {a b : Waiter} : a.sameWriter b = true ↔ a.plot = b.plot ∧ a.node = b.node := by
  simp [Waiter.sameWriter]

theorem Waiter.sameWriter_congr {v w : Waiter} (h : v.sameWriter w = true) (u : Waiter) : u.sameWriter v = u.sameWriter w := by
  obtain ⟨hp, hn⟩ := Waiter.sameWriter_iff.1 h
  simp only [Waiter.sameWriter, hp, hn]

theorem insertWaiter_perm (w : Waiter) (l : List Waiter) : (insertWaiter w l).Perm (w :: l) := by
  induction l with
  | nil => exact .refl _
  | cons v r ih =>
    unfold insertWaiter
    split
    · exact (ih.cons v).trans (.swap w v r)
    · exact .refl _

theorem insertWaiter_sorted (w : Waiter) {l : List Waiter} (h : l.Pairwise Waiter.le) : (insertWaiter w l).Pairwise Waiter.le := by
  induction l with
  | nil => exact List.pairwise_singleton _ _
  | cons v r ih =>
    obtain ⟨hv, hr⟩ := List.pairwise_cons.1 h
    unfold insertWaiter
    split
    case isTrue hle =>
      refine List.pairwise_cons.2 ⟨fun x hx => ?_, ih hr⟩
      rcases List.mem_cons.1 ((insertWaiter_perm w r).subset hx) with rfl | hx
      · exact (scoreLe_waiter _ _).1 hle
      · exact hv x hx
    case isFalse hle =>
      have hwv : w.le v := (Waiter.le_total v w).resolve_left (mt (scoreLe_waiter _ _).2 hle)
      refine List.pairwise_cons.2 ⟨fun x hx => ?_, h⟩
      rcases List.mem_cons.1 hx with rfl | hx
      · exact hwv
      · exact Waiter.le_trans hwv (hv x hx)

/-- The waiters that may take a grant, in the order in which they wait: of every writer the first, whose reservation is not on its way and whose plot's
traffic is not held. -/
def grantable (s : State) (l : List Waiter) : List Waiter :=
  (l.zipIdx.filter (fun e => !e.1.held && !plotHeld s e.1.plot && !(l.take e.2).any (fun v => v.sameWriter e.1))).map Prod.fst

/-- The order of grants lists the grantable waiters. -/
theorem grantOrder_eq_foldl (s : State) (l : List Waiter) : grantOrder s l = (grantable s l).foldl (fun a w => insertWaiter w a) [] := by
  unfold grantable
  rw [List.foldl_map]
  rfl

theorem foldl_insertWaiter_perm (l acc : List Waiter) : (l.foldl (fun a w => insertWaiter w a) acc).Perm (l ++ acc) := by
  induction l generalizing acc with
  | nil => exact .refl _
  | cons w r ih => exact (ih _).trans (((insertWaiter_perm w acc).append_left r).trans List.perm_middle)

theorem foldl_insertWaiter_sorted (l : List Waiter) {acc : List Waiter} (h : acc.Pairwise Waiter.le) :
    (l.foldl (fun a w => insertWaiter w a) acc).Pairwise Waiter.le := by
  induction l generalizing acc with
  | nil => exact h
  | cons w r ih => exact ih (insertWaiter_sorted w h)

theorem grantOrder_perm (s : State) (l : List Waiter) : (grantOrder s l).Perm (grantable s l) := by
  rw [grantOrder_eq_foldl]
  simpa using foldl_insertWaiter_perm (grantable s l) []

theorem grantOrder_sorted (s : State) (l : List Waiter) : (grantOrder s l).Pairwise Waiter.le := by
  rw [grantOrder_eq_foldl]
  exact foldl_insertWaiter_sorted _ .nil

theorem mem_grantable {s : State} {l : List Waiter} {w : Waiter} :
    w ∈ grantable s l ↔ w.held = false ∧ plotHeld s w.plot = false ∧ ∃ as bs, l = as ++ w :: bs ∧ ∀ v ∈ as, v.sameWriter w = false := by
  simp only [grantable, List.mem_map, List.mem_filter, Prod.exists, exists_and_right, exists_eq_right, List.mk_mem_zipIdx_iff_getElem?,
    Bool.and_eq_true, Bool.not_eq_true', List.any_eq_false, Bool.not_eq_true]
  constructor
  · rintro ⟨i, hi, ⟨hheld, hplot⟩, hfirst⟩
    obtain ⟨hlt, rfl⟩ := List.getElem?_eq_some_iff.1 hi
    exact ⟨hheld, hplot, l.take i, ⟨l.drop (i + 1), by simp⟩, hfirst⟩
  · rintro ⟨hheld, hplot, as, ⟨bs, rfl⟩, hfirst⟩
    exact ⟨as.length, by simp, ⟨hheld, hplot⟩, by simpa using hfirst⟩

/-- No writer stands twice among the grantable waiters. -/
theorem grantable_pairwise (s : State) (l : List Waiter) : (grantable s l).Pairwise (fun a b => a.sameWriter b = false) := by
  refine List.pairwise_map.2 (List.pairwise_filter.2 (List.pairwise_iff_getElem.2 fun i j hi hj hij _ hlater => ?_))
  simp only [List.length_zipIdx] at hi hj
  have hnone : ∀ v ∈ l.take j, v.sameWriter l[j] = false := by simpa using (Bool.and_eq_true_iff.1 hlater).2
  have hmem : l[i] ∈ l.take j := List.mem_take_iff_getElem.2 ⟨i, by omega, rfl⟩
  simpa using hnone _ hmem

/-- A writer whose plot's traffic is not held and none of whose reservations is on its way has its earliest message among the grantable ones. -/
theorem exists_grantable {s : State} {l : List Waiter} {w : Waiter} (hw : w ∈ l) (hplot : plotHeld s w.plot = false)
    (hheld : ∀ v ∈ l, v.held = true → v.sameWriter w = false) : ∃ v ∈ grantable s l, v.sameWriter w = true := by
  have hsome : (l.find? (fun v => v.sameWriter w)).isSome = true :=
    List.find?_isSome.2 ⟨w, hw, Waiter.sameWriter_iff.2 ⟨rfl, rfl⟩⟩
  obtain ⟨v, hv⟩ := Option.isSome_iff_exists.1 hsome
  obtain ⟨hsame, as, bs, hl, hbefore⟩ := List.find?_eq_some_iff_append.1 hv
  have hplotv : plotHeld s v.plot = false := (Waiter.sameWriter_iff.1 hsame).1 ▸ hplot
  refine ⟨v, mem_grantable.2 ⟨?_, hplotv, as, bs, hl, fun u hu => ?_⟩, hsame⟩
  · exact Bool.eq_false_iff.2 fun h => Bool.false_ne_true ((hheld v (List.mem_of_find?_eq_some hv) h).symm.trans hsame)
  · rw [Waiter.sameWriter_congr hsame]
    simpa only [Bool.not_eq_true'] using hbefore u hu

theorem grantOrder_spec (s : State) (l : List Waiter) :
    (∀ w ∈ grantOrder s l, w ∈ l ∧ plotHeld s w.plot = false ∧ w.held = false) ∧
    (∀ w ∈ l, plotHeld s w.plot = false → (∀ v ∈ l, v.held = true → v.sameWriter w = false) → ∃ v ∈ grantOrder s l, v.sameWriter w = true) ∧
    (grantOrder s l).Pairwise (fun a b => a.sameWriter b = false) ∧ (grantOrder s l).Pairwise Waiter.le := by
  have hperm := grantOrder_perm s l
  refine ⟨fun w hw => ?_, fun w hw hplot hheld => ?_, ?_, grantOrder_sorted s l⟩
  · obtain ⟨hheld, hplot, as, bs, rfl, -⟩ := mem_grantable.1 (hperm.subset hw)
    exact ⟨by simp, hplot, hheld⟩
  · obtain ⟨v, hv, hsame⟩ := exists_grantable hw hplot hheld
    exact ⟨v, hperm.symm.subset hv, hsame⟩
  · exact hperm.symm.pairwise (grantable_pairwise s l) fun {a b} h => (Waiter.sameWriter_comm b a).trans h

/-! ## Grants -/

section
variable {c : Nat} {ch : Channel} {s : State}

/-- The first waiter whose message is taken is served, whatever waits behind it. -/
theorem grantFirst_of_first {w : Waiter} {before after : List Waiter} {t : State}
    (hbefore : ∀ v ∈ before, trySend c ch (writerAt s v.plot v.slice) v.payload s = none)
    (hw : trySend c ch (writerAt s w.plot w.slice) w.payload s = some t) :
    grantFirst c ch (before ++ w :: after) s = endWait c ch w t := by
  induction before with
  | nil => rw [List.nil_append, grantFirst, hw]
  | cons v r ih =>
    rw [List.cons_append, grantFirst, hbefore v (by simp)]
    exact ih fun u hu => hbefore u (by simp [hu])

theorem grantFirst_of_none {l : List Waiter} (h : ∀ v ∈ l, trySend c ch (writerAt s v.plot v.slice) v.payload s = none) :
    grantFirst c ch l s = s := by
  induction l with
  | nil => rfl
  | cons v r ih =>
    rw [grantFirst, h v (by simp)]
    exact ih fun u hu => h u (by simp [hu])

theorem queueReservation_of_no_channel (h : channelOf s c = none) : exec (.queueReservation c) s = .next s := by
  show Host.Outcome.next _ = _
  rw [h]

theorem queueReservation_of_channel (h : channelOf s c = some ch) :
    exec (.queueReservation c) s = .next (grantFirst c ch (grantOrder s (chanOf s c).waiters) s) := by
  show Host.Outcome.next _ = _
  rw [h]

end

/-! ## Messages become readable (R159, R163) -/

section
variable {c : Nat} {u : QueueUpset} {s : State} {ch : Channel} {m : QMsg}

theorem messageReadable_of_no_channel (h : channelOf s c = none) : exec (.messageReadable c u) s = .next s := by
  show Host.Outcome.next _ = _
  rw [h]

theorem messageReadable_of_idle (hc : channelOf s c = some ch)
    (h : ch.outbound = true ∨ plotHeld s ch.readerPlot = true ∨ nextUnread ch.ring (chanQueue s c ch).head (chanQueue s c ch).msgs = none) :
    exec (.messageReadable c u) s = .next s := by
  show Host.Outcome.next _ = _
  rw [hc]; dsimp only
  split
  · rfl
  next hgo =>
    simp only [Bool.or_eq_true, not_or] at hgo
    rw [(h.resolve_left hgo.1).resolve_left hgo.2]

/-- The next message is checked: its CRC, and the words with a double-bit error known or found now. -/
theorem messageReadable_of_message (hc : channelOf s c = some ch) (ho : ch.outbound = false) (hh : plotHeld s ch.readerPlot = false)
    (hm : nextUnread ch.ring (chanQueue s c ch).head (chanQueue s c ch).msgs = some m) :
    exec (.messageReadable c u) s = .next (
      if crc32 m.payload = m.crc && (m.ue ++ m.wordsOf u.doubleBit).isEmpty then
        updChan c (fun v => { v with readers := [] }) (updChanQueue c ch (fun q => { q with
          msgs := q.msgs.map (fun x => if x.start = m.start then { x with readable := true } else x) }) (correctQueue ch u.corrected s))
      else failMessage c ch m (readingSlice s c ch) (m.ue ++ m.wordsOf u.doubleBit) (correctQueue ch u.corrected s)) := by
  show Host.Outcome.next _ = _
  rw [hc]; dsimp only
  rw [if_neg (by simp [ho, hh]), hm]

end

theorem sliceOf_setSlice (p i : Nat) (v : Slice) (s : State) : sliceOf (setSlice p i v s) p i = v := by
  simp [sliceOf, setSlice, Plot.slice, Plot.setSlice]

theorem sliceOf_updSlice (p i : Nat) (f : Slice → Slice) (s : State) : sliceOf (updSlice p i f s) p i = f (sliceOf s p i) := by
  simp [sliceOf, updSlice, Plot.slice, Plot.setSlice]

theorem plotOf_record (e : EventRec) (s : State) (p : Nat) : plotOf (record e s) p = plotOf s p := by
  unfold plotOf; rw [record_plots]

theorem record_eq_withRecords (e : EventRec) (s : State) : record e s = withRecords (record e s) s :=
  record_frame e s

/-- A word corrected in a queue counts at the slice where the queue stands; besides, it leaves a record at most. -/
theorem correctQueue_single (ch : Channel) (w : Nat) (s : State) :
    (sliceOf (correctQueue ch [w] s) ch.readerPlot ch.readerAt).spadCe = satInc 64 (sliceOf s ch.readerPlot ch.readerAt).spadCe ∧
    correctQueue ch [w] s = withRecords (correctQueue ch [w] s) { s with plots := (correctQueue ch [w] s).plots } := by
  unfold correctQueue forEach forEach
  dsimp only
  split
  · refine ⟨?_, ?_⟩
    · rw [sliceOf, plotOf_record]
      exact congrArg Slice.spadCe (sliceOf_setSlice _ _ _ s)
    · rw [record_plots]
      exact record_eq_withRecords _ _
  · exact ⟨congrArg Slice.spadCe (sliceOf_setSlice _ _ _ s), rfl⟩

/-! ## What a change of a channel or of its queue leaves -/

section
variable (c : Nat) (ch : Channel) (s : State)

theorem chanQueue_updChanQueue (f : Queue → Queue) : chanQueue (updChanQueue c ch f s) c ch = f (chanQueue s c ch) := by
  unfold chanQueue updChanQueue
  split
  · simp only [sliceOf_updSlice, Tab.upd, Tab.get_set_same]
  · simp only [plotOf_updPlot, Tab.upd, Tab.get_set_same]
  · simp only [chanOf_updChan_same]

theorem chanQueue_updChan {g : ChanState → ChanState} (h : (g (chanOf s c)).shadow = (chanOf s c).shadow) :
    chanQueue (updChan c g s) c ch = chanQueue s c ch := by
  unfold chanQueue
  rw [chanOf_updChan_same, h]
  rfl

/-- Who waits at a channel does not depend on its queue. -/
theorem waiting_updChanQueue (f : Queue → Queue) : (chanOf (updChanQueue c ch f s) c).waiters = (chanOf s c).waiters ∧
    (chanOf (updChanQueue c ch f s) c).readers = (chanOf s c).readers := by
  unfold updChanQueue
  split
  · exact ⟨rfl, rfl⟩
  · exact ⟨rfl, rfl⟩
  · rw [chanOf_updChan_same]
    exact ⟨rfl, rfl⟩

end

/-! ## Wait timers (R73, R171, R173) -/

/-- The waiters at a side of a channel: 0 its writers, else its readers. -/
def sideWaiters (s : State) (c side : Nat) : List Waiter := if side = 0 then (chanOf s c).waiters else (chanOf s c).readers

/-- A waiter leaves its side of a channel with its wait given up; the cycles that a writer waited are counted (R175). -/
def giveUpWait (c side : Nat) (ch : Channel) (w : Waiter) (s : State) : State :=
  let s1 := updChan c (fun v => if side = 0 then { v with waiters := v.waiters.erase w } else { v with readers := v.readers.erase w }) s
  if side = 0 then updChanQueue c ch (fun q => { q with stallCycles := satAdd 64 q.stallCycles (cyclesSince s w.plot w.since) }) s1 else s1

section
variable {c side k : Nat} {s : State} {ch : Channel} {w : Waiter}

theorem queueStallTimeout_of_no_channel (h : channelOf s c = none) : exec (.queueStallTimeout c side k) s = .next s := by
  show Host.Outcome.next _ = _
  rw [h]

theorem queueStallTimeout_of_no_waiter (hc : channelOf s c = some ch) (hw : ((sideWaiters s c side).drop k).head? = none) :
    exec (.queueStallTimeout c side k) s = .next s := by
  unfold sideWaiters at hw
  show Host.Outcome.next _ = _
  rw [hc]; dsimp only; rw [hw]

theorem queueStallTimeout_of_waiter (hc : channelOf s c = some ch) (hw : ((sideWaiters s c side).drop k).head? = some w) :
    exec (.queueStallTimeout c side k) s = .next (
      if timersFrozen s w.plot || (side = 1 && ch.readNoTimeout) then s else queueStall c side w (giveUpWait c side ch w s)) := by
  unfold sideWaiters at hw
  show Host.Outcome.next _ = _
  rw [hc]; dsimp only; rw [hw]
  rfl

end

theorem giveUpWait_spec (c side : Nat) (ch : Channel) (w : Waiter) (s : State) :
    (chanOf (giveUpWait c side ch w s) c).waiters = (if side = 0 then (chanOf s c).waiters.erase w else (chanOf s c).waiters) ∧
    (chanOf (giveUpWait c side ch w s) c).readers = (if side = 0 then (chanOf s c).readers else (chanOf s c).readers.erase w) ∧
    (side = 0 → (chanQueue (giveUpWait c side ch w s) c ch).stallCycles =
      satAdd 64 (chanQueue s c ch).stallCycles (cyclesSince s w.plot w.since)) := by
  unfold giveUpWait
  dsimp only
  by_cases hside : side = 0
  · simp only [if_pos hside]
    obtain ⟨hw, hr⟩ := waiting_updChanQueue c ch (updChan c (fun v => { v with waiters := v.waiters.erase w }) s)
      (fun q => { q with stallCycles := satAdd 64 q.stallCycles (cyclesSince s w.plot w.since) })
    rw [hw, hr, chanQueue_updChanQueue, chanQueue_updChan _ _ _ rfl, chanOf_updChan_same]
    exact ⟨rfl, rfl, fun _ => rfl⟩
  · simp only [if_neg hside, chanOf_updChan_same]
    exact ⟨trivial, trivial, fun h => absurd h hside⟩

/-! ## Faults that stop a plot (R123, R171, R433) -/

/-- A drain leaves a stopped array stopped, and starts none. -/
theorem stopped_beginDrain (cause p : Nat) (s : State) : (plotOf (beginDrain cause s) p).arr.stopped = (plotOf s p).arr.stopped := by
  have hplot : ∀ pl : Plot, pl.beginDrain.arr.stopped = pl.arr.stopped := fun pl => by
    unfold Plot.beginDrain
    dsimp only
    split <;> rfl
  unfold beginDrain
  split
  · have hget : plotOf (mapPlots (fun t => Tab.mapVals t (fun _ pl => if pl.assigned then pl.beginDrain else pl)) s) p =
        if (plotOf s p).assigned then (plotOf s p).beginDrain else plotOf s p := Tab.get_mapVals _ _ _ _ rfl
    have hmode : ∀ t : State, plotOf (setMode .draining cause t) p = plotOf t p := fun t => plotOf_record _ t p
    rw [hmode]
    refine (congrArg (fun pl : Plot => pl.arr.stopped) hget).trans ?_
    split
    · exact hplot _
    · rfl
  · rfl

theorem beginDrain_of_running (cause : Nat) {s : State} (h : s.ctl.mode = .running) :
    (beginDrain cause s).ctl.mode = .draining ∧ (beginDrain cause s).job.faulted = s.job.faulted := by
  unfold beginDrain
  rw [if_pos h]
  exact ⟨by rw [setMode_ctl], by simp [setMode]⟩

/-- The first fault since the start noted for `job.status`; a later one changes nothing there. -/
def noteFault (cause code : Nat) (s : State) : State :=
  if s.job.faulted then s
  else mapJob (fun j => { j with faulted := true, faultCause := cause, faultEvent := code, faultTime := s.ctl.localTime }) s

theorem noteFault_spec (cause code : Nat) (s : State) :
    (noteFault cause code s).job.faulted = true ∧ (noteFault cause code s).ctl = s.ctl ∧ (noteFault cause code s).plots = s.plots := by
  unfold noteFault
  split
  case isTrue h => exact ⟨h, rfl, rfl⟩
  case isFalse => exact ⟨rfl, rfl, rfl⟩

/-- A job fault is recorded and noted, and drains the job. -/
theorem jobFault_eq (cause code : Nat) (s : State) : jobFault cause code s =
    if s.ctl.mode = .running || s.ctl.mode = .draining || s.ctl.mode = .loaded then
      beginDrain 0x0112 (noteFault cause code (record (ev 0x0112 3 [(16, code), (16, cause)]) s))
    else s := rfl

theorem stopped_faultEvent (e : EventRec) (p : Nat) (s : State) : (plotOf (faultEvent e s) p).arr.stopped = (plotOf s p).arr.stopped := by
  have hnote : ∀ t : State, plotOf (noteFault 0x01 e.code t) p = plotOf t p := fun t => by
    unfold plotOf; rw [(noteFault_spec 0x01 e.code t).2.2]
  rw [faultEvent, jobFault_eq]
  split
  · rw [stopped_beginDrain, hnote, plotOf_record, plotOf_record]
  · rw [plotOf_record]

/-- A fault of a running job drains it. -/
theorem faultEvent_of_running {s : State} (e : EventRec) (h : s.ctl.mode = .running) :
    (faultEvent e s).ctl.mode = .draining ∧ (faultEvent e s).job.faulted = true := by
  obtain ⟨hfaulted, hctl, -⟩ := noteFault_spec 0x01 e.code (record (ev 0x0112 3 [(16, e.code), (16, 0x01)]) (record e s))
  obtain ⟨hmode, hkept⟩ := beginDrain_of_running 0x0112 (show _ = ModState.running by rw [hctl, record_ctl, record_ctl, h])
  rw [faultEvent, jobFault_eq, if_pos (by simp [h])]
  exact ⟨hmode, hkept.trans hfaulted⟩

theorem queueStall_spec (c side : Nat) (w : Waiter) (s : State) :
    (plotOf (queueStall c side w s) w.plot).arr.stopped = true ∧
    (s.ctl.mode = .running → (queueStall c side w s).ctl.mode = .draining ∧ (queueStall c side w s).job.faulted = true) ∧
    (queueStall c side w s).hbm = s.hbm ∧ (queueStall c side w s).gateh = s.gateh ∧ (queueStall c side w s).mesh = s.mesh ∧
    (queueStall c side w s).links = s.links := by
  unfold queueStall
  dsimp only
  refine ⟨?_, fun h => faultEvent_of_running _ (by simpa using h), by simp, by simp, by simp, by simp⟩
  rw [stopped_faultEvent]
  unfold stopArray
  rw [plotOf_updArr]

/-! ## The statement -/

/-- Settles O45: the ring's places by `placeInRing`, the offer by `trySend_of_free` and the way of its reservation, the order of grants as a sorted
permutation of the grantable waiters, and the two events by the case that each meets. -/
theorem queueEvents : Obligations.QueueEvents := by
  refine ⟨fun m t s f => ⟨placeInRing_of_fits, placeInRing_of_wraps, placeInRing_of_full⟩, ?_, ?_, ?_, ?_, grantOrder_spec, ?_, ?_, ?_, ?_,
    correctQueue_single, ?_, ?_, queueStall_spec⟩
  · intro ring seq payload q htail _
    refine ⟨Queue.place_of_fits seq, Queue.place_of_wraps seq htail, fun h => Queue.place_of_full seq (placeInRing_of_full ?_)⟩
    exact h.imp_right fun ⟨hm, hf⟩ => ⟨hm, .inr hf⟩
  · refine fun c ch a payload s ho => ⟨trySend_of_held ho, fun hh => ⟨fun hopen => ?_, fun hopen hp => ?_, fun q pad at_ hopen hp => ?_⟩⟩
    · rw [trySend_of_free ho hh, hopen]; rfl
    · rw [trySend_of_free ho hh, hopen, hp]; rfl
    · rw [trySend_of_free ho hh, hopen, hp]; rfl
  · refine fun c ch w granted s => ⟨sendOrWait_of_waiting granted, fun h ho => ?_, reserveOrWait_of_none granted, fun t => reserveOrWait_of_some granted⟩
    rw [sendOrWait_of_first granted h, if_pos ho]
  · intro c ch w granted s ho hfirst goal legs
    rw [sendOrWait_of_first granted hfirst, if_neg (by simp [ho])]
    exact ⟨carry_open, fun l => carry_kept⟩
  · intro c ch w l s t hc hg hw
    rw [queueReservation_of_channel hc, hg]
    exact congrArg _ (grantFirst_of_first (before := []) (by simp) hw)
  · rintro c s (hc | ⟨ch, hc, hnone⟩)
    · exact queueReservation_of_no_channel hc
    · rw [queueReservation_of_channel hc]
      exact congrArg _ (grantFirst_of_none fun v hv => hnone v ((grantOrder_spec s _).1 v hv).1)
  · rintro c u s (hc | ⟨ch, hc, hidle⟩)
    · exact messageReadable_of_no_channel hc
    · exact messageReadable_of_idle hc hidle
  · intro c u s ch m hc ho hh hm a double slice
    rw [messageReadable_of_message hc ho hh hm]
    refine ⟨fun hcrc hd => ?_, fun hbad => ?_⟩
    · rw [if_pos (by rw [hcrc, show m.ue ++ m.wordsOf u.doubleBit = [] from hd]; simp)]
    · rw [if_neg (by rw [Bool.and_eq_true, decide_eq_true_eq, List.isEmpty_iff]; exact fun ⟨hcrc, hd⟩ => hbad.elim (· hcrc) (· hd))]
      rfl
  · intro c side k s ch w hc hw hfrozen hside
    refine ⟨giveUpWait c side ch w s, ?_, giveUpWait_spec c side ch w s⟩
    rw [queueStallTimeout_of_waiter hc hw, if_neg]
    rcases hside with h | h <;> simp [hfrozen, h]
  · rintro c side k s (hc | ⟨ch, hc, hw | ⟨w, hw, hquiet⟩⟩)
    · exact queueStallTimeout_of_no_channel hc
    · exact queueStallTimeout_of_no_waiter hc hw
    · rw [queueStallTimeout_of_waiter hc hw, if_pos (by simpa using hquiet)]

end Sys2Proof.Machine

/-! PROOF. Flits and replay (R245 to R255): the bytes of flits, control words, alignment blocks and lane frames, what becomes of an accepted flit, and
the flits sent again. A flit without a buffer is lost (log entry 116), and the need of a ninth resend takes the port down (log entry 50). -/

namespace Sys2Proof.Machine

open Sys2Proof

/-! ## Bytes on a lane (R245 to R247, R250) -/

theorem lay_length (fs : List (Nat × Nat)) : (lay fs).length = (fs.map Prod.fst).sum := by
  induction fs with
  | nil => rfl
  | cons e r ih => simp [lay, le_length, ih]

theorem flitBody_length {f : Flit} (h : f.payload.length ≤ 236) : (flitBody f).length = 252 := by
  simp [flitBody, lay_length]
  omega

theorem controlBody_length (w : CtrlWord) : (controlBody w).length = 12 := by
  simp [controlBody, lay_length]

theorem slotBytes_length {f : Flit} (w : CtrlWord) (h : f.payload.length ≤ 236) : (slotBytes f w).length = 270 := by
  simp [slotBytes, flitBody_length h, controlBody_length, le_length]

theorem lfsrBits_length (n a b : Nat) (mix : List Bool) (st : Nat) : (lfsrBits n a b mix st).length = mix.length := by
  induction mix generalizing st with
  | nil => rfl
  | cons m r ih => simp [lfsrBits, ih]

theorem bytesOfBits_length (l : List Bool) : (bytesOfBits l).length = l.length / 8 := by
  simp [bytesOfBits]

theorem bitsOfBytes_length (l : List Byte) : (bitsOfBytes l).length = l.length * 8 := by
  induction l with
  | nil => rfl
  | cons b r ih =>
    rw [bitsOfBytes, List.flatMap_cons, List.length_append, List.length_map, List.length_range, ← bitsOfBytes, ih, List.length_cons]
    omega

theorem scramble_length (l : List Byte) : (scramble l).length = l.length := by
  simp [scramble, bytesOfBits_length, lfsrBits_length, bitsOfBytes_length]

theorem alignFill_length : alignFill.length = 1674 := by
  rw [alignFill, bytesOfBits_length, lfsrBits_length, List.length_replicate]

theorem alignBytes_length (s : State) (i lane : Nat) (q : Bool) (info : List Byte) : (alignBytes s i lane q info).length = 1930 := by
  have hinfo : (if linkState (portOf s i) q = 0 then (info ++ List.replicate 226 0#8).take 226 else List.replicate 226 0#8).length = 226 := by
    split
    · rw [List.length_take, List.length_append, List.length_replicate]
      omega
    · exact List.length_replicate
  simp only [alignBytes, List.length_append, lay_length, hinfo, alignFill_length]
  rfl

theorem alignBytes_marker (s : State) (i lane : Nat) (q : Bool) (info : List Byte) : (alignBytes s i lane q info).take 8 = le 8 0x3C5AE1960FF0A55A := by
  simp only [alignBytes, lay, List.append_assoc]
  exact List.take_left' (le_length _ _)

/-- The slots of a lane frame take 270 bytes each, those filled with NULL flits as well. -/
theorem slots_length {l : List (Flit × CtrlWord)} (h : ∀ e ∈ l, e.1.payload.length ≤ 236) :
    (l.flatMap (fun e => slotBytes e.1 e.2)).length = l.length * 270 := by
  induction l with
  | nil => rfl
  | cons e r ih =>
    rw [List.flatMap_cons, List.length_append, slotBytes_length _ (h e List.mem_cons_self), ih fun x hx => h x (List.mem_cons_of_mem _ hx),
      List.length_cons]
    omega

theorem laneFrame_length (s : State) (i lane : Nat) {slots : List (Flit × CtrlWord)} (w : CtrlWord) (hn : slots.length ≤ 2125)
    (h : ∀ e ∈ slots, e.1.payload.length ≤ 236) : (laneFrame s i lane slots w).length = 575680 := by
  have hfill : ∀ e ∈ slots.take 2125 ++ List.replicate (2125 - slots.length) (nullFlit lane, w), e.1.payload.length ≤ 236 := by
    intro e he
    rcases List.mem_append.1 he with he | he
    · exact h e (List.mem_of_mem_take he)
    · rw [List.eq_of_mem_replicate he]
      exact Nat.zero_le _
  rw [laneFrame, List.length_append, alignBytes_length, scramble_length, slots_length hfill, List.length_append, List.length_take,
    List.length_replicate]
  omega

theorem laneFrame_block (s : State) (i lane : Nat) (slots : List (Flit × CtrlWord)) (w : CtrlWord) :
    (laneFrame s i lane slots w).take 1930 = alignBytes s i lane false [] :=
  List.take_left' (alignBytes_length _ _ _ _ _)

/-! ## Flits and control words sent (R247, R248, R250) -/

theorem sentFlit_spec (s : State) (x : TxFlit) : let f := sentFlit s x
    flitGood f = true ∧ (flitBody f).length = 252 ∧ f.lane = x.lane ∧ f.seq = x.seq ∧ f.cls = x.cls ∧ f.first = decide (x.part = 0) ∧ f.last = x.last ∧
    f.payLen = f.payload.length ∧ f.payload = (x.item.bytes.drop (236 * x.part)).take 236 ∧
    (∀ p, x.item = .pkt p → f.ftype = 1 ∧ f.dest = p.dest ∧ f.src = p.src ∧ f.hops = p.hops) := by
  have hcrc : flitGood (sentFlit s x) = true := decide_eq_true rfl
  have hlen : (sentFlit s x).payload.length ≤ 236 := List.length_take_le _ _
  refine ⟨hcrc, flitBody_length hlen, rfl, rfl, rfl, rfl, rfl, rfl, rfl, fun p hp => ?_⟩
  simp [sentFlit, hp]

/-- The check of a control word stands after the bytes that it covers. -/
theorem controlBody_crc (w : CtrlWord) (c : U16) : controlBody { w with crc := c } = controlBody w := rfl

theorem sentControl_spec (s : State) (i : Nat) : let w := sentControl s i
    w.crc = crc16 (controlBody w) ∧ (controlBody w).length = 12 ∧ w.ackSeq = (portOf s i).rxSeq ∧ w.nak = (portOf s i).rxNak ∧
    w.laneMask = (portOf s i).laneMask ∧ w.changeValid = (portOf s i).changeFrame.isSome :=
  ⟨congrArg crc16 (controlBody_crc _ _).symm, controlBody_length _, rfl, rfl, rfl, rfl⟩

/-! ## Acknowledgement (R254) -/

theorem Port.acknowledge_of_covered {p : Port} {ack : Nat} (h : 1 ≤ (ack + 2 ^ 20 - p.ackSeq) % 2 ^ 20)
    (hn : (ack + 2 ^ 20 - p.ackSeq) % 2 ^ 20 ≤ p.replay.length) :
    p.acknowledge ack = { p with replay := p.replay.drop ((ack + 2 ^ 20 - p.ackSeq) % 2 ^ 20), ackSeq := ack, nakSeen := none } :=
  if_neg (by simp only [Bool.or_eq_true, decide_eq_true_eq]; omega)

theorem Port.acknowledge_of_outside {p : Port} {ack : Nat}
    (h : (ack + 2 ^ 20 - p.ackSeq) % 2 ^ 20 = 0 ∨ p.replay.length < (ack + 2 ^ 20 - p.ackSeq) % 2 ^ 20) : p.acknowledge ack = p :=
  if_pos (by simpa using h)

/-! ## Flits sent again (R249, R254, R255) -/

theorem mem_rangeFrom {a n k : Nat} : k ∈ rangeFrom a n ↔ a ≤ k ∧ k < a + n := by
  induction n generalizing a with
  | zero => simp [rangeFrom]
  | succ n ih => simp only [rangeFrom, List.mem_cons, ih]; omega

/-- A lane mask that is not empty has one of its eight bits set. -/
theorem exists_lane {m : BitVec 8} (h : m ≠ 0#8) : ∃ l < 8, bit m.toNat l = true := by
  refine Classical.byContradiction fun hnone => h (BitVec.eq_of_getLsbD_eq fun i hi => ?_)
  have hbit : bit m.toNat i = false := Bool.eq_false_iff.2 fun hset => hnone ⟨i, hi, hset⟩
  rw [bit, ← Nat.testBit_eq_decide_div_mod_eq] at hbit
  simpa [BitVec.getLsbD] using hbit

/-- The turn comes by every lane, so the next lane is one of the mask. -/
theorem bit_nextLane {m : BitVec 8} (last : Nat) (h : m ≠ 0#8) : bit m.toNat (nextLane m last) = true := by
  obtain ⟨l, hl, hbit⟩ := exists_lane h
  have hmem : l ∈ (rangeFrom (last + 1) 8).map (· % 8) :=
    List.mem_map.2 ⟨last + 1 + (l + 8 - (last + 1) % 8) % 8, mem_rangeFrom.2 (by omega), by omega⟩
  unfold nextLane
  cases hfind : ((rangeFrom (last + 1) 8).map (· % 8)).find? (fun l => bit m.toNat l) with
  | none => exact absurd hbit (List.find?_eq_none.1 hfind l hmem)
  | some k => exact List.find?_some hfind

theorem resendOn_flits (lanes : BitVec 8) (last : Nat) (l : List TxFlit) :
    (resendOn lanes last l).map (fun f => (f.seq, f.item, f.part, f.resent)) = l.map (fun f => (f.seq, f.item, f.part, f.resent + 1)) := by
  induction l generalizing last with
  | nil => rfl
  | cons t r ih => simp [resendOn, ih]

theorem resendOn_lanes {lanes : BitVec 8} (h : lanes ≠ 0#8) {last : Nat} {l : List TxFlit} {f : TxFlit} (hf : f ∈ resendOn lanes last l) :
    bit lanes.toNat f.lane = true := by
  induction l generalizing last with
  | nil => cases hf
  | cons t r ih =>
    rcases List.mem_cons.1 hf with rfl | hf
    · exact bit_nextLane last h
    · exact ih hf

theorem resend_of_spent {i : Nat} {s : State} (h : ∃ f ∈ (portOf s i).replay, 8 ≤ f.resent) : resend i s = portDown i 9 s :=
  if_pos (by simpa [Port.spent] using h)

theorem resend_of_unspent {i : Nat} {s : State} (h : ∀ f ∈ (portOf s i).replay, f.resent < 8) :
    resend i s = updPort i (fun p => { p with
      replay := resendOn p.remaining p.txLane p.replay
      txLane := ((resendOn p.remaining p.txLane p.replay).getLast?.map (·.lane)).getD p.txLane }) s :=
  if_neg (by simpa [Port.spent] using h)

theorem resend_spec {i : Nat} {s : State} (h : ∀ f ∈ (portOf s i).replay, f.resent < 8) : let t := resend i s
    (portOf t i).replay.map (fun f => (f.seq, f.item, f.part, f.resent)) =
      (portOf s i).replay.map (fun f => (f.seq, f.item, f.part, f.resent + 1)) ∧
    ((portOf s i).remaining ≠ 0#8 → ∀ f ∈ (portOf t i).replay, bit (portOf s i).remaining.toNat f.lane = true) ∧
    t = { s with links := t.links } := by
  rw [resend_of_unspent h]
  dsimp only
  rw [portOf_updPort]
  exact ⟨resendOn_flits _ _ _, fun hm f hf => resendOn_lanes hm hf, rfl⟩

/-! ## The place of a port in the flits that it receives

Sending moves no `ACK_SEQ`, NAK or drop state: a flit that is forwarded leaves them as its own arrival has set them. -/

/-- The last flit accepted, NAK, and whether later flits are dropped (R254). -/
def Port.rxPlace (p : Port) : Nat × Bool × Bool := (p.rxSeq, p.rxNak, p.dropping)

theorem Port.rxPlace_nextClass {p q : Port} {c : Nat} (h : p.nextClass = some (c, q)) : q.rxPlace = p.rxPlace := by
  unfold Port.nextClass at h
  dsimp only at h
  split at h
  · cases h; rfl
  · split at h
    · cases h
    · cases h
      unfold Port.rxPlace
      dsimp only
      split <;> rfl

theorem Port.rxPlace_sendSlot {p q : Port} (h : p.sendSlot = some q) : q.rxPlace = p.rxPlace := by
  unfold Port.sendSlot at h
  split at h
  · cases h
  · split at h
    case h_1 => cases h
    case h_2 c r hclass =>
      split at h
      · cases h
      · cases h
        exact (Port.rxPlace_nextClass hclass :)

theorem Port.rxPlace_pump (p : Port) (n : Nat) : (p.pump n).rxPlace = p.rxPlace := by
  induction n generalizing p with
  | zero => rfl
  | succ n ih =>
    unfold Port.pump
    split
    case h_1 => rfl
    case h_2 q hslot => rw [ih, Port.rxPlace_sendSlot hslot]

theorem rxPlace_setPort (i j : Nat) {v : Port} {s : State} (h : v.rxPlace = (portOf s j).rxPlace) :
    (portOf (setPort j v s) i).rxPlace = (portOf s i).rxPlace := by
  by_cases hij : i = j
  · subst hij; rw [portOf_setPort, h]
  · rw [setPort, portOf, mapLinks_links, Tab.get_set_ne _ _ _ _ _ hij, portOf]

theorem rxPlace_updPort (i j : Nat) {g : Port → Port} (h : ∀ v, (g v).rxPlace = v.rxPlace) (s : State) :
    (portOf (updPort j g s) i).rxPlace = (portOf s i).rxPlace :=
  rxPlace_setPort i j (h _)

@[simp] theorem rxPlace_freeBuffers (i j cls n : Nat) (s : State) : (portOf (freeBuffers j cls n s) i).rxPlace = (portOf s i).rxPlace :=
  rxPlace_updPort i j (fun _ => by rfl) s

@[simp] theorem rxPlace_forEach_freeBuffers (i : Nat) (l : List (Nat × Nat)) (s : State) :
    (portOf (forEach l (fun e => freeBuffers e.1 e.2 1) s) i).rxPlace = (portOf s i).rxPlace := by
  induction l generalizing s with
  | nil => rfl
  | cons e r ih => rw [forEach, ih, rxPlace_freeBuffers]

@[simp] theorem rxPlace_drainPort (i j : Nat) (s : State) : (portOf (drainPort j s) i).rxPlace = (portOf s i).rxPlace := by
  unfold drainPort
  rw [rxPlace_forEach_freeBuffers]
  exact rxPlace_setPort i j (Port.rxPlace_pump _ _)

@[simp] theorem rxPlace_queueItem (i j : Nat) (source : Option Nat) (item : OutItem) (s : State) :
    (portOf (queueItem j source item s) i).rxPlace = (portOf s i).rxPlace := by
  unfold queueItem
  rw [rxPlace_drainPort]
  exact rxPlace_updPort i j (fun _ => by rfl) s

@[simp] theorem rxPlace_noRoute (i j d : Nat) (s : State) : (portOf (noRoute j d s) i).rxPlace = (portOf s i).rxPlace := by
  have hcount : (portOf (updPort j (fun p => { p with noRoute := satInc 64 p.noRoute }) s) i).rxPlace = (portOf s i).rxPlace :=
    rxPlace_updPort i j (fun _ => by rfl) s
  unfold noRoute
  dsimp only
  (repeat' split) <;> simpa [portOf] using hcount

@[simp] theorem rxPlace_routePkt (i j : Nat) (source : Option Nat) (p : Pkt) (s : State) :
    (portOf (routePkt j source p s) i).rxPlace = (portOf s i).rxPlace := by
  unfold routePkt
  split
  · cases source <;> simp [dropBuffers]
  · simp

@[simp] theorem rxPlace_takePkt (i j n : Nat) (p : Pkt) (s : State) : (portOf (takePkt j n p s) i).rxPlace = (portOf s i).rxPlace := by
  have hcount : ∀ g : Port → Port, (∀ v, (g v).rxPlace = v.rxPlace) →
      (portOf (freeBuffers j p.cls n (updPort j g s)) i).rxPlace = (portOf s i).rxPlace := fun g hg => by
    rw [rxPlace_freeBuffers, rxPlace_updPort i j hg]
  unfold takePkt
  split
  · exact hcount _ fun _ => by rfl
  · split
    · rfl
    · split
      · exact hcount _ fun _ => by rfl
      · split
        · rfl
        · unfold forwardPkt
          split
          · exact rxPlace_updPort i j (fun _ => by rfl) s
          · simp

theorem rxPlace_dropFlit (i j cls : Nat) {count : Port → Port} (h : ∀ v, (count v).rxPlace = v.rxPlace) (s : State) :
    (portOf (dropFlit j cls count s) i).rxPlace = (portOf s i).rxPlace := by
  unfold dropFlit
  rw [rxPlace_freeBuffers, rxPlace_updPort i j h]

@[simp] theorem rxPlace_takeFlit (i j : Nat) (f : Flit) (s : State) : (portOf (takeFlit j f s) i).rxPlace = (portOf s i).rxPlace := by
  unfold takeFlit
  dsimp only
  split
  · exact rxPlace_dropFlit i j _ (fun _ => by rfl) s
  split
  · refine rxPlace_dropFlit i j _ (fun v => ?_) s
    split <;> rfl
  split
  · exact rxPlace_dropFlit i j _ (fun _ => by rfl) s
  split
  · exact rxPlace_dropFlit i j _ (fun _ => by rfl) s
  split
  · exact rxPlace_dropFlit i j _ (fun _ => by rfl) s
  split
  · rw [rxPlace_takePkt]
    exact rxPlace_updPort i j (fun _ => by rfl) s
  · exact rxPlace_updPort i j (fun _ => by rfl) s

/-! ## What becomes of an accepted flit (R248, R251, R253, R276) -/

/-- A flit takes its place in the order and a receive buffer of its class. -/
def seatFlit (port : Nat) (f : Flit) : State → State :=
  updPort port (fun p => { p with rxSeq := f.seq, rxNak := false, dropping := false, rxUsed := Tab.upd p.rxUsed f.cls 0 (· + 1) })

theorem acceptFlit_eq (port : Nat) (f : Flit) (s : State) : acceptFlit port f s = takeFlit port f (seatFlit port f s) := rfl

theorem portOf_seatFlit (i : Nat) (f : Flit) (s : State) : portOf (seatFlit i f s) i =
    { portOf s i with rxSeq := f.seq, rxNak := false, dropping := false, rxUsed := Tab.upd (portOf s i).rxUsed f.cls 0 (· + 1) } :=
  portOf_updPort _ _ _

theorem rxPlace_acceptFlit (i : Nat) (f : Flit) (s : State) : (portOf (acceptFlit i f s) i).rxPlace = (f.seq, false, false) := by
  rw [acceptFlit_eq, rxPlace_takeFlit, portOf_seatFlit]
  rfl

/-- A dropped flit is counted and frees its buffer. -/
theorem portOf_dropFlit (i cls : Nat) (count : Port → Port) (s : State) : portOf (dropFlit i cls count s) i =
    { count (portOf s i) with
      rxUsed := Tab.upd (count (portOf s i)).rxUsed cls 0 (· - 1), freed := Tab.upd (count (portOf s i)).freed cls 0 (· + 1) } := by
  rw [dropFlit, freeBuffers, portOf_updPort, portOf_updPort]

section
variable {i : Nat} {f : Flit} {s : State}

theorem acceptFlit_of_host_class (hc : f.cls = 3) (hr : (portOf s i).hostRole = false) :
    acceptFlit i f s = dropFlit i f.cls (fun v => { v with hostDrops := satInc 64 v.hostDrops }) (seatFlit i f s) := by
  rw [acceptFlit_eq, takeFlit, portOf_seatFlit]
  exact if_pos (by simp [hc, hr])

theorem acceptFlit_of_refused (hc : f.cls ≠ 3) (ht : f.ftype = 1) (hr : (portOf s i).hostReason ≠ 0) :
    acceptFlit i f s = dropFlit i f.cls id (seatFlit i f s) := by
  rw [acceptFlit_eq, takeFlit, portOf_seatFlit]
  simp [hc, ht, hr]

theorem acceptFlit_of_no_hops (hc : f.cls ≠ 3) (ht : f.ftype = 1) (hr : (portOf s i).hostReason = 0) (hh : f.hops = 0)
    (ha : ∃ a, s.mesh.addr = some a ∧ a ≠ f.dest) (he : flitType f (Tab.get (portOf s i).rxPart f.cls ⟨[], 0⟩) ≠ 0x20) :
    acceptFlit i f s = dropFlit i f.cls (fun v => { v with hopExpired := satInc 64 v.hopExpired }) (seatFlit i f s) := by
  obtain ⟨a, ha, hne⟩ := ha
  have hmesh : (seatFlit i f s).mesh.addr = some a := ha
  rw [acceptFlit_eq, takeFlit, portOf_seatFlit, hmesh]
  simp [hc, ht, hr, hh, hne, he]

theorem acceptFlit_of_more (hc : f.cls ≠ 3) (ht : f.ftype = 1) (hr : (portOf s i).hostReason = 0) (hh : f.hops ≠ 0) (hl : f.last = false) :
    let part := Tab.get (portOf s i).rxPart f.cls ⟨[], 0⟩
    let got := (⟨(if f.first then [] else part.bytes) ++ f.payload.take (min f.payLen 236), (if f.first then 0 else part.flits) + 1⟩ : Partial)
    acceptFlit i f s = updPort i (fun p => { p with rxPart := Tab.set p.rxPart f.cls got }) (seatFlit i f s) := by
  rw [acceptFlit_eq, takeFlit, portOf_seatFlit]
  simp [hc, ht, hr, hh, hl]

end

/-! ## Flits received, in order and ahead (R249, R251, R254) -/

section
variable {i : Nat} {f : Flit} {s : State} (hp : (portOf s i).carries = true) (ht : f.ftype ≠ 0)

theorem exec_flitReceive_of_nothing (h : (portOf s i).carries = false ∨ f.ftype = 0) : exec (.flitReceive i f) s = .next s :=
  congrArg _ (if_pos (by simpa using h))

include hp ht

theorem exec_flitReceive_of_bad (hg : flitGood f = false) : exec (.flitReceive i f) s = .next (loseFlit i s) := by
  show execFlitReceive i f s = _
  simp [execFlitReceive, hp, ht, hg]

theorem exec_flitReceive_of_next (hg : flitGood f = true) (h : (f.seq + 2 ^ 20 - (portOf s i).rxSeq) % 2 ^ 20 = 1) :
    exec (.flitReceive i f) s =
      .next (if Tab.get (portOf s i).rxUsed f.cls 0 < classBuffers f.cls then acceptHeld i 8 (acceptFlit i f s) else loseFlit i s) := by
  show execFlitReceive i f s = _
  unfold execFlitReceive
  dsimp only
  rw [if_neg (by simp [hp, ht]), if_neg (by simp [hg]), if_pos h]
  simp [Port.roomFor]

theorem exec_flitReceive_of_past (hg : flitGood f = true) (h : (f.seq + 2 ^ 20 - (portOf s i).rxSeq) % 2 ^ 20 ≠ 1)
    (hd : (f.seq + 2 ^ 20 - (portOf s i).rxSeq) % 2 ^ 20 = 0 ∨ 2 ^ 19 ≤ (f.seq + 2 ^ 20 - (portOf s i).rxSeq) % 2 ^ 20 ∨
      (portOf s i).dropping = true) : exec (.flitReceive i f) s = .next s := by
  show execFlitReceive i f s = _
  unfold execFlitReceive
  dsimp only
  rw [if_neg (by simp [hp, ht]), if_neg (by simp [hg]), if_neg h, if_pos (by simpa [or_assoc] using hd)]

theorem exec_flitReceive_of_ahead (hg : flitGood f = true) (h : 1 < (f.seq + 2 ^ 20 - (portOf s i).rxSeq) % 2 ^ 20)
    (hlt : (f.seq + 2 ^ 20 - (portOf s i).rxSeq) % 2 ^ 20 < 2 ^ 19) (hd : (portOf s i).dropping = false) :
    exec (.flitReceive i f) s = .next (if (portOf s i).rxHeld.any (fun g => g.lane = f.lane) then loseFlit i s
      else updPort i (fun v => { v with rxHeld := v.rxHeld ++ [f] }) s) := by
  show execFlitReceive i f s = _
  unfold execFlitReceive
  dsimp only
  rw [if_neg (by simp [hp, ht]), if_neg (by simp [hg]), if_neg (Nat.ne_of_gt h), if_neg (by rw [hd, Bool.or_false, Bool.or_eq_true, decide_eq_true_eq, decide_eq_true_eq]; omega)]

end

/-! ## Alignment blocks (R246, R269) -/

section
variable {i : Nat} {b : AlignBlock} {s : State}

theorem exec_alignmentBlockReceive_of_ignored
    (h : (portOf s i).carries = false ∨ bit (portOf s i).active.toNat b.lane = false ∨ b.marker ≠ 0x3C5AE1960FF0A55A#64) :
    exec (.alignmentBlockReceive i b) s = .next s := by
  refine congrArg _ (if_pos ?_)
  have hmark : b.marker ≠ 0x3C5AE1960FF0A55A#64 → b.marker.toNat ≠ alignMarker := fun hne heq => hne (BitVec.eq_of_toNat_eq heq)
  simp only [Bool.or_eq_true, Bool.not_eq_true', decide_eq_true_eq]
  rcases h with h | h | h
  · exact .inl (.inl h)
  · exact .inr h
  · exact .inl (.inr (hmark h))

theorem exec_alignmentBlockReceive_of_active (hp : (portOf s i).carries = true) (hl : bit (portOf s i).active.toNat b.lane = true)
    (hm : b.marker = 0x3C5AE1960FF0A55A#64) :
    exec (.alignmentBlockReceive i b) s = .next (if b.senderSerial ≠ (portOf s i).partnerSerial then takeDown i 0xA s
      else updPort i (fun p => { p with
        partnerFrame := b.frameNo, partnerMesh := if b.senderMesh = 0xFFFF#16 then p.partnerMesh else some b.senderMesh }) s) :=
  congrArg _ (if_neg (by simp [hp, hl, hm, alignMarker]))

end

/-! ## The statement -/

/-- Settles O36: a received flit by the case of its number, an accepted one by the case that drops or keeps it, the flits sent again by `resendOn`, and
the lengths of what goes out from those of its fields. -/
theorem flitsAndReplay : Obligations.FlitsAndReplay := by
  refine ⟨fun i f s => exec_flitReceive_of_nothing, ?_, ?_, sentFlit_spec, sentControl_spec, ?_, ?_,
    fun p ack => ⟨Port.acknowledge_of_covered, Port.acknowledge_of_outside⟩, ?_, ?_, fun i s => ⟨resend_of_spent, resend_spec⟩, ?_,
    fun i b s => exec_alignmentBlockReceive_of_ignored, fun s i lane q info => ⟨alignBytes_length s i lane q info, alignBytes_marker s i lane q info⟩,
    fun s i lane slots w hn h => ⟨laneFrame_length s i lane w hn h, laneFrame_block s i lane slots w⟩⟩
  · intro i f s hp ht ahead lost
    refine ⟨exec_flitReceive_of_bad hp ht, fun hg h hroom => ?_, fun hg h hfull => ?_, exec_flitReceive_of_past hp ht,
      fun hg h hlt hd => ⟨fun hheld => ?_, fun hfree => ?_⟩⟩
    · rw [exec_flitReceive_of_next hp ht hg h, if_pos hroom]
    · rw [exec_flitReceive_of_next hp ht hg h, if_neg (Nat.not_lt.2 hfull)]
      rfl
    · rw [exec_flitReceive_of_ahead hp ht hg h hlt hd, if_pos (by simpa using hheld)]
      rfl
    · rw [exec_flitReceive_of_ahead hp ht hg h hlt hd, if_neg (by simpa using hfree)]
  · intro i f s p t part
    obtain ⟨hseq, hnak, hdrop⟩ : (portOf t i).rxSeq = f.seq ∧ (portOf t i).rxNak = false ∧ (portOf t i).dropping = false := by
      simpa [Port.rxPlace] using rxPlace_acceptFlit i f s
    refine ⟨hseq, hnak, hdrop, fun hc hr => ?_, fun hc hft hr hh ha he => ?_, fun hc hft hr => ?_, fun hc hft hr hh hl => ?_,
      by simp [t], by simp [t], by simp [t], by simp [t]⟩
    · have ht : t = _ := acceptFlit_of_host_class hc hr
      rw [ht, portOf_dropFlit, portOf_seatFlit, hc]
      exact ⟨rfl, Tab.get_set_same _ _ _ _, by simp [Tab.upd, p], rfl⟩
    · have ht : t = _ := acceptFlit_of_no_hops hc hft hr hh ha he
      rw [ht, portOf_dropFlit, portOf_seatFlit]
      exact ⟨rfl, Tab.get_set_same _ _ _ _, rfl⟩
    · have ht : t = _ := acceptFlit_of_refused hc hft hr
      rw [ht, portOf_dropFlit, portOf_seatFlit]
      exact ⟨Tab.get_set_same _ _ _ _, rfl⟩
    · have ht : t = _ := acceptFlit_of_more hc hft hr hh hl
      rw [ht, portOf_updPort, portOf_seatFlit]
      exact ⟨Tab.find_set_same _ _ _, rfl, Tab.get_set_same _ _ _ _, rfl⟩
  · exact fun i w s h => congrArg _ (if_neg (by simpa using fun hp => h.resolve_left (by simp [hp])))
  · exact fun i w s hp hc => congrArg _ (if_pos (by simp [hp, hc]))
  · exact fun i s hp hne => congrArg _ (if_pos (by simp [hp, hne]))
  · exact fun i s h => congrArg _ (if_neg (by simpa using fun hp => h.resolve_left (by simp [hp])))
  · intro i b s hp hl hm
    rw [exec_alignmentBlockReceive_of_active hp hl hm]
    exact ⟨fun hne => by rw [if_pos hne], fun heq => by rw [if_neg (fun hne => hne heq)]⟩

end Sys2Proof.Machine

/-! PROOF. What a request that fails a test of R310 does: every mailbox command is a request with its row of R323, and the verdict on it decides. -/

namespace Sys2Proof.Machine

open Sys2Proof

/-! ## Requests that are not carried out -/

theorem tripAnswered_of_ne {c : Instr} (h1 : ∀ k, c ≠ .moduleState k) (h2 : ∀ k, c ≠ .moduleWake k) (t : State) : tripAnswered c t = t := by
  unfold tripAnswered
  split
  · exact absurd rfl (h1 _)
  · exact absurd rfl (h2 _)
  · rfl

/-- A mailbox command is a request with its row of R323, and `module.state` and `module.wake` may end ALERT with it (R477). -/
theorem exec_of_row {c : Instr} {h : Hdr} {row : Cmd} {s : State} (hc : commandRow c s = some (h, row)) : ∃ body after,
    (exec c s = .next (requestThen h row body after s) ∧ ∀ t, tripAnswered c t = t) ∨
    (exec c s = .next (clearTrip h row s (requestThen h row body after s)) ∧ ∀ t, tripAnswered c t = endTripAlert h.mailbox t) := by
  by_cases h1 : ∃ k, c = .moduleState k
  · obtain ⟨k, rfl⟩ := h1
    obtain ⟨rfl, rfl⟩ := Prod.mk.inj (Option.some.inj hc)
    obtain ⟨body, after, he⟩ := asks_moduleState k s
    exact ⟨body, after, .inr ⟨he, fun _ => rfl⟩⟩
  by_cases h2 : ∃ k, c = .moduleWake k
  · obtain ⟨k, rfl⟩ := h2
    obtain ⟨rfl, rfl⟩ := Prod.mk.inj (Option.some.inj hc)
    obtain ⟨body, after, he⟩ := asks_moduleWake k s
    exact ⟨body, after, .inr ⟨he, fun _ => rfl⟩⟩
  · have h1' := not_exists.1 h1
    have h2' := not_exists.1 h2
    obtain ⟨body, after, he⟩ := asks_of_row hc h1' h2'
    exact ⟨body, after, .inl ⟨he, tripAnswered_of_ne h1' h2'⟩⟩

section
variable {c : Instr} {h : Hdr} {row : Cmd} {s : State} (hc : commandRow c s = some (h, row))
include hc

theorem exec_of_unserved (hj : judge h row s = .unserved) : exec c s = .next s := by
  obtain ⟨body, after, ⟨he, -⟩ | ⟨he, -⟩⟩ := exec_of_row hc
  · rw [he, requestThen_unserved hj]
  · rw [he, clearTrip_unserved hj, requestThen_unserved hj]

theorem exec_of_discarded (hj : judge h row s = .discard) : exec c s = .next (violation 0x07 .none (sourceHost s) s) := by
  obtain ⟨body, after, ⟨he, -⟩ | ⟨he, -⟩⟩ := exec_of_row hc
  · rw [he, requestThen_discard hj, discard]
  · rw [he, clearTrip_discard hj, requestThen_discard hj, discard]

theorem exec_of_refused {r : Reply} (hj : judge h row s = .refuse r) :
    exec c s = .next (tripAnswered c (respond h row.code r (accept h s))) := by
  obtain ⟨body, after, ⟨he, ht⟩ | ⟨he, ht⟩⟩ := exec_of_row hc
  · rw [he, ht, requestThen_refuse hj]
  · rw [he, ht, clearTrip_refuse hj, requestThen_refuse hj]

end

/-- Settles O7: the verdict of each failing test, and what a command does by that verdict. -/
theorem unexecutedRequest : Obligations.UnexecutedRequest :=
  ⟨fun _ _ _ _ hc => ⟨fun hs ha => exec_of_discarded hc (judge_discard hs ha), fun hs => exec_of_unserved hc (judge_unserved hs)⟩,
    fun _ _ _ _ hc hs ha => ⟨fun hl => exec_of_refused hc (judge_length hs ha hl),
      fun h1 h2 hi => exec_of_refused hc (judge_issuer hs ha h1 h2 hi),
      fun h1 h2 hi hm => exec_of_refused hc (judge_state hs ha h1 h2 hi hm)⟩⟩

end Sys2Proof.Machine

/-! PROOF. What a request that only reads answers: bytes and numbers of a record, the answer of an accepted request, what reads no session, and the
records of state and identity (R322, R342). -/

namespace Sys2Proof

/-! ## Numbers in a record (R9) -/

theorem leNat_le (n v : Nat) : leNat (le n v) = v % 256 ^ n := by
  induction n generalizing v with
  | zero => simp [le, leNat, Nat.mod_one]
  | succ n ih =>
    rw [le, leNat, ih, BitVec.toNat_ofNat, show 256 ^ (n + 1) = 256 * 256 ^ n from Nat.pow_succ']
    exact Nat.mod_mul.symm

theorem le_zero (n : Nat) : le n 0 = List.replicate n 0#8 := by
  induction n with
  | zero => rfl
  | succ n ih => rw [le, Nat.zero_div, ih, List.replicate_succ]

theorem le_add (m n v : Nat) : le (m + n) v = le m v ++ le n (v / 256 ^ m) := by
  induction m generalizing v with
  | zero => simp [le]
  | succ m ih => rw [Nat.succ_add, le, ih, le, Nat.div_div_eq_div_mul, ← Nat.pow_succ', List.cons_append]

theorem le_mod (n v : Nat) : le n (v % 256 ^ n) = le n v := by
  induction n generalizing v with
  | zero => rfl
  | succ n ih =>
    have hlow : BitVec.ofNat 8 (v % 256 ^ (n + 1)) = BitVec.ofNat 8 v :=
      BitVec.eq_of_toNat_eq (by simp [Nat.pow_succ'])
    rw [le, le, hlow, Nat.pow_succ', Nat.mod_mul_right_div_self, ih]

/-- The first field of a record. -/
theorem numAt_lay_head (n v : Nat) (fs : List (Nat × Nat)) : numAt (lay ((n, v) :: fs)) 0 n = v % 256 ^ n := by
  rw [numAt, List.drop_zero, lay, List.take_left' (Machine.le_length n v), leNat_le]

/-- A later field stands where it would without those before it. -/
theorem numAt_lay_skip {m a : Nat} (h : m ≤ a) (v n : Nat) (fs : List (Nat × Nat)) :
    numAt (lay ((m, v) :: fs)) a n = numAt (lay fs) (a - m) n := by
  rw [numAt, numAt, lay, List.drop_append, List.drop_of_length_le (by rwa [Machine.le_length]), Machine.le_length, List.nil_append]

/-- A field stands after the bytes of those before it. -/
theorem numAt_lay (before : List (Nat × Nat)) (n v : Nat) (after : List (Nat × Nat)) :
    numAt (lay (before ++ (n, v) :: after)) (before.map Prod.fst).sum n = v % 256 ^ n := by
  induction before with
  | nil => exact numAt_lay_head n v after
  | cons f r ih => rw [List.map_cons, List.sum_cons, List.cons_append, numAt_lay_skip (Nat.le_add_right _ _), Nat.add_sub_cancel_left, ih]

theorem maskOf_lt {l : List Nat} {n : Nat} (h : ∀ i ∈ l, i < n) : maskOf l < 2 ^ n := by
  induction l with
  | nil => exact Nat.two_pow_pos n
  | cons i r ih =>
    obtain ⟨hi, hr⟩ := List.forall_mem_cons.1 h
    exact Nat.or_lt_two_pow (Nat.pow_lt_pow_right (by decide) hi) (ih hr)

theorem flag_le_one (b : Bool) : flag b ≤ 1 := by cases b <;> decide

/-- Four flags as bits 0 to 3 of a number. -/
theorem flags_spec (a b c d : Bool) : let n := flag a + 2 * flag b + 4 * flag c + 8 * flag d
    n < 16 ∧ bit n 0 = a ∧ bit n 1 = b ∧ bit n 2 = c ∧ bit n 3 = d := by
  revert a b c d
  decide

end Sys2Proof

namespace Sys2Proof.Machine

open Sys2Proof

/-! ## The answer of an accepted request -/

theorem request_ok {h : Hdr} {c : Cmd} {body : State → Ans} {s t : State} {p : List Byte} (hj : judge h c s = .go) (hb : body (accept h s) = ok p t) :
    request h c body s = okResponse h c.code p t := by
  rw [request_go hj, hb]
  rfl

theorem request_clamped {h : Hdr} {c : Cmd} {body : State → Ans} {s t : State} {cs : List Clamped} {p : List Byte} (hj : judge h c s = .go)
    (hb : body (accept h s) = okClamped cs p t) : request h c body s = clampResponse h c.code cs p t := by
  rw [request_go hj, hb]
  rfl

/-- What reads no session reads the same after the acceptance of a request. -/
theorem reads_accept {α : Type} (F : State → α) (hF : ∀ s l, F { s with gateh := { s.gateh with sessions := l } } = F s) (h : Hdr) (s : State) :
    F (accept h s) = F s := by
  rw [accept_frame]
  exact hF _ _

/-- A request whose record reads no session answers the record of the state that it met. -/
theorem request_reads {h : Hdr} {c : Cmd} {s : State} (F : State → List Byte) (hF : ∀ s l, F { s with gateh := { s.gateh with sessions := l } } = F s)
    (g : State → State) (hj : judge h c s = .go) : request h c (fun s => ok (F s) (g s)) s = okResponse h c.code (F s) (g (accept h s)) :=
  request_ok hj (by rw [reads_accept F hF])

/-- The acceptance of a request moves the least `SEQ` of its session on, and not its kind. -/
theorem issuerKind_accept (h : Hdr) (s : State) : issuerKind h (accept h s) = issuerKind h s := by
  unfold accept
  split
  · rfl
  · unfold issuerKind sessionOf
    cases hf : Tab.find s.gateh.sessions h.session with
    | none => simp [mapGate, hf]
    | some e =>
      simp only [mapGate, hf, Tab.find_set_same]
      split <;> rfl

/-! ## Requests that answer with one record -/

section
variable {h : Hdr} {s : State}

theorem exec_moduleIdentify (hacc : Accepted (.moduleIdentify h) s) :
    exec (.moduleIdentify h) s = .next (okResponse h 0x0100 (identityBytes (accept h s)) (accept h s)) :=
  congrArg _ (request_ok hacc rfl)

/-- The eight remap tables and the slide records (R187, R191). -/
def plotStatusBytes (s : State) : List Byte :=
  (List.range 8).flatMap (fun f => (List.range 64).flatMap (fun i => le 4 (remapWord s f i))) ++
    (List.range 8).flatMap (fun f => (List.range 32).flatMap (fun r => le 2 ((fieldOf s f).slideRow r).word))

theorem exec_plotStatus (hacc : Accepted (.plotStatus h) s) :
    exec (.plotStatus h) s = .next (okResponse h 0x0400 (plotStatusBytes s) (accept h s)) :=
  congrArg _ (request_reads plotStatusBytes (fun _ _ => rfl) id hacc)

theorem exec_linkStatus (hacc : Accepted (.linkStatus h) s) :
    exec (.linkStatus h) s = .next (okResponse h 0x0600 ((List.range 16).flatMap (portReport s)) (accept h s)) :=
  congrArg _ (request_reads (fun s => (List.range 16).flatMap (portReport s)) (fun _ _ => rfl) id hacc)

theorem exec_meshStatus (hacc : Accepted (.meshStatus h) s) :
    exec (.meshStatus h) s = .next (okResponse h 0x0701 (meshStatusBytes s) (accept h s)) :=
  congrArg _ (request_reads meshStatusBytes (fun _ _ => rfl) id hacc)

theorem exec_meshTimeRead (hacc : Accepted (.meshTimeRead h) s) :
    exec (.meshTimeRead h) s = .next (okResponse h 0x0703 ((List.range 16).flatMap (timeRecord s)) (accept h s)) :=
  congrArg _ (request_reads (fun s => (List.range 16).flatMap (timeRecord s)) (fun _ _ => rfl) id hacc)

theorem exec_jobStatus {v : U64} (hacc : Accepted (.jobStatus h v) s) : exec (.jobStatus h v) s =
    .next (okResponse h 0x0304 (jobStatusBytes (issuerKind h s = 2) (bits v.toNat 0 9) s) (accept h s)) := by
  refine congrArg _ (request_ok hacc ?_)
  rw [issuerKind_accept, reads_accept (jobStatusBytes _ _) (fun _ _ => rfl)]

/-- The records of the pack relays to the members (R339). -/
def relayRecords (s : State) : List Byte :=
  (if s.mesh.root then s.test.relays else []).flatMap
    (fun e => lay [(4, pack [(6, e.1), (2, e.2.state), (8, 0), (16, e.2.status)]), (4, e.2.version)])

/-- The record of the field tests up to the pack relays (R339). -/
def testSummary (s : State) : List Byte :=
  lay [(4, installedVersion s), (4, pack [(1, flag s.test.assurance), (1, flag s.test.retracted)]),
    (48, (s.flash.pack.map (fun k => (Config.sha384 k.bytes).toNat)).getD 0), (8, (if s.mesh.root then s.test.relays else []).length)]
    ++ (List.range 8).flatMap (testFieldRecord s)

theorem exec_testStatus (hacc : Accepted (.testStatus h) s) :
    exec (.testStatus h) s = .next (okResponse h 0x0802 (testSummary s ++ relayRecords s) (accept h s)) :=
  congrArg _ (request_reads (fun s => testSummary s ++ relayRecords s) (fun _ _ => rfl) id hacc)

/-- A warning's kind and kind of source stand in a byte each. -/
theorem le_kinds (a b : Nat) : le 2 (pack [(8, a), (4, b)]) = le 1 a ++ le 1 (b % 16) := by
  rw [le_add 1 1, ← le_mod 1]
  simp only [pack]
  rw [show (a % 2 ^ 8 + 2 ^ 8 * (b % 2 ^ 4 + 2 ^ 4 * 0)) % 256 ^ 1 = a % 256 ^ 1 by omega,
    show (a % 2 ^ 8 + 2 ^ 8 * (b % 2 ^ 4 + 2 ^ 4 * 0)) / 256 ^ 1 = b % 16 by omega, le_mod]

theorem exec_healthWarnings (hacc : Accepted (.healthWarnings h) s) : exec (.healthWarnings h) s = .next (okResponse h 0x0904
    (le 8 s.health.length ++ s.health.flatMap (fun w => le 1 w.kind ++ le 1 (w.srcKind % 16) ++ le 2 w.object ++ le 4 (toBits 32 w.value) ++
      le 4 (toBits 32 w.threshold) ++ le 4 0 ++ le 8 w.first.toNat ++ le 8 w.last.toNat)) (accept h s)) := by
  refine congrArg _ (request_ok hacc ?_)
  simp only [accept_keeps, lay, le_kinds, List.append_assoc, List.append_nil]

theorem exec_powerStatus (hacc : Accepted (.powerStatus h) s) : exec (.powerStatus h) s =
    .next (okResponse h 0x0B02 (powerBytes s) (mapPwr (fun w => { w with peakW := w.powerW }) (accept h s))) :=
  congrArg _ (request_reads powerBytes (fun _ _ => rfl) (mapPwr (fun w => { w with peakW := w.powerW })) hacc)

theorem exec_attestReport {nonce : Digest} (hacc : Accepted (.attestReport h nonce) s) :
    exec (.attestReport h nonce) s = .next (okResponse h 0x0202 (attestBytes nonce (accept h s)) (drawFree (accept h s))) :=
  congrArg _ (request_ok (t := drawFree (accept h s)) hacc rfl)

/-! ## Requests that read what a field names -/

theorem exec_memoryRegionList {v : U64} (hacc : Accepted (.memoryRegionList h v) s) (hv : v.toNat ≤ 1023) : exec (.memoryRegionList h v) s =
    .next (okResponse h 0x0503 (listReply ((s.hbm.regions.filter (fun e => decide (v.toNat ≤ e.1) && e.2.owner = issuerHash h (accept h s))).map
      (fun e => (e.1, e.2.report e.1))) 1024) (accept h s)) := by
  refine congrArg _ (request_ok hacc ?_)
  rw [if_neg (Nat.not_lt.2 hv), reads_accept (·.hbm) (fun _ _ => rfl)]

theorem exec_windowList {v : U64} (hacc : Accepted (.windowList h v) s) (hv : v.toNat ≤ 4095) : exec (.windowList h v) s =
    .next (okResponse h 0x0706 (listReply ((s.mesh.windows.filter (fun e => decide (v.toNat ≤ e.1) && e.2.owner = issuerHash h (accept h s))).map
      (fun e => (e.1, e.2.report e.1))) 4096) (accept h s)) := by
  refine congrArg _ (request_ok hacc ?_)
  rw [if_neg (Nat.not_lt.2 hv), reads_accept (·.mesh) (fun _ _ => rfl)]

theorem exec_healthLogRead {f a n : U64} (hacc : Accepted (.healthLogRead h f a n) s) (hf : f.toNat ≤ 7) : exec (.healthLogRead h f a n) s =
    .next (clampResponse h 0x0901 [⟨f.toNat, false⟩, clampTo 4095 a.toNat, clampNear 1 127 n.toNat]
      ((((fieldOf s f.toNat).log.drop (clampTo 4095 a.toNat).value).take (clampNear 1 127 n.toNat).value).flatMap LogRec.bytes) (accept h s)) := by
  refine congrArg _ (request_clamped hacc ?_)
  rw [if_neg (Nat.not_lt.2 hf), reads_accept (fieldOf · f.toNat) (fun _ _ => rfl)]

theorem exec_healthEventsRead {a n : U64} (hacc : Accepted (.healthEventsRead h a n) s) :
    let oldest := (s.evt.ring.head?.map (·.1)).getD s.evt.next
    let c := clampNear oldest s.evt.next a.toNat
    let d := clampNear 1 127 n.toNat
    exec (.healthEventsRead h a n) s = .next (clampResponse h 0x0902 [c, d]
      (eventReply s.evt.ring c.value d.value oldest s.evt.next (issuerKind h (accept h s)) (issuerHash h (accept h s))) (accept h s)) := by
  refine congrArg _ (request_clamped hacc ?_)
  rw [reads_accept (·.evt) (fun _ _ => rfl)]

theorem exec_healthSummaryRead_of_counts {v : U64} (hacc : Accepted (.healthSummaryRead h v) s) (hv : v.toNat % 256 = 0) :
    let start := bits v.toNat 8 40
    let all := s.flash.sumCounts.filter (fun e => decide (start ≤ e.1))
    exec (.healthSummaryRead h v) s = .next (okResponse h 0x0903
      (lay [(8, ((all.take 254).head?.map (·.1)).getD start), (8, ((all.drop 254).head?.map (·.1)).getD 65536), (8, 0), (8, (all.take 254).length)]
        ++ (all.take 254).flatMap (fun e => lay [(8, e.1), (8, e.2)])) (accept h s)) := by
  have hpart : bits v.toNat 0 8 = 0 := by simpa [bits] using hv
  refine congrArg _ (request_ok hacc ?_)
  simp only [hpart, if_pos, accept_keeps]

theorem exec_healthSummaryRead_of_kept {v : U64} (hacc : Accepted (.healthSummaryRead h v) s) (hv : v.toNat % 256 = 1) :
    exec (.healthSummaryRead h v) s = .next (okResponse h 0x0903 (eventReply s.flash.sumKept (bits v.toNat 8 40) 127
      ((s.flash.sumKept.head?.map (·.1)).getD s.flash.sumNext) s.flash.sumNext (issuerKind h (accept h s)) (issuerHash h (accept h s)))
      (accept h s)) := by
  have hpart : bits v.toNat 0 8 = 1 := by simpa [bits] using hv
  refine congrArg _ (request_ok hacc ?_)
  simp only [hpart, Nat.one_ne_zero, if_neg, if_pos, not_false_eq_true, accept_keeps]

theorem exec_otpRead {v : U64} (hacc : Accepted (.otpRead h v) s)
    (hv : (1 ≤ v.toNat % 256 ∧ v.toNat % 256 ≤ 6) ∨ (0x10 ≤ v.toNat % 256 ∧ v.toNat % 256 ≤ 0x17)) :
    exec (.otpRead h v) s = .next (okResponse h 0x0A00 (otpReadBytes s (v.toNat % 256)) (accept h s)) := by
  have hsel : bits v.toNat 0 8 = v.toNat % 256 := by simp [bits]
  refine congrArg _ (request_ok hacc ?_)
  rw [hsel, if_pos (by simpa using hv), reads_accept (otpReadBytes · _) (fun _ _ => rfl)]

theorem exec_ownerViolationsRead {v : U64} (hacc : Accepted (.ownerViolationsRead h v) s) (hv : v.toNat % 256 ≤ 2) :
    let t := if v.toNat % 256 = 0 then s.gateh.vModule else if v.toNat % 256 = 1 then s.gateh.vRegion else s.gateh.vWindow
    let l := (t.filter (fun e => decide (bits v.toNat 8 24 ≤ e.1))).take 127
    exec (.ownerViolationsRead h v) s =
      .next (okResponse h 0x0204 (lay [(8, l.length), (24, 0)] ++ l.flatMap (fun e => violationRecord e.1 e.2)) (accept h s)) := by
  have hscope : bits v.toNat 0 8 = v.toNat % 256 := by simp [bits]
  refine congrArg _ (request_ok hacc ?_)
  rw [hscope, if_neg (Nat.not_lt.2 hv), reads_accept (·.gateh.vModule) (fun _ _ => rfl), reads_accept (·.gateh.vRegion) (fun _ _ => rfl),
    reads_accept (·.gateh.vWindow) (fun _ _ => rfl)]

theorem exec_healthMargins_of_port {v : U64} (hacc : Accepted (.healthMargins h v) s) (hv : v.toNat % 256 = 0) (hn : v.toNat / 256 % 256 < 16) :
    let n := v.toNat / 256 % 256
    let a := countLanes n (accept h s)
    exec (.healthMargins h v) s = .next (okResponse h 0x0900 (portMargins a n) (drawFree a)) := by
  have hkind : bits v.toNat 0 8 = 0 := by simpa [bits] using hv
  have hport : bits v.toNat 8 8 < 16 := hn
  exact congrArg _ (request_ok hacc (if_pos (by simp [hkind, hport])))

theorem exec_healthMargins_of_field {v : U64} (hacc : Accepted (.healthMargins h v) s) (hv : v.toNat % 256 = 1) (hn : v.toNat / 256 % 256 < 8) :
    let n := v.toNat / 256 % 256
    exec (.healthMargins h v) s = .next (okResponse h 0x0900 ((List.range 4).flatMap (fun k => stackMargins (accept h s) (4 * n + k)) ++
      (List.range 64).flatMap (plotMargins (accept h s) n)) (accept h s)) := by
  have hkind : bits v.toNat 0 8 = 1 := by simpa [bits] using hv
  have hfield : bits v.toNat 8 8 < 8 := hn
  exact congrArg _ (request_ok hacc ((if_neg (by simp [hkind])).trans (if_pos (by simp [hkind, hfield]))))

theorem exec_debugQueueView {v : U64} {b : List Byte} (hacc : Accepted (.debugQueueView h v) s) (hown : ownJob h (accept h s) = true)
    (hb : queueView (accept h s) (v.toNat % 256) (v.toNat / 256 % 2 ^ 24) = some b) :
    exec (.debugQueueView h v) s = .next (okResponse h 0x0C00 b (accept h s)) := by
  refine congrArg _ (request_ok hacc ?_)
  rw [if_neg (by simp [hown])]
  have hview : queueView (accept h s) (v.toNat % 256) (bits v.toNat 8 24) = some b := hb
  rw [hview]

theorem exec_debugCountersRead {v : U64} {l : List Nat} (hacc : Accepted (.debugCountersRead h v) s) (hown : ownJob h (accept h s) = true)
    (hl : scopeCounters (accept h s) (v.toNat % 256) (v.toNat / 256 % 2 ^ 24) = some l) :
    exec (.debugCountersRead h v) s = .next (okResponse h 0x0C01 (l.flatMap (le 8)) (accept h s)) := by
  refine congrArg _ (request_ok hacc ?_)
  rw [if_neg (by simp [hown]), hl]

end

/-! ## The records of state, time and identity -/

theorem ModState.code_lt (m : ModState) : m.code < 16 := by cases m <;> decide

theorem degCauses_lt (s : State) : degCauses s < 16 := (flags_spec _ _ _ _).1

theorem fencedMask_lt (s : State) : fencedMask s < 256 :=
  maskOf_lt (n := 8) fun _ hi => List.mem_range.1 (List.mem_filter.1 hi).1

theorem stateBytes_spec (s : State) : (stateBytes s).length = 16 ∧ numAt (stateBytes s) 0 1 = s.ctl.mode.code + 16 * flag (degraded s) ∧
    numAt (stateBytes s) 1 1 = degCauses s ∧ numAt (stateBytes s) 4 4 = fencedMask s + 256 * flag (s.ctl.fastStart && decide (s.ctl.coldReason = 0)) ∧
    numAt (stateBytes s) 8 8 = s.ctl.localTime.toNat := by
  have hmode := s.ctl.mode.code_lt
  have hcauses := degCauses_lt s
  have hfenced := fencedMask_lt s
  have hdeg := flag_le_one (degraded s)
  have hfast := flag_le_one (reportedFast s)
  have htime := s.ctl.localTime.isLt
  refine ⟨lay_length _, (numAt_lay [] 1 _ _).trans ?_, (numAt_lay [(1, _)] 1 _ _).trans ?_, (numAt_lay [(1, _), (1, _), (2, _)] 4 _ _).trans ?_,
    (numAt_lay [(1, _), (1, _), (2, _), (4, _)] 8 _ _).trans ?_⟩
  · rw [pack, pack, pack]
    omega
  · omega
  · rw [pack, pack, pack, ← reportedFast]
    omega
  · omega

/-- DEGRADED and the four conditions of its causes (R262, R322, R24). -/
theorem degCauses_spec (s : State) : (degraded s = true ↔ degCauses s ≠ 0) ∧ degCauses s < 16 ∧
    (bit (degCauses s) 0 = true ↔ ∃ e ∈ s.links, e.2.pstate = 1 ∨ (e.2.pstate = 2 ∧ e.2.reason ≠ 1)) ∧
    (bit (degCauses s) 1 = true ↔ ∃ e ∈ s.bridges, e.2 = true) ∧
    (bit (degCauses s) 2 = true ↔ ∃ e ∈ s.flds, e.2.fenced = true) ∧
    (bit (degCauses s) 3 = true ↔ ∃ e ∈ s.flds, e.2.fenced = false ∧ e.2.remap ≠ [] ∧ e.2.mappedCount < policyPlots s.ctl.policyFull) := by
  obtain ⟨hlt, hlink, hbridge, hfield, hshort⟩ := flags_spec (s.links.any (fun e => e.2.degrades)) (s.bridges.any (fun e => e.2))
    (s.flds.any (fun e => e.2.fenced)) (s.flds.any (fun e => e.2.short s.ctl.policyFull))
  refine ⟨decide_eq_true_iff, hlt, ?_, ?_, ?_, ?_⟩
  · rw [degCauses, hlink]
    simp [Port.degrades]
  · rw [degCauses, hbridge]
    simp
  · rw [degCauses, hfield]
    simp
  · rw [degCauses, hshort]
    simp [Field.short, and_assoc]

theorem timeRecord_of_none {s : State} {i : Nat} (h : (portOf s i).exchange = none) : timeRecord s i = List.replicate 32 0#8 := by
  unfold timeRecord
  rw [h]
  exact (List.append_nil _).trans (le_zero 32)

theorem timeRecord_of_some {s : State} {i : Nat} {a b c d : U64} (h : (portOf s i).exchange = some (a, b, c, d)) :
    timeRecord s i = le 8 a.toNat ++ le 8 b.toNat ++ le 8 c.toNat ++ le 8 d.toNat := by
  unfold timeRecord
  rw [h]
  simp [lay]

theorem identityBytes_spec (s : State) : (identityBytes s).length = 48 ∧ numAt (identityBytes s) 0 8 = 0x003054322D385341 ∧
    numAt (identityBytes s) 8 2 = 0x00B0 ∧ numAt (identityBytes s) 16 12 = Config.serial.toNat ∧
    numAt (identityBytes s) 28 2 = (s.mesh.addr.getD 0#16).toNat := by
  have haddr := (s.mesh.addr.getD 0#16).isLt
  have hserial := Config.serial.isLt
  exact ⟨lay_length _, numAt_lay [] 8 partCode _, numAt_lay [(8, _)] 2 stepping _,
    (numAt_lay [(8, _), (2, _), (2, _), (2, _), (2, _)] 12 serialNat _).trans (Nat.mod_eq_of_lt hserial),
    (numAt_lay [(8, _), (2, _), (2, _), (2, _), (2, _), (12, _)] 2 _ _).trans (Nat.mod_eq_of_lt haddr)⟩

/-! ## The statement -/

/-- Settles O19: each request by its own lemma, and the fields of the records. -/
theorem queriesAnswer : Obligations.QueriesAnswer :=
  ⟨⟨fun _ _ => exec_moduleIdentify, fun _ _ => exec_plotStatus, fun _ _ => exec_linkStatus, fun _ _ => exec_meshStatus, fun _ _ => exec_meshTimeRead,
      fun _ _ _ => exec_jobStatus, fun _ s hacc => ⟨relayRecords s, exec_testStatus hacc⟩, fun _ _ => exec_healthWarnings,
      fun _ _ => exec_powerStatus, fun _ _ _ => exec_attestReport⟩,
    ⟨fun _ _ _ => exec_memoryRegionList, fun _ _ _ => exec_windowList, fun _ _ _ _ _ => exec_healthLogRead, fun _ _ _ _ => exec_healthEventsRead,
      fun _ _ _ hacc => ⟨exec_healthSummaryRead_of_counts hacc, exec_healthSummaryRead_of_kept hacc⟩, fun _ _ _ => exec_otpRead,
      fun _ _ _ => exec_ownerViolationsRead, fun _ _ _ hacc => ⟨exec_healthMargins_of_port hacc, exec_healthMargins_of_field hacc⟩,
      fun _ _ _ _ => exec_debugQueueView, fun _ _ _ _ => exec_debugCountersRead⟩,
    ⟨stateBytes_spec, degCauses_spec, fun _ _ => ⟨timeRecord_of_none, fun _ _ _ _ => timeRecord_of_some⟩, identityBytes_spec⟩⟩

end Sys2Proof.Machine

/-! PROOF. The start sequence and its warnings (R393, R450): what keeps a warning in force, what a start leaves of the OTP, and the warning that a start
raises for a field without a fuse generation left. -/

namespace Sys2Proof.Machine

open Sys2Proof

/-! ## Repetition -/

/-- A property that no element of the list takes away. -/
theorem forEach_induct {α : Type} {P : State → Prop} {f : α → State → State} (hP : ∀ a s, P s → P (f a s)) (l : List α) {s : State} (hs : P s) :
    P (forEach l f s) := by
  induction l generalizing s with
  | nil => exact hs
  | cons a r ih => exact ih (hP a s hs)

/-- A property that one element of the list brings about, and that no element takes away, holds at the end. -/
theorem forEach_of_mem {α : Type} {P Q : State → Prop} {f : α → State → State} {l : List α} {a : α} (ha : a ∈ l)
    (hQ : ∀ b s, Q s → Q (f b s)) (hP : ∀ b s, P s → P (f b s)) (hset : ∀ s, Q s → P (f a s)) {s : State} (hs : Q s) : P (forEach l f s) := by
  induction l generalizing s with
  | nil => cases ha
  | cons b r ih =>
    cases ha with
    | head => exact forEach_induct hP r (hset s hs)
    | tail _ hr => exact ih hr (hQ b s hs)

/-! ## Warnings in force (R450) -/

theorem warn_health_ne_nil (kind srcKind object : Nat) (value threshold : Int) (e : EventRec) (s : State) :
    (warn kind srcKind object value threshold e s).health ≠ [] := by
  unfold warn
  split
  next hany =>
    have hsome : s.health ≠ [] := by
      intro hnil
      simp [hnil] at hany
    simpa using hsome
  next => simp

theorem spareWarning_health_ne_nil (f : Nat) {s : State} (h : s.health ≠ []) : (spareWarning f s).health ≠ [] := by
  unfold spareWarning
  split
  · exact warn_health_ne_nil _ _ _ _ _ _ _
  · exact h

theorem generationWarning_health_ne_nil (f : Nat) {s : State} (h : s.health ≠ []) : (generationWarning f s).health ≠ [] := by
  unfold generationWarning
  split
  · exact warn_health_ne_nil _ _ _ _ _ _ _
  · exact h

theorem generationWarning_of_spent {f : Nat} {s : State} (h : 4 ≤ (fuseGens s f).length) : (generationWarning f s).health ≠ [] := by
  unfold generationWarning
  rw [if_pos h]
  exact warn_health_ne_nil _ _ _ _ _ _ _

/-! ## Frames of the start sequence -/

@[simp] theorem applyDestructions_otp (s : State) : (applyDestructions s).otp = s.otp := by
  unfold applyDestructions
  dsimp only
  split <;> simp

@[simp] theorem restoreHbm_otp (env : BootEnv) (s : State) : (restoreHbm env s).otp = s.otp := by
  unfold restoreHbm reloadMaps applyClears
  dsimp only
  split <;> simp

@[simp] theorem startSettings_otp (s : State) : (startSettings s).otp = s.otp := by
  simp [startSettings]

@[simp] theorem startPorts_health (s : State) : (startPorts s).health = s.health := by
  simp [startPorts]

/-- What the eight fields warn of at the end of a start (R450). -/
def fieldWarnings : State → State := forEach (List.range 8) (fun f s => generationWarning f (spareWarning f s))

/-- The warnings in force after a start are those that the fields raise at its end, with the OTP as it was. -/
theorem bootWith_health (slot : Nat) (fw : FwImage) (env : BootEnv) (s : State) :
    ∃ u, u.otp = s.otp ∧ (bootWith slot fw env s).health = (fieldWarnings u).health := by
  unfold bootWith
  extract_lets s0 reason full s1 s2 s3 s4 s5 s6 s7 s8 s9 s10
  have h3 : s3.otp = s.otp := by
    simp only [s3]
    split <;> simp [s2, s1, s0]
  have h5 : s5.otp = s3.otp := by
    refine (forEach_otp _ _ _ fun f u => ?_).trans rfl
    split <;> simp
  refine ⟨s9, ?_, by simp [s10, fieldWarnings]⟩
  simp [s9, s8, s7, s6, h5, h3]

/-- A field that has used all four generations of its fuse map warns at the end of a start (R409, R450 kind 0x0F). -/
theorem bootWith_warns_of_spent_fuses {slot : Nat} {fw : FwImage} {env : BootEnv} {s : State} {f : Nat} (hf : f < 8)
    (hspent : 4 ≤ (fuseGens s f).length) : (bootWith slot fw env s).health ≠ [] := by
  obtain ⟨u, hotp, hhealth⟩ := bootWith_health slot fw env s
  rw [hhealth]
  refine forEach_of_mem (P := fun v => v.health ≠ []) (Q := fun v => v.otp = s.otp) (List.mem_range.2 hf) (fun g v hv => by simpa using hv)
    (fun g v hv => generationWarning_health_ne_nil g (spareWarning_health_ne_nil g hv)) (fun v hv => generationWarning_of_spent ?_) hotp
  simpa [fuseGens, hv] using hspent

/-- A start with an image and a good record area, on an entry that reads no identity memories again (R371, R393). -/
theorem exec_bootSequence_of_image {env : BootEnv} {s : State} {slot : Nat} {fw : FwImage} (hmode : s.ctl.mode = .boot)
    (hlodge : s.ctl.bootFromLodge = false) (hsel : selectFirmware s env.slotBad = some (slot, fw)) (harea : env.areaBad = false) :
    exec (.bootSequence env) s = .next (watchDegraded (bootWith slot fw env) (startPower s)) := by
  have hsel' : selectFirmware (startPower s) env.slotBad = some (slot, fw) := hsel
  show execBootSequence env s = _
  simp [execBootSequence, hmode, hlodge, hsel', harea]

/-! ## The statement -/

/-- BOOT on a module as shipped but that field 0 has used all four generations of its fuse map (R402). -/
def spentFuses : State :=
  { State.reset with
    pins := { State.reset.pins with powerGood := true, resetN := true }
    ctl := { State.reset.ctl with mode := .boot }
    otp := { Otp.factory with fuses := Tab.set Otp.factory.fuses 0 (List.replicate 4 ⟨[], [], true⟩) } }

/-- A start in which nothing fails. -/
def soundStart : BootEnv where
  ids := []
  slotBad := []
  areaBad := false
  badA := []
  badB := []
  hbmBad := []
  softBad := []
  coreFails := []
  fieldDead := []
  bridgeFails := []
  selfRefresh := []
  digestOk := true
  badKeySlots := []

theorem selectFirmware_spentFuses : (selectFirmware spentFuses soundStart.slotBad).isSome = true := by decide +kernel

/-- Refutes O14: the statement has no warning in force after a start, but a field whose fuse map has used all four generations raises the warning of
kind 0x0F in the start itself (R409, R450). -/
theorem not_startSequenceAndTest : ¬ Obligations.StartSequenceAndTest := by
  unfold Obligations.StartSequenceAndTest
  rintro ⟨hboot, -, -⟩
  obtain ⟨⟨slot, fw⟩, hsel⟩ := Option.isSome_iff_exists.1 selectFirmware_spentFuses
  obtain ⟨t, hexec, -, -, -, -, -, -, -, hhealth, -⟩ := (hboot soundStart spentFuses rfl).1 slot fw hsel rfl
  rw [exec_bootSequence_of_image rfl rfl hsel rfl] at hexec
  obtain rfl := Host.Outcome.next.inj hexec
  have hkeep : (watchDegraded (bootWith slot fw soundStart) (startPower spentFuses)).health =
      (bootWith slot fw soundStart (startPower spentFuses)).health := by
    simp [watchDegraded]
  exact bootWith_warns_of_spent_fuses (f := 0) (by decide) (by decide) (hkeep ▸ hhealth)

end Sys2Proof.Machine
